-- ==== Sys2Proof/Word.lean ====
section
/-!
DEFINITION. The word types of the module and the sparse table that holds every indexed piece of its state.
-/
namespace Sys2Proof

/-- One byte of slot memory, package memory, a record or a packet (R3). -/
abbrev Byte := BitVec 8

/-- A 32-byte op (R39), read as one little-endian number. -/
abbrev OpWord := BitVec 256

/-- A 128-byte task descriptor (R50), read as one little-endian number. -/
abbrev DescWord := BitVec 1024

/-- A table from numbers to values in one canonical form: keys strictly rising, and no entry equal to the table's
default (what an unlisted key reads as). -/
abbrev SMap (α : Type) := List (Nat × α)

/-- A byte memory in the same canonical form; an unlisted address reads as zero (R90, R371). -/
abbrev Mem := SMap Byte

end Sys2Proof
end

