-- ==== Sys2Proof/Types.lean ====
section
/-!
DEFINITION. The operand types of the commands: mailboxes, requests, packets, sensor samples and the requests' fields.
-/
namespace Sys2Proof

/-- The three mailboxes (R477). -/
inductive Via where
  | mb0
  | mb1
  | mbm
deriving DecidableEq, Repr

/-- A session trailer as VANILLA finds it (R567): its counter, and whether its tag verifies under the request key. -/
structure Trailer where
  counter : Nat
  tagGood : Bool
deriving DecidableEq, Repr

/-- What a mailbox request carries besides the command's own fields (R482, R488, R490). -/
structure Req where
  via : Via
  tag : Nat
  /-- `MH_LENGTH` matches the command's payload. -/
  lenOk : Bool
  /-- Every reserved field and reserved flag of header and payload is zero. -/
  rsvZero : Bool
  trailer : Option Trailer
deriving DecidableEq, Repr

/-- A fabric packet as received (R404, R405); `tagOk` is the outcome of the AES-GCM check (R418). -/
structure Packet where
  dst : Nat
  src : Nat
  chan : Nat
  epoch : Nat
  window : Nat
  seq : Nat
  fmt : Nat
  poison : Bool
  last : Bool
  staged : Bool
  /-- Every reserved bit of the header is zero and its operation is none of the reserved ones (R404). -/
  rsvZero : Bool
  offset : Nat
  aux : Nat
  payload : List Byte
  tagOk : Bool
deriving DecidableEq, Repr

/-- Parameters of a work or completion ring (R467). -/
structure RingParams where
  ring : Nat
  base : Nat
  entries : Nat
  lineAddr : Nat
  cq : Nat
  vector : Nat
  moderation : Nat
deriving DecidableEq, Repr

/-- Fields of `KV_POOL_CONFIG` (R244); the per-layer and per-tile fields are lists in index order. -/
structure PoolParams where
  job : Nat
  pageSize : Nat
  layers : Nat
  home : List Nat
  first : List Nat
  count : List Nat
  base : List Nat
  desc : Nat
  ptBase : Nat
  ptStride : Nat
  maxLen : Nat
  work : Nat
  listBytes : Nat
deriving DecidableEq, Repr

/-- One entry of the region table (R350): wide bit, tile, slice; `rsv` is any reserved bit set. -/
structure RegionEntry where
  wide : Bool
  tile : Nat
  slice : Nat
  rsv : Bool
deriving DecidableEq, Repr

/-- One port's plan entry (R389). -/
structure PlanEntry where
  plane : Nat
  swport : Nat
deriving DecidableEq, Repr

/-- Fields of `WINDOW_OPEN` (R420, R443). -/
structure WindowParams where
  number : Nat
  kind : Nat
  tile : Nat
  base : Nat
  bound : Nat
  ops : Nat
  peers : List Nat
  expected : Nat
  consumers : Nat
  fence : Option Nat
  staging : Option Nat
  targetFmt : Nat
  publish : Nat
deriving DecidableEq, Repr

/-- A task of a step task set or a residency task: its tile and descriptor address (R110). -/
structure SetTask where
  tile : Nat
  addr : Nat
deriving DecidableEq, Repr

/-- Fields of `STEP_SET_REGISTER` (R110, R318, R135). -/
structure StepSetParams where
  job : Nat
  tasks : List SetTask
  residency : List SetTask
  tokenBudget : Nat
  seqsPerStep : Nat
  drafts : Nat
  reserve : Nat
  buffer : Nat
  counters : List Nat
  barLocal : Nat
  seed : Nat
  abortLimit : Nat
deriving DecidableEq, Repr

/-- Fields of `BARRIER_CONFIG` (R148). -/
structure BarrierParams where
  barrier : Nat
  root : Nat
  members : Nat
  localCount : Nat
  arrCh : Nat
  relCh : Nat
deriving DecidableEq, Repr

/-- Fields of `WEIGHT_REGION_SET` (R525). -/
structure WeightParams where
  index : Nat
  source : Nat
  channel : Nat
  window : Nat
  base : Nat
  length : Nat
  src : Nat
  digests : Nat
  job : Nat
deriving DecidableEq, Repr

/-- Request of `ENGINE_DRAIN` and `ENGINE_ABORT` (R554). -/
structure EngineSel where
  tiles : Nat
  sel : Nat
  classes : Nat
  job : Nat
deriving DecidableEq, Repr

/-- What an acknowledge or negative acknowledge frame carries (R377): the frame that it names, the acknowledgement, the outcome
of its CRC, and the symbols in error of each of its codewords. -/
structure LinkCtl where
  seq : Nat
  ack : Nat
  crcOk : Bool
  errs : List (List Nat)
deriving DecidableEq, Repr

/-- Fields of an identity record (R387). -/
structure IdRecord where
  role : Nat
  port : Nat
  plane : Nat
  fabricId : Nat
  major : Nat
  minLo : Nat
  minHi : Nat
  serial : Nat
  crcOk : Bool
deriving DecidableEq, Repr

/-- One peer's report as checked by VANILLA (R573): the outcomes of the checks in order. -/
structure PeerReport where
  answered : Bool
  chainOk : Bool
  signatureOk : Bool
  m5 : Nat
  m2 : Nat
  debug : Nat
  failed : Bool
  digest : Nat
  secret : Nat
  serial : Nat
  pos : Nat
deriving DecidableEq, Repr

/-- One token report of `MSG_RESULT` (R321): the sequence slot, accepted tokens with log-probabilities, drafts offered
and accepted, the drafts for the next step with their draft indices, and whether a selection failed (R315). -/
structure TokenReport where
  slot : Nat
  tokens : List (Nat × Nat)
  offered : Nat
  accepted : Nat
  drafts : List (Nat × Nat)
  failed : Bool
deriving DecidableEq, Repr

/-- A member's engine and MACE status of a step (R473, R474): flag bytes, then the counts. -/
structure EngStatus where
  cumin : Nat := 0
  saffron : Nat := 0
  sumac : Nat := 0
  anise : Nat := 0
  clove : Nat := 0
  fennel : Nat := 0
  sfMasked : Nat := 0
  sfNan : Nat := 0
  smMasked : Nat := 0
  smNan : Nat := 0
  anOffered : Nat := 0
  anAccepted : Nat := 0
  reNan : Nat := 0
  reInf : Nat := 0
  reStale : Nat := 0
  reIncomplete : Nat := 0
deriving DecidableEq, Repr

/-- A page notice (R261): kind 1 release or 2 fork, prefix, slot, parent. -/
structure PageNotice where
  kind : Nat
  prefixLen : Nat
  slot : Nat
  parent : Nat
deriving DecidableEq, Repr

/-- One sequence record of a step header (R121). -/
structure SeqRec where
  slot : Nat
  kind : Nat
  lastChunk : Bool
  drafts : Nat
  start : Nat
  new : Nat
  sample : Nat
  tokOff : Nat
  pageList : Nat
  hostId : Nat
deriving DecidableEq, Repr

/-- A step header (R120); `rsvZero` says that every reserved field is zero. -/
structure StepHeader where
  step : Nat
  job : Nat
  rerun : Bool
  backward : Bool
  rerunCount : Nat
  tokenCount : Nat
  tokenBudget : Nat
  prefillTokens : Nat
  hdrBytes : Nat
  lastCommitted : Nat
  recs : List SeqRec
  seqCount : Nat
  rsvZero : Bool
deriving DecidableEq, Repr

/-- A temperature sample of one tile in °C: its 64 DRAM sensors, four a layer, and its 8 junction sensors (R369, R591). -/
structure TileTemps where
  dram : List Nat
  junction : List Nat
deriving DecidableEq, Repr

/-- Which storage a test or a correctable error names: a package codeword or a slot half line (R518, R521). -/
inductive Loc where
  | pkg (tile chan codeword : Nat)
  | slot (tile line half : Nat)
deriving DecidableEq, Repr

/-- The two reads of a targeted self-test (R520): 0 error-free, 1 correctable, 2 uncorrectable. -/
structure TestReads where
  first : Nat
  second : Nat
deriving DecidableEq, Repr

end Sys2Proof
end

