-- ==== Sys2Proof/Syntax.lean ====
section
/-!
DEFINITION. The commands of the block: one constructor per row of spec/opcode_table.json, with the row's operands. Rows without operands stand last.
-/
namespace Sys2Proof

/-- A command of the module. Each constructor cites the rule of its row. -/
inductive Instr where
  /-- R508: The 50 V input enters 40–60 V, AON comes up, the board position is latched and cold start-up begins. -/
  | powerInputInRange (pos : Nat)
  /-- R580: The input stays outside 40–60 V for more than 10 µs, every rail turns off and the module enters OFF. -/
  | inputExcursion (us : Nat)
  /-- R601: PERST# is asserted for at least 1 µs; shorter pulses are filtered out. -/
  | perstAssert (ns : Nat)
  /-- R508: PERST# is released; the effective release is the later of this and the end of the ramp, and firmware verification and boot follow. -/
  | perstRelease (pendingOk activeOk otherOk : Bool) (digests : List Nat)
  /-- R508: CARDAMOM starts, MB0 and MBM become ready, the heartbeat starts and the module is in BOOTING; the firmware fallback of R497 applies here. -/
  | cardamomStart (m2digest fwVersion : Nat)
  /-- R530: The start-up flip-mask checker test of every controller and bank completes, passing or triggering BIST. -/
  | checkerTest (failTiles fails : Nat)
  /-- R454: The CXL link trains, and the module sets or clears the HOST_LINK not-ready condition from its width, rate and flit mode. -/
  | cxlLinkTrained (width rate : Nat) (flit256 : Bool)
  /-- R459: A host snoop removes a watched tail or head line, so that the ring watcher wakes, fetches the line and reads any new descriptors. -/
  | snpinv (head : Bool) (ring : Nat)
  /-- R470: A TASK work descriptor submits a task to its tile for admission. -/
  | task (ring : Nat)
  /-- R115: A new-sequence update, optionally a fork, is applied to the step table or refused, and an UPDATE record follows. -/
  | seqNew (ring : Nat)
  /-- R115: A sequence-finished update moves the entry to ENDING, or is accepted without change. -/
  | seqFinish (ring : Nat)
  /-- R115: A sampling-parameter change takes effect from the next step formed, or is refused. -/
  | seqSample (ring : Nat)
  /-- R471: A completion record is written to its ring once the ring has room, lines 1–3 first and then line 0, and MSI-X follows. -/
  | completionRecordWrite (cq : Nat)
  /-- R458: Data returns for a D2H read of a watched line, a descriptor or prompt tokens. -/
  | d2hReadData (id : Nat) (data : List Byte)
  /-- R471: A completion for an ItoMWr record-line write arrives, allowing line 0 of the record to be written. -/
  | d2hWriteCompletion (id : Nat)
  /-- R460: The host timeout expires on a D2H read, a write or a back-invalidate snoop, ending it with TIMEOUT_HOST. -/
  | hostTimeout (id : Nat)
  /-- R461: Host software commits the HDM decoder, and a zero size or misaligned base sets the commit-error bit. -/
  | hdmDecoderCommit (base : Nat)
  /-- R461: A host CXL.mem read of the HDM window, returning poison for poisoned codewords. -/
  | hdmRead (offset : Nat) (caches : Bool)
  /-- R463: A host CXL.mem write to the HDM window, storing codewords poisoned when the write carries poison. -/
  | hdmWrite (offset : Nat) (data : List Byte) (poison : Bool)
  /-- R462: The host answers a back-invalidate snoop, letting the waiting device access proceed. -/
  | bisnpResponse (line : Nat) (dirty : List Byte)
  /-- R570: A CXL_IDE_KM KEY_PROG is accepted only if the key equals the session key for that stream. -/
  | keyProg (stream dir sub keySet refresh key : Nat)
  /-- R570: K_SET_GO switches an IDE stream to the programmed key set. -/
  | kSetGo (stream keySet : Nat)
  /-- R466: The moderation interval of a completion ring ends, allowing its next MSI-X message. -/
  | cqModerationExpire (cq : Nat)
  /-- R57: PEPPER applies the admission checks to a task that reaches a free place, admitting it or refusing it with a fault code. -/
  | taskAdmit (tile : Nat)
  /-- R52: A WAITING task's valid fence waits are all met and, for a step task, a header is bound, so the task becomes ACTIVE. -/
  | taskEligible (tile task : Nat)
  /-- R96: PEPPER fills free issue-window entries from ACTIVE tasks in priority and admission order, re-reading the op lists. -/
  | opWindowFill (tile : Nat)
  /-- R99: PEPPER issues a ready op, claiming its granules and starting the engine clock, or faults the task on a POISONED input. -/
  | opIssue (tile cls : Nat)
  /-- R100: A ready op that has waited 20 µs is promoted to compete as class 0. -/
  | issueAgePromote (tile entry : Nat)
  /-- R105: The next group of three CUMIN arrays of a tile starts, 8 ns after the previous group. -/
  | cuminGroupStart (tile : Nat)
  /-- R104: An engine stops its clock 64 ns after its last op completes with no new op issued. -/
  | engineClockStop (tile cls inst : Nat)
  /-- R106: A tile with no resident task and no step task set turns its PLL off after 1 ms. -/
  | tilePllOff (tile : Nat)
  /-- R44: A no-op completes at issue, touching nothing. -/
  | noOp (tile entry : Nat)
  /-- R202: A CUMIN matrix multiply, optionally packed, transposed or accumulating, completes, writing its output and updating its tags. -/
  | cmMm (tile entry : Nat) (parity : Bool)
  /-- R226: Forward block attention with running row statistics writes the result and log-sum-exp, or the partial state. -/
  | sfAttnFwd (tile entry : Nat) (parity : Bool)
  /-- R231: Backward attention recomputes the scores and writes or accumulates dQ, dK and dV. -/
  | sfAttnBwd (tile entry : Nat) (parity : Bool)
  /-- R230: Two partial attention states are merged and completed, or written as a state. -/
  | sfMerge (tile entry : Nat) (parity : Bool)
  /-- R233: Rotary position encoding is applied to rows, which are written out. -/
  | sfRope (tile entry : Nat) (parity : Bool)
  /-- R257: FENNEL provides pages for new positions, copying shared pages on write, and writes a list of copy and append entries. -/
  | fnAppend (tile entry : Nat) (parity : Bool)
  /-- R258: FENNEL writes a list of the pages that hold a range of positions. -/
  | fnGather (tile entry : Nat) (parity : Bool)
  /-- R280: SUMAC elementwise add. -/
  | smAdd (tile entry : Nat) (parity : Bool)
  /-- R280: SUMAC elementwise multiply. -/
  | smMul (tile entry : Nat) (parity : Bool)
  /-- R280: SUMAC elementwise maximum. -/
  | smMax (tile entry : Nat) (parity : Bool)
  /-- R280: SUMAC elementwise minimum. -/
  | smMin (tile entry : Nat) (parity : Bool)
  /-- R280: SUMAC elementwise compare that writes mask bits. -/
  | smCmp (tile entry : Nat) (parity : Bool)
  /-- R280: SUMAC select by mask, with an immediate fill. -/
  | smSelect (tile entry : Nat) (parity : Bool)
  /-- R280: SUMAC format conversion. -/
  | smConvert (tile entry : Nat) (parity : Bool)
  /-- R290: SUMAC function of a scaled argument through a segment table. -/
  | smFunc (tile entry : Nat) (parity : Bool)
  /-- R280: SUMAC gated activation a × f(b × imm). -/
  | smGate (tile entry : Nat) (parity : Bool)
  /-- R282: SUMAC row sum in the fixed tree order. -/
  | smRowsum (tile entry : Nat) (parity : Bool)
  /-- R282: SUMAC row maximum. -/
  | smRowmax (tile entry : Nat) (parity : Bool)
  /-- R282: SUMAC row dot product. -/
  | smRowdot (tile entry : Nat) (parity : Bool)
  /-- R284: SUMAC RMS normalisation with gain. -/
  | smRmsnorm (tile entry : Nat) (parity : Bool)
  /-- R285: SUMAC layer normalisation with gain and optional bias. -/
  | smLayernorm (tile entry : Nat) (parity : Bool)
  /-- R287: SUMAC masked soft maximum with optional log-sum-exp. -/
  | smSoftmax (tile entry : Nat) (parity : Bool)
  /-- R296: A SUMAC engine swaps a table slot's banks at its next op boundary during a table load. -/
  | tableBankSwap (tile engine : Nat)
  /-- R314: ANISE selects one token per row of logits after penalties and filters, optionally reporting results or drafts. -/
  | anSample (tile entry : Nat) (parity : Bool)
  /-- R319: ANISE verifies k drafts against target rows and selects one further token. -/
  | anVerify (tile entry : Nat) (parity : Bool)
  /-- R333: A CLOVE 2-D or 3-D strided copy, with optional conversion. -/
  | clCopy (tile entry : Nat) (parity : Bool)
  /-- R335: A CLOVE gather of source rows chosen by an index list. -/
  | clGather (tile entry : Nat) (parity : Bool)
  /-- R336: A CLOVE scatter of rows to indexed destinations, written in list order. -/
  | clScatter (tile entry : Nat) (parity : Bool)
  /-- R337: A CLOVE blocked transpose of an element matrix. -/
  | clTranspose (tile entry : Nat) (parity : Bool)
  /-- R337: A CLOVE fill with zero bytes, and 0x7F scales when scaled. -/
  | clFill (tile entry : Nat) (parity : Bool)
  /-- R340: CLOVE copies the positions of listed key-value pages into slot memory, zero-filling invalid pages. -/
  | clKvGather (tile entry : Nat) (parity : Bool)
  /-- R341: CLOVE performs the copy pairs and then writes the new positions into pages. -/
  | clKvAppend (tile entry : Nat) (parity : Bool)
  /-- R435: MACE sends slot operand A as one contribution of stamped packets to an accumulate target. -/
  | maAccum (tile entry : Nat) (parity : Bool)
  /-- R143: Holds issue of the task's later ops until a fence counter reaches a value. -/
  | ctlFenceWait (tile entry : Nat)
  /-- R141: A fence increment satisfies a waiting op or task, which is released. -/
  | fenceWaitRelease (tile entry : Nat)
  /-- R144: Increments a local fence counter after every earlier op of the task has completed. -/
  | ctlFenceSignal (tile entry : Nat)
  /-- R144: Sends a fence increment to a peer on a channel, completing on acknowledgement. -/
  | ctlFenceSignalRemote (tile entry : Nat)
  /-- R150: Counts a local barrier arrival, sending an arrival packet to the root when the generation closes. -/
  | ctlBarrierArrive (tile entry : Nat)
  /-- R152: Holds the task's later ops until its barrier generation finishes, and faults if it finished FAILED. -/
  | ctlBarrierWait (tile entry : Nat)
  /-- R125: Repeats the following ops once per record or row group of the bound header. -/
  | ctlStepLoop (tile entry : Nat)
  /-- R125: Closes the innermost step loop. -/
  | ctlStepLoopEnd (tile entry : Nat)
  /-- R122: A member receives a step header into its step buffer, checking its format. -/
  | msgStepHeader (src : Nat) (hdr : StepHeader)
  /-- R122: A member receives the step's token list into its step buffer. -/
  | msgTokenList (src : Nat) (toks : List Nat)
  /-- R321: The manager receives a member's token results and drafts for the step. -/
  | msgResult (member step : Nat) (reports : List TokenReport) (status : EngStatus)
  /-- R132: The manager receives a member's fault report for a step. -/
  | msgFault (member step code taskId tile : Nat)
  /-- R133: A member cancels the step's ops and begins the abort actions. -/
  | msgAbort (step code : Nat)
  /-- R134: The manager receives a member's abort-done report. -/
  | msgAbortDone (member step : Nat)
  /-- R130: A member applies a commit in one action, including FENNEL commit effects, page notices and window folds. -/
  | msgCommit (step : Nat) (notices : List PageNotice)
  /-- R263: An idle FENNEL carries out pending fold, release and reclamation work. -/
  | fennelBackground (tile : Nat)
  /-- R423: A remote WRITE packet is checked and applied to a window or as an open-trust write, or refused. -/
  | write (port : Nat) (p : Packet)
  /-- R426: A remote READ on a package window returns READ_RESP packets, or is refused. -/
  | read (port : Nat) (p : Packet)
  /-- R426: A read response delivers data, or poison, to the requesting op. -/
  | readResp (port : Nat) (p : Packet)
  /-- R437: An ACCUM packet is classified by its stamp and queued for the adders, or refused or discarded. -/
  | accum (port : Nat) (p : Packet)
  /-- R439: An adder applies an accumulate to a codeword, and an epoch completes when the expected LAST count is reached. -/
  | maceApply (tile chan : Nat)
  /-- R147: A remote fence increment is applied, queued as pending, discarded as stale, or refused. -/
  | fenceInc (port : Nat) (p : Packet)
  /-- R151: The barrier root counts a module arrival and sends a release when the generation is full. -/
  | barArrive (port : Nat) (p : Packet)
  /-- R151: A member sets BAR_DONE and BAR_STATUS from a barrier release. -/
  | barRelease (port : Nat) (p : Packet)
  /-- R412: A cumulative channel acknowledgement frees the retention store, completes ops, and halves the cap when BUSY is set. -/
  | ack (port : Nat) (p : Packet)
  /-- R411: A channel NAK makes the sender resend from the named sequence. -/
  | nak (port : Nat) (p : Packet)
  /-- R427: A refusal faults the sending op with WINDOW_REFUSED, except for reason BUSY. -/
  | refuse (port : Nat) (p : Packet)
  /-- R412: The 1 µs acknowledgement interval elapses and a cumulative ACK is sent. -/
  | ackTimer (peer chan : Nat)
  /-- R411: With no acknowledgement for 10 µs, the sender resends from its oldest unacknowledged packet. -/
  | channelRetransmitTimer (peer chan : Nat)
  /-- R423: A packet refused with BUSY is resent after 1 µs. -/
  | busyResendTimer (peer chan : Nat)
  /-- R416: A destination's cap doubles after 10 µs without BUSY. -/
  | busyCapRecover (port dest : Nat)
  /-- R423: A slot window claims a granule of its bound once the granule becomes EMPTY. -/
  | slotWindowClaim (window granule : Nat)
  /-- R409: The peer's open request meets the local one on VL3, keys are derived and the channel becomes OPEN. -/
  | channelOpenRequest (peer chan : Nat)
  /-- R421: A sender records a window's epoch, operations and bound from a VL3 notice. -/
  | windowNotice (peer counter : Nat) (tagOk : Bool) (window epoch ops bound : Nat)
  /-- R571: A peer's release notice ends its admission, handled as FM_MEMBER_GONE. -/
  | releaseNotice (peer counter : Nat) (tagOk : Bool)
  /-- R576: A rekey exchange renews the pair key before a channel epoch wraps. -/
  | pairRekey (peer counter : Nat) (tagOk : Bool) (secret : Nat)
  /-- R573: A peer-attestation request is answered with a ciphertext, a signed report and certificates while CLAIMED. -/
  | paReq (peer nonce ek : Nat)
  /-- R573: A peer-attestation reply is checked, giving the PEER_ATTEST result. -/
  | paResp (peer : Nat) (r : PeerReport)
  /-- R550: Channels to the member are RESET, windows discard their epochs, barriers fail, and the manager aborts the step. -/
  | fmMemberDown (id : Nat)
  /-- R552: Channels re-open in a new epoch, notices are resent, and the manager resends its commit and abort. -/
  | fmMemberUp (id : Nat)
  /-- R553: The manager discards the uncommitted step, writes JOB_FAULT and forms no further step. -/
  | fmMemberGone (id : Nat)
  /-- R394: A switch report of reachable fabric ids is checked against the members, and routing is rebuilt. -/
  | switchReachabilityReport (port : Nat) (ids : List Nat)
  /-- R378: A received link frame is checked and delivered in order, or discarded with a negative acknowledge. -/
  | linkDataFrame (port seq ack : Nat) (crcOk : Bool) (errs : List (List Nat)) (lanes direct : List Nat)
  /-- R378: A link acknowledge frees replay-buffer frames. -/
  | linkAckFrame (port : Nat) (f : LinkCtl)
  /-- R378: A link negative acknowledge makes the transmitter replay from the named frame. -/
  | linkNakFrame (port : Nat) (f : LinkCtl)
  /-- R379: The eighth consecutive replay of one frame takes the port DOWN with RETRY_LIMIT. -/
  | portRetryLimit (port : Nat)
  /-- R383: A DOWN port with light and no disable enters TRAINING. -/
  | portTrainingStart (port : Nat)
  /-- R386: A training step completes; step 5 ends the training in UP or QUARANTINE. -/
  | portTrainingStepDone (port loopNs : Nat)
  /-- R387: An identity training frame from the neighbour is received, ending step 4 when it has been received twice alike. -/
  | idRecord (port : Nat) (r : IdRecord)
  /-- R386: A training step exceeds its bound and the port goes DOWN with that step's cause. -/
  | trainingStepTimeout (port : Nat)
  /-- R384: One second after going DOWN, the port starts training again. -/
  | portRetrainTimer (port : Nat)
  /-- R375: Laser-input and receive-lane optical powers are sampled every 10 µs. -/
  | opticalPowerSample (lasersOk lanesOk : Nat)
  /-- R375: A lane or laser input out of limits for 100 µs takes its ports DOWN with NO_LIGHT. -/
  | lightLoss (laser : Bool) (index : Nat)
  /-- R391: A lane loses lock, power or codeword integrity, and its port goes DOWN with LANE_FAIL. -/
  | laneFail (port lane : Nat)
  /-- R362: A controller serves the next package-memory request by class, age and share limit. -/
  | memRequestServe (tile chan : Nat)
  /-- R364: A class 1 or 2 request that has waited 16 µs is promoted ahead of younger requests. -/
  | memRequestPromote (tile chan : Nat)
  /-- R369: A channel refresh occupies every bank for 117 ns at the band's interval. -/
  | refresh (tile chan : Nat)
  /-- R370: After 1 ms with every sensor at least 2 °C below the limit, the tile returns to a longer refresh interval. -/
  | refreshBandRelax (tile : Nat)
  /-- R515: A channel scrubber reads the next codeword in a free slot, correcting or poisoning it. -/
  | pkgScrub (tile chan : Nat)
  /-- R89: The slot scrubber reads the next line and its tag in an idle bank cycle. -/
  | slotScrub (tile : Nat)
  /-- R517: A lap exceeds the lap-overdue limit, setting the flag, the log entry and the error-summary bit. -/
  | scrubLapOverdue (tile : Nat) (slot : Bool)
  /-- R519: The self-test runs on a location with a correctable error and classes it as transient, lasting or cannot hold data. -/
  | targetedSelfTest (loc : Loc) (reads : TestReads)
  /-- R519: A self-test that has waited 1 ms is promoted to class 1. -/
  | selfTestPromote (loc : Loc)
  /-- R526: Firmware reloads a RELOADING immutable-weight block from its source and verifies its digest, or marks it LOST. -/
  | weightBlockReload (data : List Byte) (sourceOk verified : Bool) (reads : List TestReads)
  /-- R591: All sensors are sampled every 10 µs, applying warnings, refresh bands, holds, budget cuts and thermal shutdown. -/
  | temperatureSample (tiles : List TileTemps) (hub : List Nat)
  /-- R584: Input voltage and current are sampled every 10 µs to update P1 and P100. -/
  | powerSample (millivolts milliamps : Nat)
  /-- R586: Every 10 µs the power manager grants each tile an issue budget that keeps every power limit. -/
  | issueBudgetGrant (binds : Bool) (grants : List Nat)
  /-- R555: A drained tile reaches QUIESCED and EVENT is set. -/
  | drainQuiesced (tile : Nat)
  /-- R531: The pattern BIST completes, recording its result and entering FAILED on bad locations. -/
  | bistComplete (bad : List Loc) (elapsed : Nat)
  /-- R506: A port or board loopback test completes and its result is recorded. -/
  | loopbackComplete (board : Bool) (lostPos lostPlane : List Nat) (elapsed : Nat)
  /-- R425: The in-flight count of a closing window, channel or ring reaches zero, so claims are released and the command responds. -/
  | closeDrainComplete (kind index : Nat)
  /-- R81: A granule named by SLOT_RELEASE loses its last claim and is set EMPTY. -/
  | slotReleaseGranule (granule : Nat)
  /-- R503: A member announces its position and serial to the master. -/
  | csHello (pos serial : Nat) (onUp : Bool)
  /-- R505: A member receives its ramp slot and soft-starts its rails. -/
  | csRampGrant (slot : Nat)
  /-- R505: The master learns that a member has ramped and grants the next slot. -/
  | csRampDone (pos : Nat)
  /-- R506: A member records one board-table position. -/
  | csBoardTable (pos : Nat) (present : Bool) (serial : Nat)
  /-- R506: A chain-test frame is echoed and counted. -/
  | csLoop (pos seq pattern : Nat)
  /-- R507: The target performs a core or module reset on the master's command. -/
  | csReset (level : Nat)
  /-- R503: The master receives a member's cascade fault report. -/
  | csFault (pos cause : Nat)
  /-- R498: The I3C bus assigns the MBM target a dynamic address by ENTDAA. -/
  | entdaa (addr : Nat)
  /-- R498: The I3C bus assigns the dynamic address from the static address by SETDASA. -/
  | setdasa (staticAddr addr : Nat)
  /-- R498: The MCTP control command assigns the endpoint id, kept in AON. -/
  | setEndpointId (eid : Nat)
  /-- R485: A PLDM type 0 message is answered within 10 ms, bypassing the executor. -/
  | pldmBaseRequest (command : Nat)
  /-- R500: A PLDM type 2 monitoring request is answered from the sensors. -/
  | pldmSensorRequest (sensor : Nat)
  /-- R500: Sets the receiver of PLDM platform events. -/
  | setEventReceiver (eid : Nat)
  /-- R501: PLDM type 5 opens the firmware transfer under the FW_BEGIN rules. -/
  | requestUpdate (slot size : Nat)
  /-- R501: A 1,024-byte image chunk pulled by the module arrives, and the verify result is reported when complete. -/
  | requestFirmwareData (offset : Nat) (data : List Byte) (verdict version svn : Nat)
  /-- R501: Makes the verified slot PENDING as mode 0 does, refusing self-contained activation. -/
  | activateFirmware (selfContained : Bool)
  /-- R480: A write of 1s clears the OVERRUN, EVENT or DONE bits of a mailbox status register. -/
  | mbStatusW1c (mb1 : Bool) (bits : Nat)
  /-- R484: A header, payload or doorbell write while BUSY is ignored and sets OVERRUN. -/
  | mbWriteWhileBusy (mb1 : Bool)
  /-- R618: A write of 1s clears error-summary bits. -/
  | esBitsW1c (bits : BitVec 64)
  /-- R621: A write of 1s clears counter overflow bits of a bank. -/
  | evcOvfW1c (bank : Nat) (bits : BitVec 16)
  /-- R623: An 8-byte write to a selection register is checked, zeroing and configuring the counter, or is ignored. -/
  | evcSelWrite (bank index size : Nat) (value : BitVec 64)
  /-- R625: Setting or clearing EVC_FREEZE holds or resumes every counter at one tick. -/
  | evcFreeze (on : Bool)
  /-- R628: A BAR2 aperture access reaches package memory, slot memory, tags or internal state, or is discarded and counted while closed. -/
  | bar2Access (write : Bool) (offset size : Nat) (data : List Byte)
  /-- R610: A write to a BAR0 or BAR2 control register without a row of its own. -/
  | registerWrite (bar2 : Bool) (offset size value : Nat)
  /-- R491: Returns identity, state, health, position, fabric id, slot versions and contract version. -/
  | identify (q : Req)
  /-- R560: Returns part of a certificate of the identity chain. -/
  | certRead (q : Req) (index offset : Nat)
  /-- R563: Returns a report of the selected measurements, signed under the AK. -/
  | attest (q : Req) (nonce mask : Nat)
  /-- R564: Takes a tenant's signed ML-KEM offer in two parts and returns the ciphertext and session id. -/
  | sessionOpen (q : Req) (part pk ek : Nat) (sigOk : Bool)
  /-- R568: Claims the module for a session, extending M5, advancing the tenant epoch and closing BAR2. -/
  | tenantClaim (q : Req) (session policy nfw : Nat) (allow : List Nat)
  /-- R571: Ends the tenancy, zeroes keys, fills and checks memory, restarts CARDAMOM and opens BAR2. -/
  | tenantRelease (q : Req) (m2digest : Nat) (bad : List Loc)
  /-- R578: Accepts a signed debug token, wipes memory, advances the debug counter, extends M4 and opens the debug scope. -/
  | debugUnlock (q : Req) (scope serial counter digest m2digest : Nat) (bad : List Loc) (sigOk : Bool)
  /-- R494: Returns the firmware slot records and boot information. -/
  | fwInfo (q : Req)
  /-- R495: Opens the firmware transfer and erases the slot. -/
  | fwBegin (q : Req) (slot size : Nat)
  /-- R495: Writes the next image chunk, or acknowledges a repeated chunk. -/
  | fwTransfer (q : Req) (id offset : Nat) (data : List Byte)
  /-- R496: VANILLA verifies a RECEIVED slot, making it VERIFIED or reporting a reason for failure. -/
  | fwVerify (q : Req) (id verdict version svn : Nat)
  /-- R497: Makes a verified slot PENDING, and in mode 1 resets the module. -/
  | fwActivate (q : Req) (slot mode : Nat)
  /-- R495: Cancels the transfer and leaves the slot EMPTY. -/
  | fwCancel (q : Req) (id : Nat)
  /-- R352: Replaces the region table after checking it. -/
  | regionSet (q : Req) (entries : List RegionEntry)
  /-- R352: Returns the region table. -/
  | regionRead (q : Req)
  /-- R461: Sets the size of the HDM window. -/
  | hdmSizeSet (q : Req) (units : Nat)
  /-- R467: Creates a work ring naming its completion ring. -/
  | ringCreate (q : Req) (r : RingParams)
  /-- R491: Destroys a work ring once its work in flight has drained. -/
  | ringDestroy (q : Req) (ring : Nat)
  /-- R467: Creates a completion ring with its vector and moderation interval. -/
  | cqCreate (q : Req) (r : RingParams)
  /-- R468: Destroys a completion ring that no work ring names. -/
  | cqDestroy (q : Req) (ring : Nat)
  /-- R245: Configures a page pool, zeroing the page tables and linking the free lists. -/
  | kvPoolConfig (q : Req) (f : PoolParams)
  /-- R81: Sets the named granules EMPTY once their claims are released. -/
  | slotRelease (q : Req) (tile first count : Nat)
  /-- R363: Sets the class 0 share and the threshold of all controllers. -/
  | memArbSet (q : Req) (share threshold : Nat)
  /-- R460: Sets the host timeout. -/
  | hostTimeoutSet (q : Req) (ms : Nat)
  /-- R525: Declares, replaces or removes an immutable weight region. -/
  | weightRegionSet (q : Req) (w : WeightParams)
  /-- R389: Installs the fabric plan and applies it to every port at once. -/
  | fabricPlanSet (q : Req) (fabricId generation : Nat) (plan : List PlanEntry)
  /-- R394: Sets the list of planned fabric members. -/
  | fabricMembersSet (q : Req) (ids : List Nat)
  /-- R573: Runs the VL3 attestation exchange with a peer and returns the result. -/
  | peerAttest (q : Req) (peer : Nat)
  /-- R109: Joins a job with its members and manager, opening channels 0 to 2. -/
  | fabricJobJoin (q : Req) (job : Nat) (members : List Nat) (manager : Nat)
  /-- R491: Leaves a job that has no uncommitted step and no registered step task set. -/
  | fabricJobLeave (q : Req) (job : Nat)
  /-- R408: Requests the opening of a general channel to a peer on a port. -/
  | channelOpen (q : Req) (number peer port low high : Nat)
  /-- R409: Begins closing a channel, completing when every packet is acknowledged. -/
  | channelClose (q : Req) (number peer : Nat)
  /-- R420: Opens a window, sends notices to peers and returns its epoch. -/
  | windowOpen (q : Req) (w : WindowParams)
  /-- R425: Stops a window accepting contributions and closes it after its drain. -/
  | windowClose (q : Req) (window : Nat)
  /-- R448: Returns a window's epoch, in-flight count and reduction counts. -/
  | windowStatus (q : Req) (window : Nat)
  /-- R428: Enables open trust for a job. -/
  | fabricOpenTrust (q : Req) (job : Nat)
  /-- R396: Returns the ten port status records. -/
  | portStatus (q : Req)
  /-- R384: Takes the named ports DOWN with RETRAIN and starts training at once. -/
  | portRetrain (q : Req) (mask : Nat)
  /-- R384: Holds the named ports DOWN. -/
  | portDisable (q : Req) (mask : Nat)
  /-- R384: Lifts a port disable. -/
  | portEnable (q : Req) (mask : Nat)
  /-- R54: Returns an engine class's capability record. -/
  | engineCapsRead (q : Req) (cls : Nat)
  /-- R110: Registers a job's step task set, limits, barrier, seed and residency tasks, and returns the member capacity. -/
  | stepSetRegister (q : Req) (f : StepSetParams)
  /-- R491: Releases a job's step task set when no uncommitted step counts. -/
  | stepSetRelease (q : Req) (job : Nat)
  /-- R135: Reruns a held step after any LOST blocks are reloaded, restarting the abort count. -/
  | jobResume (q : Req) (job : Nat)
  /-- R555: Puts a drain of the selected tasks into force as a background command. -/
  | engineDrain (q : Req) (sel : EngineSel)
  /-- R556: Cancels the selected tasks' ops, ends non-step tasks, aborts the job's step and lifts the drain. -/
  | engineAbort (q : Req) (sel : EngineSel)
  /-- R555: Returns each tile's resident tasks and drain state. -/
  | engineStatus (q : Req)
  /-- R217: Loads an attention configuration after checking it. -/
  | sfConfigLoad (q : Req) (index : Nat) (record : List Byte)
  /-- R296: Loads a segment table into a slot on every SUMAC engine through the shadow banks. -/
  | smTableLoad (q : Req) (slot dpa : Nat)
  /-- R292: Returns a table image. -/
  | smTableRead (q : Req) (kind index : Nat)
  /-- R142: Writes a fence counter and retests its waits. -/
  | fenceSet (q : Req) (counter : Nat) (value : BitVec 64)
  /-- R142: Returns up to 512 fence counter values. -/
  | fenceRead (q : Req) (first count : Nat)
  /-- R148: Configures a barrier, resetting its generation registers. -/
  | barrierConfig (q : Req) (b : BarrierParams)
  /-- R491: Returns state, health, lasting faults, temperatures and the error summary. -/
  | healthStatus (q : Req)
  /-- R534: Returns the entries of a log. -/
  | logRead (q : Req) (log tile first : Nat)
  /-- R534: Clears a log, keeping pending entries and refusing the lasting-fault table. -/
  | logClear (q : Req) (log tile : Nat)
  /-- R623: Writes a counter selection, refusing invalid values. -/
  | counterConfig (q : Req) (bank index : Nat) (value : BitVec 64)
  /-- R491: Returns counter values, or zero under the COUNTERS policy. -/
  | counterRead (q : Req) (first count : Nat)
  /-- R516: Returns the scrub records of each tile. -/
  | scrubStatus (q : Req)
  /-- R517: Sets the lap-overdue limit. -/
  | scrubConfig (q : Req) (hours : Nat)
  /-- R491: Returns one reading of each sensor. -/
  | telemetryRead (q : Req)
  /-- R539: Holds issue, waits, folds FENNEL and writes the dump, or on MB1 the AON writes the dump directly. -/
  | recoveryCollect (q : Req)
  /-- R544: Responds and then starts a core reset. -/
  | resetCore (q : Req)
  /-- R548: Writes pending ring records, responds and starts a module reset. -/
  | resetModule (q : Req)
  /-- R582: Writes back the cache, puts memory into self-refresh, takes the ports DOWN and stops CARDAMOM. -/
  | standbyEnter (q : Req)
  /-- R582: Restarts CARDAMOM and retrains the ports, returning to UNCLAIMED or FAILED, or from step 4 after a thermal trip. -/
  | standbyExit (q : Req)
  /-- R507: The master sends CS_RESET to reset a board member. -/
  | cascadeReset (q : Req) (pos level : Nat)
  /-- R529: Loads a one-shot flip-mask register. -/
  | testFlipmask (q : Req) (slot : Bool) (tile unit : Nat) (mask : List Byte)
  /-- R531: Starts the pattern BIST as a background command. -/
  | testBist (q : Req) (tiles memory patterns : Nat)
  /-- R506: Starts a port or board loopback test as a background command. -/
  | testLoopback (q : Req) (board : Bool) (mask : Nat)
  /-- R533: Returns the result record of a test. -/
  | testResult (q : Req) (test : Nat)
  /-- R446: The fold of a completed shard into the window base passes its last codeword on a channel, releasing held requests and ending BUSY refusals of the next epoch. -/
  | foldComplete (window chan : Nat)
  /-- R510: Package-memory training of all tiles finishes at start-up, starting the hardware fill, or fails and puts the module into FAILED. -/
  | packageMemoryTrained (ok : Bool)
  /-- R508: The hardware fill of package memory and slot memory completes, leaving zeros with valid check bits. -/
  | hardwareFill
  /-- R455: A CXL link loss without PERST# causes a core reset. -/
  | cxlLinkDown
  /-- R465: An IDE integrity failure makes both streams insecure, sets the error summary and is handled as a link loss. -/
  | ideIntegrityFailure
  /-- R619: The 10 µs holdoff of MSI-X vector 0 ends, and one message covers the bits set meanwhile. -/
  | esMsixHoldoff
  /-- R118: After the previous commit, the conductor forms the next step, or a release step, from the step table and sends the header and token list. -/
  | stepForm
  /-- R133: Once every packet of the cancelled ops is settled, the member clears tags, discards page changes, restores step counters and sends MSG_ABORT_DONE. -/
  | abortPacketsSettled
  /-- R134: After every abort-done report and reload, the manager sends the rerun header. -/
  | stepRerun
  /-- R131: After the step barrier completes, the manager advances its committed step, updates the table, sends MSG_COMMIT and writes the completion records. -/
  | stepCommit
  /-- R538: CARDAMOM adds 1 to the heartbeat count at least every 2 ms. -/
  | heartbeatTick
  /-- R566: A pending session unclaimed 30 s after part 1 is discarded and its keys are zeroed. -/
  | sessionPendingExpire
  /-- R505: Fifty milliseconds after its AON comes up, the master begins granting ramp slots. -/
  | cascadeMasterWait
  /-- R505: A 200 ms ramp slot ends; a member without CS_RAMP_DONE is marked absent and the next slot is granted. -/
  | rampSlotExpire
  /-- R504: A non-master without a grant within 2 s sets a cascade fault. -/
  | cascadeGrantTimeout
  /-- R504: A module with a cascade fault ramps on its own at 2 s plus 200 ms times its position. -/
  | cascadeSoloRamp
  /-- R600: A sender that lost the cascade line resends its frame after its backoff. -/
  | cascadeRetry
  /-- R501: Cancels the PLDM firmware transfer as FW_CANCEL does. -/
  | cancelUpdate
  /-- R625: Writing EVC_CLEAR zeroes all 144 counters and overflow bits at one tick. -/
  | evcClear
  /-- R508: A module's soft-started rails finish their ramp, and if PERST# was already released this is the effective release at which boot verification begins. -/
  | rampComplete
  /-- R497: When MB0 is not ready within 2.5 s of the release after booting a PENDING slot, the module resets again, boots the previously ACTIVE slot, empties the PENDING slot and sets FI_BOOT to 2. -/
  | bootFallback
deriving DecidableEq, Repr

end Sys2Proof
end

