-- ==== Sys2Proof/Decode.lean ====
section
/-!
DEFINITION. Commands that a table word spells. No row of spec/opcode_table.json gives bits, so no word spells a command.
-/
namespace Sys2Proof

/-- The command that the `nbits` low bits of `w` spell by the table's bits: the table gives no row any bits. -/
def decodeTableWord (_nbits _w : Nat) : Option Instr := none

end Sys2Proof
end

