-- ==== Sys2Proof/Config.lean ====
section
/-!
DEFINITION. What an implementation fixes and the spec does not give: free values (constants without a body) and the
cryptographic functions that the published standards define outside the spec. Every constant has a row in the
assumption log.
-/
namespace Sys2Proof.Config

/-- A fresh free value: applied to the state's counter of free values taken so far. -/
opaque freeValue : Nat → Nat

/-- The exponential unit's steps (R226): the smallest FP32 code of |x| for which a result of this code, or a smaller one,
may be given. -/
opaque expStep : Nat → Nat
/-- The exponential unit's FP32 result for a positive argument, which no rule bounds. -/
opaque expFree : Nat → Nat
/-- The cosine unit's FP32 result, before the bound of R224 is enforced. -/
opaque cosFree : Nat → Nat
/-- The sine unit's FP32 result, before the bound of R224 is enforced. -/
opaque sinFree : Nat → Nat
/-- The logarithm unit's FP32 result, before the bound of R227 is enforced. -/
opaque lnFree : Nat → Nat

/-- Byte `i` of the native table image of function code `f` (R292): its content is not published. -/
opaque nativeTable (f i : Nat) : Nat
/-- Byte `i` of the compatibility (A6) table image of function code `f` (R298). -/
opaque compatTable (f i : Nat) : Nat
/-- What an op of contract 1.x says, in the terms of contract 2.2: the properties that R65 keeps, each under its name,
and the parameters of the equal op. -/
structure A6Op where
  cls : Nat
  code : Nat
  /-- Bits 9, 10 and 12 to 15 of `OP_FLAGS`: accumulate, bound parameters and the class flags. -/
  flags : Nat
  /-- Slot offsets of A, B, C and OUT. -/
  offsets : List Nat
  /-- Consumer count of the output. -/
  consumers : Nat
  /-- `OP_PARAMS`, 12 bytes. -/
  params : Nat
  /-- Does the A6 default write a NaN for an FP8 E4M3 overflow of this op? -/
  nanDefault : Bool
  /-- Operands (0 A, 1 B, 2 C) that a SUMAC op reads from package memory: the line within the package window, and lines. -/
  pkgReads : List (Nat × Nat × Nat)
deriving DecidableEq, Repr, Inhabited

/-- The reading of one op of contract 1.x: the A6 encoding is not given (R64, R65). -/
opaque a6Decode : OpWord → A6Op

/-- The dynamic energy that an op charges to its tile's issue budget (R107, R586): no table is given. -/
opaque opEnergy : OpWord → Nat

/-- The draft count that sampling parameters of an index ask for (R114), as the n-th update finds it: no field of R313 holds one. -/
opaque draftsAsked (index n : Nat) : Nat

/-- The seed that ANISE draws from while no step task set gives the job's (R318). -/
opaque noSeed : Nat

/-- SHA3-256 (FIPS 202) of a byte string, as a number of 256 bits. -/
opaque sha3 : List Byte → Nat
/-- HMAC with SHA3-256 of key and message. -/
opaque hmac : List Byte → List Byte → Nat
/-- ML-DSA-65 signature of a message under the key pair of a seed (FIPS 204). -/
opaque mldsaSign : Nat → List Byte → List Byte
/-- ML-KEM-768 encapsulation: the shared secret for an encapsulation key and a random draw. -/
opaque kemSecret : Nat → Nat → Nat
/-- Byte `i` of the certificate of an index (R560); `carried` is what this boot puts into the attestation-key
certificate. Names, keys and lengths come from manufacture. -/
opaque certByte (index : Nat) (carried : List Nat) (i : Nat) : Nat
/-- Length in bytes of a certificate (R560). -/
opaque certLength (index : Nat) : Nat
/-- ML-KEM-768 encapsulation: the ciphertext for an encapsulation key and a random draw. -/
opaque kemCipher : Nat → Nat → List Byte
/-- AES-256-GCM: byte `i` of the sealed payload, and of the tag after it, for a key, a nonce and the data that are only
authenticated (R417). -/
opaque sealByte (key : Nat) (nonce aad payload : List Byte) (i : Nat) : Byte
/-- Byte `i` of the report that goes out as the `n`-th, whose layout no source gives (R395, R549). -/
opaque reportByte (n i : Nat) : Byte
/-- CRC-8 of a cascade frame (R502), whose polynomial is not given. -/
opaque crc8 : List Byte → Byte
/-- The unique device secret fused into the module. -/
opaque uds : Nat
/-- Opseys' PCI vendor id, and the revision in configuration space (R456): neither is given. -/
opaque vendorId : Nat
opaque revisionId : Nat
/-- The module's serial number. -/
opaque serial : Nat
/-- The random source of the VANILLA engine, draw by draw. -/
opaque random : Nat → Nat

end Sys2Proof.Config
end

