-- ==== Sys2Proof/Machine/Bytes.lean ====
section
/-!
DEFINITION. Bytes, bit fields and the sparse tables' operations (R3: little-endian throughout).
-/
namespace Sys2Proof.Machine

/-! ### Sparse tables -/

/-- What key `k` holds; an unlisted key reads as `d`. -/
def mapGet {α : Type} (d : α) : SMap α → Nat → α
  | [], _ => d
  | (k', v) :: m, k => if k = k' then v else mapGet d m k

/-- The entry for `k`, unless the value is the default. -/
def mapCell {α : Type} [DecidableEq α] (d : α) (k : Nat) (v : α) : SMap α :=
  if v = d then [] else [(k, v)]

/-- A table without what it lists for `k`. -/
def mapDel {α : Type} (m : SMap α) (k : Nat) : SMap α := m.filter (fun kv => kv.1 != k)

/-- Write `v` at `k`, keeping the canonical form. In it, deleting what stands after `k` changes nothing; it makes a read
after a write true of every list. -/
def mapSet {α : Type} [DecidableEq α] (d : α) : SMap α → Nat → α → SMap α
  | [], k, v => mapCell d k v
  | (k', v') :: m, k, v =>
    if k < k' then mapCell d k v ++ (k', v') :: mapDel m k
    else if k = k' then mapCell d k v ++ mapDel m k
    else (k', v') :: mapSet d m k v

/-- Apply `f` to what key `k` holds. -/
def mapMod {α : Type} [DecidableEq α] (d : α) (m : SMap α) (k : Nat) (f : α → α) : SMap α :=
  mapSet d m k (f (mapGet d m k))

/-- Apply `f` to every entry; of a key listed twice the first counts, as for `mapGet`. -/
def mapVals {α : Type} [DecidableEq α] (d : α) (f : α → α) (m : SMap α) : SMap α :=
  m.foldr (fun kv a => mapSet d a kv.1 (f kv.2)) []

/-- The canonical form: keys strictly rising from `lo`, and no entry equal to the default. -/
def mapWfFrom {α : Type} [DecidableEq α] (d : α) : Nat → SMap α → Bool
  | _, [] => true
  | lo, (k, v) :: m => decide (lo ≤ k) && decide (v ≠ d) && mapWfFrom d (k + 1) m

def mapWf {α : Type} [DecidableEq α] (d : α) (m : SMap α) : Bool := mapWfFrom d 0 m

def mapKeys {α : Type} (m : SMap α) : List Nat := m.map (·.1)

/-! ### Byte memories -/

/-- A byte memory's canonical form. -/
def Memory.wf (m : Mem) : Bool := mapWf (0 : Byte) m

def memGet (m : Mem) (a : Nat) : Byte := mapGet 0 m a

def memSet (m : Mem) (a : Nat) (b : Byte) : Mem := mapSet 0 m a b

/-- Write bytes from address `a` up. -/
def memWrite (m : Mem) (a : Nat) : List Byte → Mem
  | [] => m
  | b :: bs => memWrite (memSet m a b) (a + 1) bs

def memRead (m : Mem) (a n : Nat) : List Byte := (List.range n).map (fun i => memGet m (a + i))

/-! ### Numbers and bytes -/

/-- A little-endian number. -/
def ofBytes : List Byte → Nat
  | [] => 0
  | b :: bs => b.toNat + 256 * ofBytes bs

/-- `n` little-endian bytes of a number. -/
def le : Nat → Nat → List Byte
  | 0, _ => []
  | n + 1, v => BitVec.ofNat 8 v :: le n (v / 256)

/-- The bytes of a label. -/
def ascii (t : String) : List Byte := t.toList.map (fun c => BitVec.ofNat 8 c.toNat)

/-- A field of `size` bytes at byte `off` of a number. -/
def fld (x off size : Nat) : Nat := x / 2 ^ (8 * off) % 2 ^ (8 * size)

/-- Bits [hi:lo] of a number. -/
def bits (x hi lo : Nat) : Nat := x / 2 ^ lo % 2 ^ (hi + 1 - lo)

def bit (x i : Nat) : Bool := x / 2 ^ i % 2 == 1

/-- Set or clear bit `i` of a mask. -/
def setBit (x i : Nat) (b : Bool) : Nat :=
  if bit x i == b then x else if b then x + 2 ^ i else x - 2 ^ i

/-- ⌈a / b⌉. -/
def ceilDiv (a b : Nat) : Nat := (a + b - 1) / b

/-- Round up to a multiple of `b`. -/
def roundUp (a b : Nat) : Nat := ceilDiv a b * b

/-- Saturating addition to `n` bits. -/
def satAdd (n a b : Nat) : Nat := min (a + b) (2 ^ n - 1)

/-- Fields laid out as (offset, size, value) over `n` zero bytes. -/
def layout (n : Nat) (fs : List (Nat × Nat × Nat)) : List Byte :=
  le n (fs.foldl (fun a f => a + (f.2.2 % 2 ^ (8 * f.2.1)) * 2 ^ (8 * f.1)) 0)

def maskBits (w m : Nat) : List Nat := (List.range w).filter (bit m)

end Sys2Proof.Machine
end

