-- ==== Sys2Proof/Machine/Parts.lean ====
section
/-!
DEFINITION. The parts of the machine's state, block by block. Each field's comment gives its width, the rules that name
it and, after the last bar, what its default (its value at reset) rests on.
-/
namespace Sys2Proof.Machine

/-! ### Life of the module: input, cascade, start-up, resets -/

/-- Module states, coded as `DH_STATE` (R542). -/
inductive ModState where
  | off
  | standby
  | booting
  | unclaimed
  | claimed
  | recovering
  | notReady
  | failed
deriving DecidableEq, Repr

/-- Where a start-up or a reset has come to (R508, R546). -/
inductive Boot where
  | waitRamp
  | waitRelease
  | verified
  | trainMemory
  | fill
  | checker
  | bist
  | portsTraining
  | done
  | coreCardamom
  | coreScrub
  | dead
deriving DecidableEq, Repr

/-- Power, start-up and reset history. -/
structure Life where
  state : ModState := .off                -- 3 bits | R542, R613 | OFF before input (R510)
  inputOn : Bool := false                 -- 1 | R508, R580 | no input yet
  pos : Nat := 0                          -- 2 bits | R502, R599, IS_POS | DESIGN CHOICE 0 (log 3)
  released : Bool := false                -- 1 | R508, R601 | PERST# asserted
  ramped : Bool := false                  -- 1 | R505, R508 | not ramped
  boot : Boot := .waitRamp                -- enum | R508, R546 | start of R508
  bootedPending : Bool := false           -- 1 | R497 | none
  filled : Bool := false                  -- 1 | R629 (start-up fill done) | not done
  hbCount : Nat := 0                      -- 64 bits | R538, HB_COUNT | R538 zero
  hbStage : Nat := 0                      -- 8 bits | R615, HB_STAGE | 0 boot ROM
  cardamomRuns : Bool := false            -- 1 | R508, R538, R582 | not started
  aonNs : Nat := 0                        -- 64 bits | R615, HB_AON_NS | 0 as AON comes up
  rcLevel : Nat := 0                      -- 8 bits | R616, RC_LAST_LEVEL | 0 none
  rcCause : Nat := 0                      -- 8 bits | R616, RC_LAST_CAUSE | 0 none
  rcRecovering : Nat := 0                 -- 8 bits | R616, RC_RECOVERING | 0
  rcDumpState : Nat := 0                  -- 8 bits | R616, RC_DUMP_STATE | 0 none
  rcCore : Nat := 0                       -- 32 bits | R616, RC_CORE_COUNT | 0
  rcModule : Nat := 0                     -- 32 bits | R616, RC_MODULE_COUNT | 0
  rcDumpSeq : Nat := 0                    -- 32 bits | R616, RC_DUMP_SEQ | 0
  rcTime : Nat := 0                       -- 64 bits | R616, RC_LAST_TIME | 0
  rcDumpBy : Nat := 0                     -- 8 bits | R616, RC_DUMP_BY | 0
  linkLost : Bool := false                -- 1 | R546 (rings wait for IDE keys after a link loss) | none
  reportDue : Option (Nat × Bool) := none -- level and tenancy kept of a return report that is due | R549 | none
deriving DecidableEq, Repr

/-- One position of the board table (R503). -/
structure BoardEntry where
  present : Bool := false
  serial : Nat := 0
deriving DecidableEq, Repr

/-- The board cascade. -/
structure Cascade where
  hello : SMap Nat := []                  -- position to serial + 1 | R505 (members that sent CS_HELLO) | none
  masterWaited : Bool := false            -- 1 | R505 (50 ms over) | no
  granted : Option Nat := none            -- position | R505 (slot being used) | none
  nextSlot : Nat := 0                     -- count | R505 (next position to grant) | 0
  grants : Nat := 0                       -- count | R505 (slots granted so far) | 0
  absent : List Nat := []                 -- positions | R505 | none
  ownGrant : Option Nat := none           -- slot number | R503 | none
  ramping : Bool := false                 -- 1 | R505 | no
  fault : Bool := false                   -- 1 | R504 | no
  faultsSeen : SMap Nat := []             -- position to cause + 1 | R503, CS_FAULT at the master | none
  table : SMap BoardEntry := []           -- 4 entries | R506 | empty
  haveTable : Bool := false               -- 1 | R504, R506 | none
  loops : SMap Nat := []                  -- position to CS_LOOP frames seen | R506 | none
  lastPattern : Nat := 0                  -- 56 bits | R503, CS_LOOP | DESIGN CHOICE 0 (log 3)
  retries : Nat := 0                      -- count | R600 | 0
deriving DecidableEq, Repr

/-! ### Slot memory and package memory -/

/-- One stored bit error of a slot half line: the 266-bit pattern under line × 2 + half (R67, R535). -/
structure Slot where
  bytes : Mem := []                       -- 134,217,728 bytes | R67, R90 | zero (R90 fill; DESIGN CHOICE before it, log 4)
  tags : SMap (BitVec 8) := []            -- 32,768 × 8 bits | R72 | 0x00 EMPTY (R72)
  tagErrors : SMap Nat := []              -- granule to the 13-bit error pattern of its tag, 8 bits and 5 check bits | R72, R512 | none
  outClaims : SMap Nat := []              -- granule to 1 + owner | R73 | none
  inClaims : SMap Nat := []               -- granule to number of input claims | R73 | none
  errors : SMap Nat := []                 -- half line to error pattern | R88, R512 | none
  flips : SMap Nat := []                  -- bank to 1 + 264-bit mask | R529 | clear
  scrubPos : Nat := 0                     -- 21 bits | R516, SS_SLOT_POS | 0 (R516 clears at power-on)
  scrubLaps : Nat := 0                    -- 32 bits | R516 | 0
  scrubLast : Nat := 0                    -- 32 bits | R516 | 0
  scrubOverdue : Bool := false            -- 1 | R516, R517 | 0
  scrubStart : Nat := 0                   -- ns | R517 (start of the lap) | 0
deriving DecidableEq, Repr

/-- A request waiting at a memory controller (R361 to R364). -/
structure MemReq where
  cls : Nat
  stamp : Nat
  tile : Nat
  hint : Nat
  addr : Nat
  write : Bool
  owner : Nat
  promoted : Bool
deriving DecidableEq, Repr

/-- One memory controller and channel. -/
structure Channel where
  queue : List MemReq := []               -- requests | R361, R362 | empty
  slotCount : Nat := 0                    -- 6 bits | R363 (position in 64 service slots) | 0
  class0 : Nat := 0                       -- 0 to 64 | R363 (class 0 slots used) | 0
  scrubPos : Nat := 0                     -- 24 bits | R515 (next codeword) | 0
  scrubLaps : Nat := 0                    -- 32 bits | R516 | 0
  refreshes : Nat := 0                    -- count | R369 | 0
  refreshed : Nat := 0                    -- 1 + tile time of the last refresh | R369 | 0 none yet
  flip : Nat := 0                         -- 1 + 576-bit mask, 0 clear | R529 | clear
  maceDone : Nat := 0                     -- count | R439 | 0
deriving DecidableEq, Repr

/-- One line of a memory-side cache set, most recently used first in its set (R357 to R359). -/
structure CacheLine where
  tag : Nat
  keep : Bool
  dirty : Bool
  err : Nat := 0                          -- bits in error in the worst of its 8-byte words | R512 | none
deriving DecidableEq, Repr

/-- Package memory: bytes and poison by physical codeword, the region table and the caches. Physical byte addresses are
tile × 2^36 + channel × 2^30 + channel address. -/
structure Pkg where
  bytes : Mem := []                       -- 512 GiB | R348, R371 | zero (fill; DESIGN CHOICE before it, log 4)
  poison : SMap Bool := []                -- codeword to poisoned, the cached copy's where there is one | R368 | none
  errors : SMap Nat := []                 -- codeword to 72-bit byte error pattern in DRAM | R366, R512 | none
  under : SMap (Bool × List Byte) := []   -- codeword of a cached line to DRAM's poison and bytes where they differ from the line's | R357 | none
  regions : SMap RegionEntry := []        -- 512 × 32 bits; unlisted: R351 default | R350, R351 | default table
  cache : SMap (List CacheLine) := []     -- tile × 8192 + set to 16 ways | R357 | every line invalid (R371)
  chans : SMap Channel := []              -- tile × 64 + channel | R348 | see its fields
  band : SMap Nat := []                   -- tile to refresh band 0 to 2 | R369 | 0 (3.9 µs)
  share : Nat := 48                       -- 32 to 64 | R363 | 48
  threshold : Nat := 2                    -- 1 to 16 µs | R363 | 2
  verifying : SMap Bool := []             -- tile × 64 + channel to a verifying lap in progress | R516 SS_FLAGS bit 2 | no
  pkgOverdue : SMap Bool := []            -- tile to overdue flag | R516, R517 | 0
  lapStart : SMap Nat := []               -- tile to ns | R517 | 0
  lapLast : SMap Nat := []                -- tile to µs | R516, SS_PKG_LAST | 0
  lapHours : Nat := 24                    -- 1 to 168 | R517 | 24
  touch : List (Nat × Bool) := []         -- the model's own: lines (address ÷ 64) a command touches, true for a write | R462
deriving DecidableEq, Repr

/-! ### Tasks, tiles and PEPPER -/

/-- The values of R126 that a bound op takes. -/
structure BoundRec where
  record : Nat := 0
  slot : Nat := 0
  start : Nat := 0
  new : Nat := 0
  kind : Nat := 0
  drafts : Nat := 0
  sample : Nat := 0
  tokOff : Nat := 0
  pageList : Nat := 0
  hostId : Nat := 0
  step : Nat := 0
deriving DecidableEq, Repr

/-- An open step loop of a task (R124, R125). -/
structure Loop where
  startPos : Nat
  unit : Nat
  stride : Nat
  advance : Nat
  iter : Nat
  items : List BoundRec
deriving DecidableEq, Repr

/-- Where a task came from. -/
inductive TaskSource where
  | ring (ring index : Nat)
  | stepSet
  | residency
deriving DecidableEq, Repr

/-- States of a resident task (R94). -/
inductive TaskPhase where
  | waiting
  | active
  | finishing
  | parked
  | faulted
deriving DecidableEq, Repr

/-- A resident task (R93, R94). -/
structure Task where
  desc : DescWord := 0                    -- 1024 bits | R50
  addr : Nat := 0                         -- 39 bits | R543 (descriptor address)
  source : TaskSource := .residency       -- enum | R155, R110
  order : Nat := 0                        -- count | R96 (order of admission or registration)
  phase : TaskPhase := .waiting           -- enum | R94
  ops : List OpWord := []                 -- the op list as admitted | R53
  block : List (OpWord × Bool) := []      -- the block of the list read again last, with the poison of each op's line | R53, R96
  blockAt : Nat := 0                      -- index of its first op | R53
  pos : Nat := 0                          -- next op index | R543
  loops : List Loop := []                 -- open loops, innermost first | R125
  waitMet : Nat := 0                      -- 4 bits | R141 (a met wait stays met)
  holdBy : Option Nat := none             -- uid of the wait op that holds the task | R97
  arrived : SMap Nat := []                -- barrier to 1 + generation of the latest arrive | R152
  fault : Nat := 0                        -- 16 bits | R38, R475
  faultOp : Nat := 0                      -- 32 bits | R58
  status : EngStatus := {}                -- CR_ENG | R474
  compat : Bool := false                  -- 1 | R65 (contract 1.x: compatibility tables)
  rebind : Bool := false                  -- 1 | R123, R555 (a bound header waits until the task parks)
deriving DecidableEq, Repr

/-- A task waiting for admission (R61). -/
structure Waiting where
  addr : Nat
  source : TaskSource
deriving DecidableEq, Repr

/-- State of an issue-window entry. -/
inductive EntryState where
  | unissued
  | issued
deriving DecidableEq, Repr

/-- A transfer record and its index list (R334, R335). -/
structure ClRec where
  planes : Nat
  nidx : Nat
  srow : Nat
  drow : Nat
  splane : Nat
  dplane : Nat
  channel : Nat
  window : Nat
  pos : Nat
  rsvZero : Bool
  idx : List Nat
deriving DecidableEq, Repr

/-- An issue-window entry (R96). -/
structure Entry where
  uid : Nat := 0                          -- order of entry into the window | R100
  task : Nat := 0                         -- resident task
  opIndex : Nat := 0                      -- index in the op list
  op : OpWord := 0                        -- the op as read again | R53
  bind : BoundRec := {}                   -- values of R126
  advLines : List Nat := []               -- lines added to A, B, C, OUT | R125
  consume : Nat := 31                     -- operands whose granules this iteration consumes | R128
  iter0 : Nat := 0                        -- unit 0 iteration | R183
  iter1 : Nat := 0                        -- unit 1 iteration | R183
  state : EntryState := .unissued         -- R96
  inst : Nat := 0                         -- engine instance once issued
  ready : Bool := false                   -- it has been ready since some nanosecond | R100
  promoted : Bool := false                -- R100
  group : Bool := false                   -- waits for its CUMIN group to start | R105
  record : Option ClRec := none           -- transfer record read at issue | R334, R633
  met : Bool := false                     -- its fence wait has been satisfied | R141
  gen : Nat := 0                          -- generation that a barrier op refers to | R150, R152
  keys : List Nat := []                   -- channels the op waits on | R412
  sent : Nat := 0                         -- packets not yet settled | R412
  lines : Nat := 0                        -- bytes asked for by its READs | R426
  gotData : List Byte := []               -- bytes a READ returned so far | R426
  bads : List (Nat × Nat) := []           -- byte ranges of it that came with POISON | R426
  fault : Nat := 0                        -- fault met by the op's packets | R409, R427
  ended : Bool := false                   -- the engine is done; packets remain | R430
deriving DecidableEq, Repr

/-- An engine instance of a tile. -/
structure Engine where
  running : Bool := false                 -- clock running | R104
  busy : Bool := false                    -- an op is issued to it | R99
  uid : Nat := 0                          -- the entry issued to it
  errTimes : List Nat := []               -- times of the internal errors of the last second | R514 | none
deriving DecidableEq, Repr

/-- A compute tile's PEPPER and engines. -/
structure Tile where
  tasks : SMap Task := []                 -- 64 places | R93 | none resident
  queue : List Waiting := []              -- admission queue | R61 | empty
  window : List Entry := []               -- 256 entries | R96 | empty
  engines : SMap Engine := []             -- class × 64 + instance | R43 | stopped, free
  pll : Bool := false                     -- 1 | R106 | DESIGN CHOICE off (log 3)
  groups : Nat := 0                       -- issued groups that wait to start | R105 | 0
  tempHold : Bool := false                -- 1 | R108 | none
  latchHold : Bool := false               -- 1 | R513 | none
  budget : Option Nat := none             -- energy left, none = not binding | R107, R586 | not binding
  halved : Bool := false                  -- 1 | R591 (budget halved) | no
  warnDram : Bool := false                -- DRAM warning in force | R591 | no
  warnJunction : Bool := false            -- junction warning in force | R591 | no
  drains : List EngineSel := []           -- drains in force | R555 | none
  quiesced : Bool := false                -- R555 | no
  timeNs : Nat := 0                       -- 64 bits | R361, R588 (tile time counter) | 0 at power-on
  nextTask : Nat := 1                     -- the model's own: next task number | R96
  nextUid : Nat := 1                      -- the model's own: next entry number | R96
deriving DecidableEq, Repr

/-! ### Fences and barriers -/

/-- A remote step-counter increment held for a later run (R147). -/
structure PendingInc where
  counter : Nat
  amount : Nat
  step : Nat
  rerun : Nat
  peer : Nat
  chan : Nat
  seq : Nat        -- packet count of its channel that acknowledges it once it is applied; 0 after the channel's reset
deriving DecidableEq, Repr

/-- A barrier (R148, R149). -/
structure Barrier where
  configured : Bool := false
  root : Nat := 0
  members : Nat := 0
  localCount : Nat := 0
  arrCh : Nat := 0
  relCh : Nat := 0
  cur : Nat := 0
  done : Nat := 0
  failed : Bool := false
  failCode : Nat := 0
  arrivals : Nat := 0
  known : List Nat := []                  -- at the root: members that have sent an arrival | R151, R153
  rootNow : List Nat := []
  rootNext : List Nat := []
  fails : SMap Nat := []                  -- generation to fault code of those that failed | R152
deriving DecidableEq, Repr

/-- The fence and barrier unit. -/
structure Fences where
  counters : SMap (BitVec 64) := []       -- 4,096 × 64 bits | R139 | zero (R139)
  bases : SMap Nat := []                  -- step base per step counter | R146 | none
  pendingInc : List PendingInc := []      -- up to 256 | R147 | empty
  barriers : SMap Barrier := []           -- 64 | R148, R149, R150 | not configured (R150)
deriving DecidableEq, Repr

/-! ### Job, step set and conductor -/

/-- The job the module belongs to (R34, R109). -/
structure Job where
  id : Nat
  members : List Nat
  manager : Nat
  openTrust : Bool
deriving DecidableEq, Repr

/-- The registered step task set (R110). -/
structure StepSet where
  params : StepSetParams
  capacity : Nat
deriving DecidableEq, Repr

/-- States of a step-table entry (R114). -/
inductive SeqState where
  | free
  | prefill
  | decode
  | ending
deriving DecidableEq, Repr

/-- A step-table entry (R114) with what R266, R268 and R473 add to it. -/
structure SeqEntry where
  state : SeqState := .free
  hostId : Nat := 0
  committed : Nat := 0
  remaining : Nat := 0
  promptAddr : Nat := 0
  sample : Nat := 0
  drafts : List Nat := []
  asked : Nat := 0                        -- 5 bits, draft count that the sampling parameters ask for | R114
  lastToken : Nat := 0
  lastFull : Nat := 0
  limit : Nat := 0
  order : Nat := 0
  admitted : Bool := false
  extra : Nat := 0
  forkWaits : Bool := false
  cq : Nat := 0
  ring : Nat := 0
  endStatus : Nat := 0
  reserve : Bool := false                 -- holds the reserve block | R270
  lastDesc : Nat := 0                     -- descriptor number of the last update applied | R543
deriving DecidableEq, Repr

/-- A step the conductor has sent: the retained inputs of R122. -/
structure RetStep where
  step : Nat
  rerunCount : Nat
  recs : List SeqRec
  toks : List Nat
  notices : List PageNotice
  backward : Bool
  full : List Nat                         -- slots that receive their full share | R114
deriving DecidableEq, Repr

/-- A line of prompt tokens that is being read, or its data (R117). -/
structure PromptRead where
  slot : Nat
  id : Nat
  line : Nat
  data : Option (List Byte)
deriving DecidableEq, Repr

/-- Progress of an abort at the manager (R132 to R135). -/
structure AbortState where
  step : Nat
  code : Nat
  waitDone : List Nat
deriving DecidableEq, Repr

/-- The step conductor and the member's step state. -/
structure Conductor where
  seqs : SMap SeqEntry := []              -- 4,096 entries | R114 | FREE
  nextOrder : Nat := 1                    -- the model's own: order of updates read | R118, R268
  committed : Nat := 0                    -- 64 bits, 1 + last committed step of this member | R130 | none committed
  forming : Option RetStep := none        -- a step being formed while prompts are read | R117 | none
  prompts : List PromptRead := []         -- reads of that forming | R117 | none
  current : Option RetStep := none        -- the uncommitted step's retained inputs | R122 | none
  notices : List PageNotice := []         -- page notices waiting for a commit | R261 | none
  results : List (Nat × TokenReport) := [] -- reports of the step received so far | R113, R321 | none
  stepStatus : EngStatus := {}            -- the step's status over all members | R473 | zero
  lateEpochs : Nat := 0                   -- epochs that the last commit found incomplete, for the next result | R448 | 0
  ownStatus : EngStatus := {}             -- this member's step status | R210, R473 | zero
  ownReports : List TokenReport := []     -- this member's reports | R321 | none
  resultSent : Bool := false              -- R113 | no
  abort : Option AbortState := none       -- abort in progress at the manager | R132 | none
  aborts : Nat := 0                       -- consecutive aborts | R135 | 0
  held : Bool := false                    -- no further step formed | R135, R528, R553 | no
  reloadAgain : Bool := false             -- JOB_RESUME is repeating the reloads of LOST blocks | R528 | no
  stopped : Bool := false                 -- FM_MEMBER_GONE or member down | R550, R553 | no
  downMembers : List Nat := []            -- members reported down | R550 | none
  lastFailed : List Nat := []             -- sequences ended by R117 since the last commit | R117 | none
  lastTokens : List (Nat × List Byte) := [] -- ring and TOKENS records of the last committed step, in AON | R159 | none
  hdrSeen : Option StepHeader := none     -- header received, not yet bound | R122 | none
  toksSeen : Option (List Nat) := none    -- token list received | R122 | none
  bound : Option StepHeader := none       -- header bound on this member | R123 | none
  boundToks : List Nat := []              -- token list bound | R122 | none
  abortingStep : Option (Nat × Nat) := none -- step and fault code of a member abort waiting for packets | R133 | none
  abortedStep : Option Nat := none        -- last step this member aborted | R552 | none
  doneOwed : Option Nat := none           -- step whose MSG_ABORT_DONE waits for reloads and residency tasks | R133, R134 | none
  lostSeen : List (Nat × Nat) := []       -- poisoned HELD granules, by tile, that were reported as written by no residency task | R84 | none
  lastRun : Option (Nat × Nat) := none    -- step and rerun count of the last run bound | R147 | none
  nextStep : Nat := 0                     -- number of the next step formed, at the manager | R120 | 0
  lastNotices : List PageNotice := []     -- notices of the last committed step | R261, R552 | none
  owed : List Nat := []                   -- members to which commit and abort go once channel 0 opens | R552 | none
  residencyWait : Nat := 0                -- residency tasks still to complete before a rerun | R84, R134 | 0
  weightAbort : Bool := false             -- the abort came from a weight reload | R135 | no
  memberLimits : SMap Nat := []           -- member to 1 + capacity reported | R110, R267 | none
deriving DecidableEq, Repr

/-! ### FENNEL -/

/-- Where the step's entry for a block stands in the overlay (R250, R251): its other fields lie in package memory. -/
structure Overlay where
  slot : Nat
  layer : Nat
  block : Nat
  addr : Nat
deriving DecidableEq, Repr

/-- Pending background work of a committed step (R262, R263). -/
inductive FoldWork where
  | entry (slot layer block addr : Nat)
  | settled (page : Nat)
  | decrement (page : Nat)
  | fork (child parent layer block left : Nat)
  | drop (slot layer block left : Nat)
deriving DecidableEq, Repr

/-- The page engines and the pool. -/
structure Fennel where
  pool : Option PoolParams := none        -- R244 | none configured
  committed : Nat := 0                    -- 1 + FENNEL's committed step | R245, R262 | none
  overlay : SMap (List Overlay) := []     -- tile to what its overlay's entries stand for | R250 | empty
  pendingDec : SMap (List Nat) := []      -- tile to pages with a pending decrement | R257 | none
  newPages : SMap (List Nat) := []        -- tile to pages allocated by the step | R249 | none
  freeHead : SMap Nat := []               -- tile to 1 + free-list head | R245, R249 | empty
  dead : SMap (List Nat) := []            -- tile to DEAD-PENDING pages, oldest first | R249 | none
  work : SMap (List FoldWork) := []       -- tile to background work | R263 | none
deriving DecidableEq, Repr

/-! ### What leaves the block -/

/-- A message, packet or signal that the block sends out, oldest first in the output list. -/
inductive Out where
  /-- A packet handed to its port's link layer. -/
  | packet (port op : Nat) (p : Packet)
  | mgmt (peer code : Nat) (body : List Nat)
  | stepMsg (member code : Nat) (body : List Nat)
  | stepHeader (member : Nat) (h : StepHeader)
  | tokenList (member : Nat) (toks : List Nat)
  | commit (member step : Nat) (notices : List PageNotice)
  | result (member step : Nat) (reports : List TokenReport) (status : EngStatus)
  | msix (vector : Nat)
  | d2h (id kind addr : Nat) (data : List Byte)
  | h2dData (offset : Nat) (data : List Byte) (poison : Bool)
  | biSnoop (line : Nat) (inv : Bool)
  | cascade (code addr : Nat) (frame : List Byte)
  | pldmEvent (sensor value : Nat)
  | pldmReply (body : List Nat)
  | mctp (body : List Nat)
  | keyAck (ok : Bool)
  /-- A frame that a port sends: its type, its sequence number, its acknowledgement and its payload. -/
  | linkFrame (port kind seq ack : Nat) (payload : List Byte)
  | bar2Data (data : List Byte) (poison : Bool)
  /-- Reports to the fabric manager, each over the port it names. -/
  | portReport (via port state cause : Nat)
  | chanReport (via peer number : Nat)
  | memberReport (via : Nat) (down : Bool) (level : Nat) (survived : Bool)
deriving DecidableEq, Repr

/-! ### Ports, fabric and windows -/

/-- Port states (R383), coded as PS_STATE (R396). -/
inductive PortState where
  | down
  | training
  | quarantine
  | up
deriving DecidableEq, Repr

/-- A data frame that its receiver has not acknowledged (R378). -/
structure LinkFrame where
  seq : Nat
  payload : List Byte
deriving DecidableEq, Repr

/-- A received codeword with symbols in error: when it arrived, the lanes of those symbols, and whether it could not be
corrected (R376, R391). -/
structure BadWord where
  time : Nat
  lanes : Nat
  lost : Bool
deriving DecidableEq, Repr

/-- An optical port. -/
structure Port where
  state : PortState := .down              -- R383 | DOWN
  cause : Nat := 0                        -- 8 bits | R396, PS_CAUSE | 0 none since power-on
  minor : Nat := 0xFF                     -- 8 bits | R396, PS_MINOR | 0xFF not UP
  planeSeen : Nat := 0xFF                 -- 8 bits | R396 | 0xFF
  swport : Nat := 0xFF                    -- 8 bits | R396 | 0xFF
  serialSeen : Nat := 0                   -- 128 bits | R387, R573 | DESIGN CHOICE 0 (log 3)
  loopNs : Nat := 0                       -- 16 bits | R382, PS_LOOP_NS | DESIGN CHOICE 0 (log 3)
  trains : Nat := 0                       -- 32 bits | R396 | 0 (clears at power-on)
  replays : Nat := 0                      -- 32 bits | R396 | 0
  uncorr : Nat := 0                       -- 32 bits | R396 | 0
  laneBad : Nat := 0                      -- 8 bits | R396 | 0
  reach : Bool := false                   -- R396 PS_FLAGS bit 0 | 0
  fromSaved : Bool := false               -- R396 PS_FLAGS bit 1 | 0
  saved : Option (Nat × Nat) := none      -- identity (serial, port) of the saved coefficients | R386, R397 | none
  useSaved : Bool := false                -- this training uses them | R386 | no
  step : Nat := 0                         -- training step 1 to 5 | R386 | 0
  idRec : Option IdRecord := none         -- last identity record received | R387 | none
  idTwice : Bool := false                 -- received twice alike | R387 | no
  disabled : Bool := false                -- R384 | no
  laserOk : Bool := true                  -- R375 | DESIGN CHOICE within limits (log 3)
  lanesOk : Nat := 0xFF                   -- 8 bits | R375 | DESIGN CHOICE within limits (log 3)
  laserBad : Nat := 0                     -- consecutive 10 µs samples out of limits | R375 | 0
  laneRuns : SMap Nat := []               -- lane to consecutive samples out of limits | R375 | 0
  txSeq : Nat := 0                        -- 12 bits | R377 | DESIGN CHOICE 0 (log 3)
  rxSeq : Nat := 0                        -- 12 bits, next expected | R377, R378 | DESIGN CHOICE 0 (log 3)
  txWait : List Byte := []                -- bytes that wait for a frame | R377, R379 | none
  replay : List LinkFrame := []           -- unacknowledged frames, up to 128 | R378 | empty
  replayRun : Nat := 0                    -- replays of the oldest frame in a row | R379 | 0
  rxLane : SMap Nat := []                 -- lane to bytes held in the receive buffer | R414, R416 | 0
  badWords : List BadWord := []           -- codewords with errors of the last 1 ms | R391 | none
deriving DecidableEq, Repr

/-- Channel states (R409). -/
inductive ChanState where
  | closed
  | opening
  | opened
  | closing
  | reset
deriving DecidableEq, Repr

/-- A packet held for retransmission (R411). -/
structure Retained where
  seq : Nat
  op : Nat
  owner : Nat                             -- 8 × entry + tile of the op it belongs to, 0 for none
  sentOut : Bool                          -- handed to the port (R415, R416)
  step : Bool                             -- it belongs to an op of a step task (R133)
  pkt : Packet
  wire : List Byte                        -- as it was sent, to be sent again byte for byte (R417)
  msg : Option Out                        -- the step message that ends with this packet
deriving DecidableEq, Repr

/-- A channel context (R406 to R412), under peer × 4096 + number. -/
structure Chan where
  state : ChanState := .closed            -- R409 | CLOSED
  port : Nat := 0                         -- pinned port | R408
  epoch : Nat := 0                        -- 16 bits, receive direction | R410
  txEpoch : Nat := 0                      -- 16 bits, send direction | R410
  rekey : Bool := false                   -- waits for a new pair key | R410, R576
  rolls : Bool := false                   -- begins epoch 1 once what it has sent is acknowledged | R576
  rxOld : Bool := false                   -- the peer's next epoch 1 begins under the new pair key | R576
  txSeq : Nat := 0                        -- 24 bits | R411
  rxSeq : Nat := 0                        -- 24 bits | R411
  rxUnacked : Nat := 0                    -- applied packets not yet acknowledged | R412
  retained : List Retained := []          -- R411
  low : Nat := 0                          -- first counter the peer may increment | R145
  high : Nat := 0                         -- last counter
  busySeq : Option Nat := none            -- refused with BUSY, waits 1 µs | R423
  rxOpen : Bool := false                  -- a contribution arrives whose LAST has not | R436
  openLast : Option Nat := none           -- entry whose MACE op has not sent its LAST | R436
  peerAsked : Bool := false               -- the peer's open request has arrived | R409
  reads : List (Nat × Nat) := []          -- READs sent and not answered: sequence number, owner | R426
deriving DecidableEq, Repr

/-- Reduction counts of a window (R448). -/
structure ReCounts where
  epochs : Nat := 0
  nan : Nat := 0
  inf : Nat := 0
  stale : Nat := 0
  incomplete : Nat := 0
deriving DecidableEq, Repr

/-- A window context (R420 to R425, R443 to R446). -/
structure Window where
  isOpen : Bool := false
  closing : Bool := false
  params : Option WindowParams := none
  epoch : Nat := 0                        -- 16 bits | R421
  stepBound : Bool := false               -- R445
  runTag : Nat := 0                       -- 8 bits | R437
  k : Nat := 0                            -- epoch index within the run | R437
  lasts : Nat := 0                        -- LAST packets applied | R422
  accepted : Nat := 0                     -- LAST packets accepted, applied or queued | R422
  begun : Bool := false                   -- a packet of the epoch in progress was accepted | R425
  inflight : List (Nat × Nat) := []       -- packets accepted and not yet acknowledged: stream, number | R425
  lastsWait : List (Nat × Nat) := []      -- LAST packets accepted and not yet applied | R422
  claimed : List Nat := []                -- granules claimed | R423
  poisoned : Bool := false                -- a poisoned packet arrived in this epoch | R419
  touched : SMap Bool := []               -- codewords touched in this epoch | R444
  shardDone : Bool := false               -- completed shard waits for commit | R444, R446
  folding : Bool := false                 -- R446
  foldWait : List Nat := []               -- channels the fold has not passed | R446
  counts : ReCounts := {}                 -- R448
deriving DecidableEq, Repr

/-- A notice held for a peer's window (R421). -/
structure Notice where
  epoch : Nat
  ops : Nat
  bound : Nat
deriving DecidableEq, Repr

/-- One codeword's part of an accumulate packet, queued at a controller's adder (R439). `stream` is 2 × channel key, or
2 × owner + 1 of a local op; `seq` numbers the packets of a stream. -/
structure Accum where
  stream : Nat
  seq : Nat
  window : Nat
  isWindow : Bool
  addr : Nat
  tgtFmt : Nat
  vals : List Nat
  poison : Bool
  stamp : Nat          -- tile time at which it was queued (R361)
  tile : Nat           -- tile whose counter the stamp is of
deriving DecidableEq, Repr

/-- A peer as the module holds it (R573 to R577). -/
structure Peer where
  admitted : Bool := false                -- A admitted B | R573
  answered : Bool := false                -- A answered B's PEER_ATTEST | R574
  secretOut : Nat := 0                    -- ss of the exchange this module began | R574
  secretIn : Nat := 0                     -- ss of the exchange the peer began | R574
  generation : Nat := 0                   -- pair key generation | R574, R576
  pairKey : Nat := 0                      -- 256 bits | R574
  oldKey : Nat := 0                       -- old key kept until acknowledged | R576
  txCounter : Nat := 0                    -- 64 bits | R575
  rxCounter : Nat := 0                    -- 64 bits | R575
  gone : Bool := false                    -- R553
  serial : Nat := 0                       -- serial in its report | R402, R573
  pos : Nat := 0xFF                       -- board position in its report | R402, R573
deriving DecidableEq, Repr

/-- One entry of the refusal log (R427, R535). -/
structure RefusalLog where
  window : Nat
  src : Nat
  chan : Nat
  offset : Nat
  reason : Nat
  time : Nat
  step : Nat
deriving DecidableEq, Repr

/-- The fabric endpoint. -/
structure Fabric where
  ports : SMap Port := []                 -- 10 | R373 | see its fields
  planId : Nat := 255                     -- 8 bits | R389, IS_FABRIC_ID | 255 without a plan
  planGen : Nat := 0                      -- 64 bits | R387, R389 | 0 when none
  plan : List PlanEntry := []             -- ten entries or none | R389 | none after power-on (R397)
  members : List Nat := []                -- planned members | R394 | DESIGN CHOICE none (log 3)
  reach : SMap (List Nat) := []           -- port to reachable fabric ids | R394, R400 | none
  routes : SMap Nat := []                 -- fabric id to mask of planes | R400 | none
  chans : SMap Chan := []                 -- 4,096 contexts | R406 | CLOSED
  windows : SMap Window := []             -- 256 | R420 | closed
  winEpochs : SMap Nat := []              -- window to last epoch used | R421 | none
  notices : SMap Notice := []             -- peer × 256 + window | R421 | none
  caps : SMap Nat := []                   -- port × 256 + destination to cap in bytes, 0 = full | R416 | full
  accums : SMap (List Accum) := []        -- tile × 64 + channel to queued accumulates | R439 | empty
  peers : SMap Peer := []                 -- R573 to R577 | none admitted
  attest : Option Nat := none             -- peer of the exchange in progress | R573 | none
  refusals : List RefusalLog := []        -- 32 entries, log 4 | R427, R534 | empty
  touchUsed : SMap Nat := []              -- tile × 64 + channel to touch bits in use | R443 | 0
deriving DecidableEq, Repr

/-! ### Host link, rings and mailboxes -/

/-- Ring states (R617). -/
inductive RingState where
  | none
  | active
  | error
  | destroying
deriving DecidableEq, Repr

/-- A descriptor read and not yet retired. -/
structure DescSlot where
  index : Nat
  bytes : List Byte
  taken : Bool
  ended : Bool
deriving DecidableEq, Repr

/-- A work ring (R467 to R470, R617). -/
structure WorkRing where
  state : RingState := .none
  base : Nat := 0
  entries : Nat := 0
  tailAddr : Nat := 0
  cq : Nat := 0
  tail : Nat := 0                         -- last tail read | R469
  readCount : Nat := 0                    -- descriptors read | R469
  asked : Nat := 0                        -- descriptors asked for
  prog : Nat := 0                         -- RING_PROG_nn | R155, R617
  slots : List DescSlot := []             -- read and not retired
  watched : Bool := false                 -- tail line held in the device cache | R458
deriving DecidableEq, Repr

/-- A completion record waiting for its slot (R471, R473). -/
structure Record where
  ring : Nat
  kind : Nat
  index : Nat
  bytes : List Byte
deriving DecidableEq, Repr

/-- A completion ring (R467, R471, R472, R617). -/
structure CompRing where
  state : RingState := .none
  base : Nat := 0
  entries : Nat := 0
  headAddr : Nat := 0
  vector : Nat := 0
  moderation : Nat := 0
  written : Nat := 0                      -- CQ_WRITTEN_nn | R617
  head : Nat := 0
  waiting : List Record := []
  owed : Nat := 0                         -- the first of these, which a core reset left to be written | R158, R159 | 0
  writing : Option (Record × Nat) := none -- record and lines still to complete
  watched : Bool := false
  msgPending : Bool := false              -- R466
  modHold : Bool := false                 -- moderation interval running | R466
deriving DecidableEq, Repr

/-- What an outstanding D2H request or snoop was made for (R458, R460, R462). -/
inductive D2hUse where
  | tailLine (ring : Nat)
  | headLine (cq : Nat)
  | descriptor (ring index : Nat)
  | prompt (slot : Nat)
  | recordLines (cq : Nat)
  | recordLine0 (cq : Nat)
  | snoop (line tile entry : Nat)
deriving DecidableEq, Repr

/-- CXL.io and CXL.cachemem IDE stream (R464, R570). -/
structure Ide where
  secure : Bool := false
  keySet : Nat := 0
  keys : SMap Nat := []                   -- key set × 16 + direction × 8 + sub-stream to 1 + key
  refresh : Nat := 0
deriving DecidableEq, Repr

/-- A structure of configuration space: PCIe capability, MSI-X, AER, DOE, IDE, and the DVSECs (R456). -/
inductive SpaceCap where
  | pcie
  | msix
  | aer
  | doe
  | ide
  | dvsecDevice
  | dvsecLocator
  | dvsecFlexBus
deriving DecidableEq, Repr

/-- PCIe configuration space. Its vendor id and the places of its structures are not given. -/
structure ConfigSpace where
  deviceId : Nat := 0x0A90                -- 16 bits | R456 | 0x0A90
  classCode : Nat := 0x120000             -- 24 bits | R456 | 0x12_0000
  caps : List SpaceCap := [.pcie, .msix, .aer, .doe, .ide, .dvsecDevice, .dvsecLocator, .dvsecFlexBus] -- R456 | all
  cacheCapable : Bool := true             -- Cache_Capable | R454, R456 | 1
  memCapable : Bool := true               -- Mem_Capable | R454, R456 | 1
  hdmCount : Nat := 1                     -- HDM_Count | R456 | 1
  memHwInit : Bool := false               -- Mem_HwInit_Mode | R456 | 0
  cacheSize : Nat := 0x100000             -- bytes | R456 | 1 MiB
deriving DecidableEq, Repr

/-- The host link. -/
structure HostLink where
  trained : Bool := false                 -- R454 | not trained
  narrow : Bool := false                  -- NR_HOST_LINK | R454, R614 | 0
  space : ConfigSpace := {}               -- R456 | see its fields
  hdmUnits : Nat := 0                     -- 256 MiB units | R461 | DESIGN CHOICE 0 (log 3)
  hdmBase : Nat := 0                      -- HPA | R461 | DESIGN CHOICE 0 (log 3)
  hdmCommitted : Bool := false            -- R461 | no
  hdmError : Bool := false                -- commit-error bit | R461 | no
  filter : List Nat := []                 -- lines the host may cache, oldest first, up to 1,048,576 | R462 | empty
  dirty : SMap Nat := []                  -- lines with a snoop outstanding, 1 for data, 2 to invalidate | R462 | none
  answered : List Nat := []               -- lines left shared by the answer that a waiting command asked for | R462 | none
  ide : SMap Ide := []                    -- streams 0 io, 1 cachemem | R464 | insecure
  rings : SMap WorkRing := []             -- 64 | R467 | not created
  cqs : SMap CompRing := []               -- 64 | R467 | not created
  d2h : SMap D2hUse := []                 -- outstanding requests by id | R458 | none
  nextD2h : Nat := 1                      -- the model's own: next request id
  timeoutMs : Nat := 10                   -- 1 to 250 | R460 | 10
  msix : SMap Nat := []                   -- MSI-X table words (address, data, control; bit 0 of a control word inverted) | R457, R466 | PRESUMED PCI Express: masked, else 0 (log 3)
  msixPending : SMap Bool := []           -- 64 pending bits | R457 | PRESUMED PCI Express: 0 (log 3)
  esHoldoff : Bool := false               -- 10 µs hold-off of vector 0 running | R619 | no
  esPending : Bool := false               -- a message is due | R619 | no
  wakes : Nat := 0                        -- ring watcher wakes | R459 | 0
  stalled : List Instr := []              -- commands that wait for the answer to a snoop | R462 | none
deriving DecidableEq, Repr

/-- A mailbox with a BAR0 control block (R478 to R483). -/
structure Mailbox where
  ready : Bool := false                   -- MB_READY | R481 | 0
  intEn : Bool := false                   -- INT_EN | R479 | 0
  busy : Bool := false                    -- BUSY | R480 | 0
  done : Bool := false                    -- DONE | R480 | 0
  event : Bool := false                   -- EVENT | R480 | 0
  overrun : Bool := false                 -- OVERRUN | R480 | 0
  opcode : Nat := 0                       -- MH_OPCODE | R482 | DESIGN CHOICE 0 (log 3)
  tag : Nat := 0                          -- MH_TAG | R482 | DESIGN CHOICE 0 (log 3)
  status : Nat := 0                       -- MH_STATUS | R482 | DESIGN CHOICE 0 (log 3)
  flags : Nat := 0                        -- MH_FLAGS | R482 | DESIGN CHOICE 0 (log 3)
  payload : List Byte := []               -- response bytes, the rest of 4,096 zero | R483 | zero
  hdrShadow : SMap Nat := []              -- header and payload bytes as they stand in the mailbox | R478, R483 | DESIGN CHOICE 0 (log 3)
deriving DecidableEq, Repr

/-- A mailbox command in progress whose response waits for another event (R485, R492). -/
inductive LongCmd where
  | none
  | windowClose (q : Req) (window : Nat)
  | chanClose (q : Req) (key : Nat)
  | chanOpen (q : Req) (key : Nat)
  | ringDestroy (q : Req) (ring : Nat)
  | cqDestroy (q : Req) (ring : Nat)
  | slotRelease (q : Req) (tile first count : Nat)
  | tableLoad (q : Req) (slot : Nat)
  | peerAttest (q : Req) (peer : Nat)
  | collect (q : Req) (due : Nat)
deriving DecidableEq, Repr

/-- Background commands (R486). -/
structure Background where
  drain : Option (Via × EngineSel) := none
  bist : Option (Via × Nat × Nat × Nat) := none
  loopback : Option (Via × Bool × Nat) := none
deriving DecidableEq, Repr

/-- A firmware slot (R493, R494). -/
structure FwSlot where
  state : Nat := 0                        -- FI_STATE
  version : Nat := 0
  svn : Nat := 0
  size : Nat := 0
  measure : Nat := 0
deriving DecidableEq, Repr

/-- The one firmware transfer (R495): its owner (0 MB0, 1 MBM, 2 PLDM), slot, size, bytes received, last chunk. -/
structure Transfer where
  owner : Nat
  id : Nat
  slot : Nat
  size : Nat
  got : Nat
  lastOff : Nat
  lastLen : Nat
deriving DecidableEq, Repr

/-- Mailboxes, firmware and the management sideband. -/
structure Mgmt where
  mb0 : Mailbox := {}                     -- R477 | see its fields
  mb1 : Mailbox := {}                     -- R477 | see its fields
  mbmOut : List Byte := []                -- last MBM response | R499 | empty
  executing : LongCmd := .none            -- the executor's command in progress | R485 | none
  waiting : List Instr := []              -- commands that wait for the executor | R485 | empty
  resuming : Bool := false                -- the model's own: the command being run was waiting | R485
  bg : Background := {}                   -- R486 | none
  bgAborted : Nat := 0                    -- mask of background results that read ABORTED | R487 | 0
  slotA : FwSlot := { state := 5 }        -- R493 | ACTIVE (exactly one slot is; DESIGN CHOICE which, log 5)
  slotB : FwSlot := {}                    -- R493 | EMPTY (DESIGN CHOICE, log 5)
  minSvn : Nat := 0                       -- FI_MIN_SVN | R494 | DESIGN CHOICE 0 (log 5)
  fiBoot : Nat := 0                       -- FI_BOOT | R494 | 0 normal
  transfer : Option Transfer := none      -- R495 | none
  nextTransfer : Nat := 1                 -- FT_ID to give next | R494 | DESIGN CHOICE (log 5)
  fwVersion : Nat := 0                    -- IS_FW_VER | R612 | DESIGN CHOICE 0 (log 5)
  dynAddr : Nat := 0                      -- 7 bits, 0 unassigned | R498 | unassigned
  eid : Nat := 0                          -- endpoint id, 0 unassigned | R498 | unassigned
  eventReceiver : Option Nat := none      -- R500 | none set
  flash : Mem := []                       -- firmware slot bytes | R14, R493 | DESIGN CHOICE zero (log 5)
deriving DecidableEq, Repr

/-! ### Security -/

/-- A pending or claimed session (R564 to R567). -/
structure Session where
  id : Nat
  secret : Nat
  counter : Nat
  tenantKey : Nat
deriving DecidableEq, Repr

/-- VANILLA's state. -/
structure Security where
  meas : SMap Nat := []                   -- M0 to M7, 256 bits each | R561 | zero
  offer : Option (Nat × Nat) := none      -- part 0 held: public key, encapsulation key | R564 | none
  m4Boot : Nat := 0                       -- 256 bits | R560 (M4 as at boot) | zero
  pendingSession : Option Session := none -- R566 | none
  session : Option Session := none        -- the claimed session | R568 | none
  epoch : Nat := 0                        -- tenant epoch, 16 bits | R568 | 0
  policy : Nat := 0                       -- TC_POLICY | R568 | 0
  allow : List Nat := []                  -- TC_FW_ALLOW | R568 | none
  debugScope : Nat := 0                   -- R563, R578 | 0 locked
  debugCounter : Nat := 0                 -- flash | R578 | DESIGN CHOICE 0 (log 5)
  draws : Nat := 0                        -- draws taken from the random source | R564 | 0
  claimed : Bool := false                 -- a tenant holds the module | R568 | no
deriving DecidableEq, Repr

/-! ### Integrity, logs, registers -/

/-- A log entry (R535). -/
structure LogEntry where
  kind : Nat := 0
  cls : Nat := 0
  tile : Nat := 0
  unit : Nat := 0
  addr : Nat := 0
  time : Nat := 0
  pattern : Nat := 0
  refusal : Nat := 0
  count : Nat := 0
  step : Nat := 0
deriving DecidableEq, Repr

/-- A lasting-fault entry (R521). -/
structure Lasting where
  loc : Loc
  pattern : Nat
  time : Nat
  hits : Nat
deriving DecidableEq, Repr

/-- Where a bit error can stand outside the stores whose words carry their own error patterns (R512, R513). -/
inductive UpsetPlace where
  | channel (key : Nat)
  | route (index : Nat)
  | window (index : Nat)
  | fence (index : Nat)
  | barrier (index : Nat)
  | stepEntry (index : Nat)
  | pendingQueue
  | latch (tile : Nat)          -- 8 a hub block's
  | cacheTag (set way : Nat)    -- set: tile × 8192 + set
  | deviceCache (head : Bool) (ring : Nat)
  | sram
  | keyStore
deriving DecidableEq, Repr

/-- An error: stage 0 one that its code corrects (a cache tag also from its other copy), 1 one that it does not, 2 a latch
whose rewriting is awaited. -/
structure Upset where
  place : UpsetPlace
  stage : Nat
deriving DecidableEq, Repr

/-- A correctable error waiting for its self-test (R518, R519). -/
structure SelfTest where
  loc : Loc
  pattern : Nat
  promoted : Bool
deriving DecidableEq, Repr

/-- A block being reloaded or lost (R526, R528). -/
structure WeightBlock where
  region : Nat
  block : Nat
  lost : Bool
  attempts : Nat
  bad : List Nat
deriving DecidableEq, Repr

/-- A test result record (R533). -/
structure TestRec where
  status : Nat := 0
  tiles : Nat := 0
  elapsed : Nat := 0
  fails : Nat := 0
  first : LogEntry := {}
  lostPos : List Nat := []
  lostPlane : List Nat := []
deriving DecidableEq, Repr

/-- Health states (R522). -/
inductive Health where
  | healthy
  | serviceDue
  | failed
deriving DecidableEq, Repr

/-- Integrity: logs, health, weight regions and tests. -/
structure Integrity where
  log0 : SMap (List LogEntry) := []       -- tile to 32 entries | R534 | empty
  log0Over : SMap Nat := []               -- tile to overflow count | R520 | 0
  log1 : List LogEntry := []              -- 64 entries | R534 | DESIGN CHOICE empty (log 5)
  log3 : List LogEntry := []              -- 32 entries | R534 | empty
  lasting : List Lasting := []            -- 64 entries | R521 | DESIGN CHOICE empty, an unused module (log 5)
  health : Health := .healthy             -- R522 | HEALTHY with an empty table
  tests : List SelfTest := []             -- self-tests pending | R519 | none
  regions : SMap (Option WeightParams) := [] -- 16 regions | R525 | none
  reloading : List WeightBlock := []      -- blocks RELOADING or LOST in the order found | R526 | none
  records : SMap TestRec := []            -- results of tests 1 to 4 | R533 | never run
  upsets : List Upset := []               -- bit errors not yet found | R512, R513 | none
  trips : Nat := 0                        -- thermal trips | R592 | DESIGN CHOICE 0, an unused module (log 5)
deriving DecidableEq, Repr

/-- The error summary (R618 to R620). -/
structure ErrSum where
  bits : BitVec 64 := 0                   -- ES_BITS | R618 | 0
  refused : Nat := 0                      -- ES_N_REFUSED | R620 | 0
  discard : Nat := 0                      -- ES_N_DISCARD | R620 | 0
  auth : Nat := 0                         -- ES_N_AUTH | R620 | 0
  staleInc : Nat := 0                     -- ES_N_STALE_INC | R620 | 0
  staleArr : Nat := 0                     -- ES_N_STALE_ARR | R620 | 0
  lateFault : Nat := 0                    -- ES_N_LATE_FAULT | R620 | 0
  refusal : Nat := 0                      -- ES_N_REFUSAL | R620 | 0
  window : Nat := 0                       -- ES_N_WINDOW | R620 | 0
  ringError : Nat := 0                    -- ES_N_RING_ERROR | R620 | 0
  jobFault : Nat := 0                     -- ES_N_JOB_FAULT | R620 | 0
  ce : Nat := 0                           -- ES_N_CE | R620 | 0
  ue : Nat := 0                           -- ES_N_UE | R620 | 0
  bar2 : Nat := 0                         -- ES_N_BAR2 | R620 | 0
  lastFault : Nat := 0                    -- ES_LAST_FAULT | R620 | DESIGN CHOICE 0 (log 3)
  lastTask : Nat := 0                     -- ES_LAST_TASK | R620 | DESIGN CHOICE 0 (log 3)
deriving DecidableEq, Repr

/-- Event counters (R621 to R627): counter number is bank × 16 + nn. -/
structure Evc where
  counts : SMap (BitVec 48) := []         -- 144 × 48 bits | R621, R624 | 0 (R626)
  sels : SMap (BitVec 64) := []           -- 144 × 64 bits | R622 | 0
  ovf : SMap (BitVec 16) := []            -- 9 × 16 bits | R621 | 0 (R626)
  freeze : Bool := false                  -- R625 | 0
deriving DecidableEq, Repr

/-- Sensors, power manager and BAR2. -/
structure Sensors where
  dram : SMap (List Nat) := []            -- tile to its 64 sensors in °C, 4n to 4n + 3 on layer n | R369, R591 | DESIGN CHOICE 0 (log 3)
  junction : SMap (List Nat) := []        -- tile to its 8 junction sensors | R591 | DESIGN CHOICE 0 (log 3)
  hub : List Nat := []                    -- 8 sensors in °C | R591 | DESIGN CHOICE 0 (log 3)
  millivolts : Nat := 0                   -- last sample | R500, R584 | DESIGN CHOICE 0 (log 3)
  milliamps : Nat := 0                    -- last sample | R500, R584 | DESIGN CHOICE 0 (log 3)
  power : List Nat := []                  -- mW of the last 10,000 samples, newest first | R584 | none
  overs : List Bool := []                 -- was P1 above 2,200 W at each of the last 10,000 samples, newest first | R585 | none
  hubLimited : Bool := false              -- module limited to 1,600 W | R591 | no
  hubWarn : Bool := false                 -- hub warning in force | R591 | no
  tripped : Bool := false                 -- in STANDBY after a thermal trip | R592 | no
  dgTarget : Nat := 0                     -- DG_TARGET | R628 | DESIGN CHOICE 0 (log 3)
  dgTile : Nat := 0                       -- DG_TILE | R628 | DESIGN CHOICE 0 (log 3)
  dgBase : Nat := 0                       -- DG_BASE | R628 | DESIGN CHOICE 0 (log 3)
deriving DecidableEq, Repr

/-- A SUMAC engine's table slot: active and shadow images (R296). -/
structure TableSlot where
  active : List Byte := []
  shadow : List Byte := []
  loaded : Bool := false
  shadowReady : Bool := false
deriving DecidableEq, Repr

/-- Engine configurations shared by the tiles. -/
structure EngCfg where
  attn : SMap (Option (List Byte)) := []  -- 64 configurations | R217 | none loaded (R217)
  attnSource : SMap (Option (List Byte)) := [] -- the record last loaded into each configuration, as firmware keeps it | R217 | none
  tables : SMap TableSlot := []           -- (tile × 2 + engine) × 16 + slot | R292, R296 | nothing loaded
  tableSource : SMap (List Byte) := []    -- slot to the image last loaded | R297 | none
deriving DecidableEq, Repr

end Sys2Proof.Machine
end

