-- ==== Sys2Proof/Machine/State.lean ====
section
/-!
DEFINITION. The state of the module, its faults and refusals, and its reset.
-/
namespace Sys2Proof.Machine

/-- Why a step stops with a fault: never. The spec gives every command of the block an effect or says that it has none,
and its own faults (fault codes, error flags, states) are part of the state. -/
inductive Fault where
deriving DecidableEq, Repr

/-- Why a command has no meaning here. -/
inductive Refusal where
  /-- A command that has no meaning yet. Raised only by the dispatcher; safe. -/
  | notModelled (mnemonic : String)
  /-- A host write to the CXL component registers at BAR0 0xA000 (R457), whose layout is that of CXL 3.1 and not in
  the spec. Raised by REGISTER_WRITE; safe. -/
  | cxlComponentRegister
  /-- A BAR2 access to target 3 under debug scope bit 0 (R628): the layout of the internal state is not given.
  Raised by BAR2_ACCESS; safe. -/
  | internalStateAperture
deriving DecidableEq, Repr

/-- The module: every register, store, queue and mode of the spec, and the queue of waiting commands. -/
structure State where
  life : Life := {}
  cascade : Cascade := {}
  slots : SMap Slot := []                 -- tile to slot memory
  pkg : Pkg := {}
  tiles : SMap Tile := []
  fences : Fences := {}
  job : Option Job := none                -- R34, R109 | none
  stepSet : Option StepSet := none        -- R110 | none
  cond : Conductor := {}
  fennel : Fennel := {}
  fabric : Fabric := {}
  host : HostLink := {}
  mgmt : Mgmt := {}
  sec : Security := {}
  integ : Integrity := {}
  es : ErrSum := {}
  evc : Evc := {}
  sens : Sensors := {}
  cfg : EngCfg := {}
  out : List Out := []                    -- what has left the block, oldest first (the model's own)
  freeUsed : Nat := 0                     -- free values taken so far (the model's own)
  pending : List Instr := []              -- commands that wait, first in, first out
deriving DecidableEq, Repr

/-- The module before its input enters range: every field at the value the spec states for power-on, or at the value
the assumption log names. -/
def State.reset : State := {}

end Sys2Proof.Machine
end

