-- ==== Sys2Proof/Machine/Ops.lean ====
section
/-!
DEFINITION. The named operations over the state that every meaning shares: access to the parts, outputs, the error
summary and its interrupt, event counters, logs and free values.
-/
namespace Sys2Proof.Machine

/-! ### Codes -/

/-- Fault codes (R475). -/
def fBound : Nat := 1
def fPoison : Nat := 2
def fAborted : Nat := 3
def fUnsupported : Nat := 4
def fPeerReset : Nat := 5
def fWindowRefused : Nat := 6
def fFormat : Nat := 7
def fTimeoutHost : Nat := 8

/-- Engine class codes (R43). -/
def cCumin : Nat := 1
def cSaffron : Nat := 2
def cSumac : Nat := 3
def cAnise : Nat := 4
def cClove : Nat := 5
def cFennel : Nat := 6
def cMace : Nat := 7
def cControl : Nat := 8

/-- Instances of a class on one tile (R43); none for no-ops and control ops. -/
def classInstances : Nat → Nat
  | 1 => 12 | 2 => 2 | 3 => 2 | 4 => 1 | 5 => 4 | 6 => 1 | 7 => 64 | _ => 0

/-- Module states as `DH_STATE` codes (R542). -/
def modStateCode : ModState → Nat
  | .off => 0 | .standby => 1 | .booting => 2 | .unclaimed => 3 | .claimed => 4 | .recovering => 5
  | .notReady => 6 | .failed => 7

def healthCode : Health → Nat
  | .healthy => 0 | .serviceDue => 1 | .failed => 2

/-! ### Parts of the state -/

def getTile (s : State) (t : Nat) : Tile := mapGet {} s.tiles t
def modTile (s : State) (t : Nat) (f : Tile → Tile) : State := { s with tiles := mapMod {} s.tiles t f }
def getSlot (s : State) (t : Nat) : Slot := mapGet {} s.slots t
def modSlot (s : State) (t : Nat) (f : Slot → Slot) : State := { s with slots := mapMod {} s.slots t f }
def getPort (s : State) (p : Nat) : Port := mapGet {} s.fabric.ports p
def modPort (s : State) (p : Nat) (f : Port → Port) : State :=
  { s with fabric := { s.fabric with ports := mapMod {} s.fabric.ports p f } }
def chanKey (peer number : Nat) : Nat := peer * 4096 + number
def getChan (s : State) (k : Nat) : Chan := mapGet {} s.fabric.chans k
def modChan (s : State) (k : Nat) (f : Chan → Chan) : State :=
  { s with fabric := { s.fabric with chans := mapMod {} s.fabric.chans k f } }
def getWin (s : State) (w : Nat) : Window := mapGet {} s.fabric.windows w
def modWin (s : State) (w : Nat) (f : Window → Window) : State :=
  { s with fabric := { s.fabric with windows := mapMod {} s.fabric.windows w f } }
def getPeer (s : State) (p : Nat) : Peer := mapGet {} s.fabric.peers p
def modPeer (s : State) (p : Nat) (f : Peer → Peer) : State :=
  { s with fabric := { s.fabric with peers := mapMod {} s.fabric.peers p f } }
def getMc (s : State) (t c : Nat) : Channel := mapGet {} s.pkg.chans (t * 64 + c)
def modMc (s : State) (t c : Nat) (f : Channel → Channel) : State :=
  { s with pkg := { s.pkg with chans := mapMod {} s.pkg.chans (t * 64 + c) f } }
def getRing (s : State) (r : Nat) : WorkRing := mapGet {} s.host.rings r
def modRing (s : State) (r : Nat) (f : WorkRing → WorkRing) : State :=
  { s with host := { s.host with rings := mapMod {} s.host.rings r f } }
def getCq (s : State) (r : Nat) : CompRing := mapGet {} s.host.cqs r
def modCq (s : State) (r : Nat) (f : CompRing → CompRing) : State :=
  { s with host := { s.host with cqs := mapMod {} s.host.cqs r f } }
def getSeq (s : State) (q : Nat) : SeqEntry := mapGet {} s.cond.seqs q
def modSeq (s : State) (q : Nat) (f : SeqEntry → SeqEntry) : State :=
  { s with cond := { s.cond with seqs := mapMod {} s.cond.seqs q f } }
def getTask (s : State) (t k : Nat) : Task := mapGet {} (getTile s t).tasks k
def modTask (s : State) (t k : Nat) (f : Task → Task) : State :=
  modTile s t (fun x => { x with tasks := mapMod {} x.tasks k f })
def getEngine (s : State) (t cls inst : Nat) : Engine := mapGet {} (getTile s t).engines (cls * 64 + inst)
def modEngine (s : State) (t cls inst : Nat) (f : Engine → Engine) : State :=
  modTile s t (fun x => { x with engines := mapMod {} x.engines (cls * 64 + inst) f })
def getBarrier (s : State) (b : Nat) : Barrier := mapGet {} s.fences.barriers b
def modBarrier (s : State) (b : Nat) (f : Barrier → Barrier) : State :=
  { s with fences := { s.fences with barriers := mapMod {} s.fences.barriers b f } }

def tileList : List Nat := List.range 8
def portList : List Nat := List.range 10

/-- Fold a state change over a list of indices. -/
def forAll {α : Type} (xs : List α) (f : State → α → State) (s : State) : State := xs.foldl f s

/-! ### Outputs, free values -/

def emit (s : State) (o : Out) : State := { s with out := s.out ++ [o] }

/-- A PLDM event to the event receiver, if one is set (R500). -/
def pldmSend (sensor value : Nat) (s : State) : State :=
  if s.mgmt.eventReceiver.isSome then emit s (.pldmEvent sensor value) else s

/-- A fresh free value of `w` bits: nothing constrains it. -/
def takeFree (w : Nat) (s : State) : Nat × State :=
  (Config.freeValue s.freeUsed % 2 ^ w, { s with freeUsed := s.freeUsed + 1 })

/-! ### Event counters (R621 to R627) -/

/-- The catalogue: for an event code, its largest instance number if it has an instance filter, and the width of its
class filter (0 when it has none). -/
def evcInfo (code : Nat) : Option (Option Nat × Nat) :=
  if code = 0 || code = 0x80 then some (none, 0)
  else if 1 ≤ code && code ≤ 7 then some (some (classInstances code - 1), 4)
  else if code = 8 then some (none, 4)
  else if 9 ≤ code && code ≤ 0xF then some (some (classInstances (code - 8) - 1), 4)
  else if 0x10 ≤ code && code ≤ 0x16 then some (none, 4)
  else if code = 0x18 then some (some 7, 0)
  else if code = 0x19 then some (none, 0)
  else if 0x1A ≤ code && code ≤ 0x1D then some (none, 4)
  else if 0x20 ≤ code && code ≤ 0x22 then some (some 6, 0)
  else if code = 0x23 then some (some 7, 0)
  else if 0x24 ≤ code && code ≤ 0x27 then some (none, 0)
  else if 0x28 ≤ code && code ≤ 0x32 then some (some 63, 4)
  else if code = 0x33 then some (some 63, 0)
  else if 0x34 ≤ code && code ≤ 0x37 then some (some 63, 4)
  else if code = 0x38 then some (some 63, 0)
  else if code = 0x39 then some (some 63, 4)
  else if 0x3A ≤ code && code ≤ 0x3F then some (some 63, 0)
  else if 0x40 ≤ code && code ≤ 0x42 then some (some 3, 0)
  else if 0x48 ≤ code && code ≤ 0x4B then some (some 3, 4)
  else if 0x50 ≤ code && code ≤ 0x53 then some (none, 0)
  else if 0x58 ≤ code && code ≤ 0x5A then some (some 1, 4)
  else if 0x5C ≤ code && code ≤ 0x5E then some (none, 4)
  else if code = 0x60 || code = 0x61 then some (none, 0)
  else if code = 0x62 then some (some 7, 0)
  else if code = 0x81 then some (some 2, 0)
  else if 0x88 ≤ code && code ≤ 0x8A then some (some 9, 4)
  else if 0x8B ≤ code && code ≤ 0x8E then some (some 9, 0)
  else if code = 0x90 || code = 0x91 then some (some 9, 4)
  else if 0x92 ≤ code && code ≤ 0x98 then some (some 9, 0)
  else if code = 0x9A || code = 0x9B then some (none, 0)
  else if 0xA0 ≤ code && code ≤ 0xA6 then some (none, 0)
  else if code = 0xA8 || code = 0xA9 then some (none, 0)
  else if code = 0xAA || code = 0xAB then some (some 63, 0)
  else if code = 0xAC then some (none, 0)
  else if code = 0xB0 then some (none, 0)
  else if code = 0xB1 then some (some 63, 0)
  else if 0xB2 ≤ code && code ≤ 0xB4 then some (none, 0)
  else if code = 0xB5 || code = 0xB6 then some (some 63, 0)
  else if code = 0xB8 || code = 0xB9 then some (none, 0)
  else none

/-- Does selection `sel` count an event of this code, instance and class? -/
def evcMatches (sel : BitVec 64) (code inst cls : Nat) : Bool :=
  let v := sel.toNat
  bit v 63 && bits v 7 0 == code && (bits v 23 20 == 0 || bit (bits v 23 20) cls)
    && (!bit v 19 || bits v 13 8 == inst)

/-- Add `n` events to one counter, modulo 2^48, setting its overflow bit when it wraps (R624). -/
def evcAdd (e : Evc) (k n : Nat) : Evc :=
  let old := (mapGet 0 e.counts k).toNat
  let e1 := { e with counts := mapSet 0 e.counts k (BitVec.ofNat 48 (old + n)) }
  if old + n < 2 ^ 48 then e1
  else { e1 with ovf := mapMod 0 e1.ovf (k / 16) (fun x => x ||| BitVec.ofNat 16 (2 ^ (k % 16))) }

/-- Count `n` events in a bank (0 to 7 tiles, 8 hub). -/
def evCount (bank code inst cls n : Nat) (s : State) : State :=
  if s.evc.freeze || n == 0 then s
  else
    let hits := (List.range 16).filter
      (fun i => evcMatches (mapGet 0 s.evc.sels (bank * 16 + i)) code inst cls)
    { s with evc := hits.foldl (fun e i => evcAdd e (bank * 16 + i) n) s.evc }

def evHub (code inst n : Nat) (s : State) : State := evCount 8 code inst 0 n s

/-! ### The tile mesh and the hub links (R15 to R20, R355)

Tile CT`t` is in row t ÷ 4 and column t mod 4; the hub is node 8. -/

/-- The ten links of the mesh (R17). -/
def meshLinks : List (Nat × Nat) :=
  [(0, 1), (1, 2), (2, 3), (4, 5), (5, 6), (6, 7), (0, 4), (1, 5), (2, 6), (3, 7)]

/-- The next node on the way from tile `a` to tile `b` (R18): along the row to its column, then to the other row. -/
def meshNext (a b : Nat) : Nat := if a % 4 < b % 4 then a + 1 else if b % 4 < a % 4 then a - 1 else b

/-- The links that a transfer between two nodes crosses, each as the node it leaves and the node it enters; between the hub
and a tile, their own link (R20). The fuel is the most links of a path. -/
def meshHops (a b : Nat) : Nat → List (Nat × Nat)
  | 0 => []
  | n + 1 =>
    if a = b then []
    else if a = 8 || b = 8 then [(a, b)]
    else (a, meshNext a b) :: meshHops (meshNext a b) b n

def meshPath (a b : Nat) : List (Nat × Nat) := meshHops a b 4

/-- A tile's number for its link to a node (R627): 0 to the lower tile of the row, 1 to the higher, 2 to the other row, 3 to
the hub. -/
def linkNo (t b : Nat) : Nat := if b = 8 then 3 else if b + 1 = t then 0 else if t + 1 = b then 1 else 2

/-- Has a tile a link of this number? -/
def linkExists (t i : Nat) : Bool := (i == 0 && t % 4 != 0) || (i == 1 && t % 4 != 3) || i == 2 || i == 3

/-- Lines cross the links from node `a` to node `b`: each tile on the way counts what it sends and what it receives. A line is
a slot line or a codeword (R86, R355); requests take a lane of their own. -/
def moveLines (a b n : Nat) (s : State) : State :=
  forAll (meshPath a b) (fun x h =>
    let x1 := if h.1 = 8 then x else evCount h.1 0x40 (linkNo h.1 h.2) 0 n x
    if h.2 = 8 then x1 else evCount h.2 0x42 (linkNo h.2 h.1) 0 n x1) s

/-! ### MSI-X and the error summary (R466, R618, R619) -/

/-- A word of the MSI-X table, four to a vector (R457). The spec leaves the table's layout and reset to PCI Express
(PRESUMED): word 3 is the vector control, whose mask bit is 1 after reset. -/
def msixWord (s : State) (k : Nat) : Nat := (mapGet 0 s.host.msix k).xor (if k % 4 = 3 then 1 else 0)

def msixMasked (s : State) (v : Nat) : Bool := bit (msixWord s (4 * v + 3)) 0

/-- Send a message, or hold it pending while its vector is masked. -/
def sendMsix (v : Nat) (s : State) : State :=
  if msixMasked s v then { s with host := { s.host with msixPending := mapSet false s.host.msixPending v true } }
  else evHub 0xB5 v 1 (emit s (.msix v))

/-- MSI-X vector 0, at most once per 10 µs (R619). -/
def vector0 (s : State) : State :=
  if s.host.esHoldoff then { s with host := { s.host with esPending := true } }
  else sendMsix 0 { s with host := { s.host with esHoldoff := true } }

/-- Set bit `i` of `ES_BITS`; a bit that passes from 0 to 1 sends vector 0. -/
def esRaise (i : Nat) (s : State) : State :=
  if bit s.es.bits.toNat i then s
  else vector0 { s with es := { s.es with bits := s.es.bits ||| BitVec.ofNat 64 (2 ^ i) } }

def esTaskRefused (s : State) : State :=
  esRaise 0 { s with es := { s.es with refused := satAdd 32 s.es.refused 1 } }
def esRingError (s : State) : State :=
  esRaise 1 { s with es := { s.es with ringError := satAdd 32 s.es.ringError 1 } }
def esJobFault (s : State) : State :=
  esRaise 2 { s with es := { s.es with jobFault := satAdd 32 s.es.jobFault 1 } }
def esStaleInc (s : State) : State :=
  evHub 0xAC 0 1 (esRaise 4 { s with es := { s.es with staleInc := satAdd 32 s.es.staleInc 1 } })
def esStaleArr (s : State) : State :=
  evHub 0xAC 0 1 (esRaise 4 { s with es := { s.es with staleArr := satAdd 32 s.es.staleArr 1 } })
def esLateFault (s : State) : State :=
  esRaise 5 { s with es := { s.es with lateFault := satAdd 32 s.es.lateFault 1 } }
def esRefusal (s : State) : State :=
  esRaise 8 { s with es := { s.es with refusal := satAdd 32 s.es.refusal 1 } }
def esWindow (s : State) : State :=
  esRaise 9 { s with es := { s.es with window := satAdd 32 s.es.window 1 } }
def esDiscard (s : State) : State :=
  esRaise 10 { s with es := { s.es with discard := satAdd 32 s.es.discard 1 } }
def esAuth (s : State) : State :=
  esRaise 11 { s with es := { s.es with auth := satAdd 32 s.es.auth 1 } }

/-- The last task or step fault (R620). -/
def esFault (code task : Nat) (s : State) : State :=
  { s with es := { s.es with lastFault := code, lastTask := task } }

/-! ### Logs (R534 to R536) -/

/-- The bound header whose run has not ended: not yet committed or aborted (R130, R133). -/
def liveRun (s : State) : Option StepHeader :=
  match s.cond.bound with
  | some h => if s.cond.committed ≤ h.step then some h else none
  | none => none

/-- Low 32 bits of the step being run, or all ones (R535). -/
def stepLow (s : State) : Nat :=
  match liveRun s with
  | some h => h.step % 2 ^ 32
  | none => 2 ^ 32 - 1

/-- Append to a log of `n` entries; the oldest gives way. -/
def logPush {α : Type} (n : Nat) (l : List α) (e : α) : List α :=
  if l.length < n then l ++ [e] else l.tail ++ [e]

def logOver (s : State) (key : Nat) (full : Bool) : State :=
  if full then { s with integ := { s.integ with log0Over := mapMod 0 s.integ.log0Over key (fun x => x + 1) } } else s

/-- Entry of the uncorrectable-error and event log (log 1). -/
def log1Add (kind cls tile unit addr pattern : Nat) (s : State) : State :=
  let e : LogEntry := { kind := kind, cls := cls, tile := tile, unit := unit, addr := addr, time := s.life.aonNs,
                        pattern := pattern, step := stepLow s }
  let s1 := logOver s 101 (64 ≤ s.integ.log1.length)
  vector0 (esRaise 16 { s1 with integ := { s1.integ with log1 := logPush 64 s1.integ.log1 e } })

/-- Entry of the internal-error log (log 3). -/
def log3Add (kind tile unit : Nat) (s : State) : State :=
  let e : LogEntry := { kind := kind, cls := 5, tile := tile, unit := unit, addr := 0, time := s.life.aonNs,
                        step := stepLow s }
  let s1 := logOver s 103 (32 ≤ s.integ.log3.length)
  vector0 (esRaise 18 { s1 with integ := { s1.integ with log3 := logPush 32 s1.integ.log3 e } })

/-- The location's tile, unit and address in a log entry (R535). -/
def locTile : Loc → Nat
  | .pkg t _ _ => t
  | .slot t _ _ => t
def locUnit : Loc → Nat
  | .pkg _ c _ => c
  | .slot _ l _ => (l % 256).xor (l / 256 % 256) |>.xor (l / 65536 % 32)
def locAddr : Loc → Nat
  | .pkg _ _ w => w
  | .slot _ l _ => l
def locKind : Loc → Nat
  | .pkg _ _ _ => 1
  | .slot _ _ _ => 2

/-- Is every set bit of `p` set in `q`? -/
def subMask (p q : Nat) : Bool := p &&& q == p

/-- A location's error pattern as a log entry shows it (R535): of a slot half line, the index of its failing bit (the
lowest of several: DESIGN CHOICE) and the half. -/
def logPattern (loc : Loc) (pattern : Nat) : Nat :=
  match loc with
  | .pkg _ _ _ => pattern
  | .slot _ _ half => ((List.range 266).find? (bit pattern)).getD 0 + 512 * half

/-- Entry of the window-refusal log (log 4). -/
def log4Add (window src chan offset reason : Nat) (s : State) : State :=
  let s1 := logOver s 104 (32 ≤ s.fabric.refusals.length)
  { s1 with fabric := { s1.fabric with
    refusals := logPush 32 s1.fabric.refusals ⟨window, src, chan, offset, reason, s.life.aonNs, stepLow s⟩ } }

/-- An uncorrectable error: counted and logged (R512, R620). -/
def ueLog (loc : Loc) (pattern : Nat) (s : State) : State :=
  let s1 := { s with es := { s.es with ue := satAdd 32 s.es.ue 1 } }
  let s2 := evCount (locTile loc) (if locKind loc == 1 then 0x3B else 0x25) (locUnit loc) 0 1 s1
  log1Add (locKind loc) 4 (locTile loc) (locUnit loc) (locAddr loc) (logPattern loc pattern) s2

/-- A correctable error (R518 steps 2 and 3, R520): counted; entered in the tile's log with its self-test pending,
unless the location already has a lasting entry that covers the pattern, or the log is full of pending entries. -/
def ceLog (loc : Loc) (pattern : Nat) (s : State) : State :=
  let s1 := { s with es := { s.es with ce := satAdd 32 s.es.ce 1 } }
  let s2 := evCount (locTile loc) (if locKind loc == 1 then 0x3A else 0x24) (locUnit loc) 0 1 s1
  if s2.integ.lasting.any (fun l => l.loc == loc && subMask pattern l.pattern) then
    { s2 with integ := { s2.integ with lasting := s2.integ.lasting.map (fun l =>
        if l.loc == loc && subMask pattern l.pattern then { l with hits := l.hits + 1 } else l) } }
  else
    let t := locTile loc
    let log := mapGet [] s2.integ.log0 t
    if 32 ≤ log.length && log.all (fun e => e.cls == 0) then
      { s2 with integ := { s2.integ with log0Over := mapMod 0 s2.integ.log0Over t (fun x => x + 1) } }
    else
      let e : LogEntry := { kind := locKind loc, cls := 0, tile := t, unit := locUnit loc, addr := locAddr loc,
                            time := s2.life.aonNs, pattern := logPattern loc pattern, step := stepLow s2 }
      let kept := if log.length < 32 then log
        else match log.findIdx? (fun e => e.cls != 0) with
          | some i => log.eraseIdx i
          | none => log
      { s2 with integ := { s2.integ with
          log0 := mapSet [] s2.integ.log0 t (kept ++ [e])
          tests := s2.integ.tests ++ [⟨loc, pattern, false⟩] } }

/-- A correctable error of a store without a self-test, corrected in place, counted and logged (R512, R520): its entry is of
class 1 (DESIGN CHOICE, log entry 113). -/
def ceMark (kind tile unit addr : Nat) (s : State) : State :=
  let s1 := { s with es := { s.es with ce := satAdd 32 s.es.ce 1 } }
  let log := mapGet [] s1.integ.log0 tile
  let e : LogEntry := { kind := kind, cls := 1, tile := tile, unit := unit, addr := addr, time := s1.life.aonNs,
                        step := stepLow s1 }
  if log.length < 32 then { s1 with integ := { s1.integ with log0 := mapSet [] s1.integ.log0 tile (log ++ [e]) } }
  else match log.findIdx? (fun x => x.cls != 0) with
    | some i => { s1 with integ := { s1.integ with log0 := mapSet [] s1.integ.log0 tile (log.eraseIdx i ++ [e]) } }
    | none => { s1 with integ := { s1.integ with log0Over := mapMod 0 s1.integ.log0Over tile (fun x => x + 1) } }

/-! ### Device-to-host requests (R458) -/

/-- Kinds of D2H request. -/
def d2hRdShared : Nat := 0
def d2hRdCurr : Nat := 1
def d2hItoMWr : Nat := 2
def d2hCleanEvict : Nat := 3

/-- Send a D2H request and note what it is for. -/
def d2hSend (kind addr : Nat) (data : List Byte) (use : D2hUse) (s : State) : State :=
  let id := s.host.nextD2h
  let s1 := emit s (.d2h id kind addr data)
  let s2 := if kind == d2hRdShared || kind == d2hRdCurr then evHub 0xB0 0 1 s1 else s1
  { s2 with host := { s2.host with
      nextD2h := id + 1
      d2h := s2.host.d2h ++ [(id, use)] } }

/-- Are the records that a core reset left all written? No ring accepts work before (R158, R159). -/
def recordsWritten (s : State) : Bool := s.host.cqs.all (fun c => c.2.state != .active || c.2.owed == 0)

/-- Does the module read its work rings now? It reads none in RECOVERING (R544), and reads them to refuse their work in NOT READY
(R392) and in FAILED (R523); after a link loss it waits for both IDE streams (R546), after a core reset for the records. -/
def ringsRead (s : State) : Bool :=
  !s.life.linkLost && recordsWritten s
    && (s.life.state == .claimed || ((s.life.state == .failed || s.life.state == .notReady) && s.sec.claimed))

/-- Ask for the descriptors up to the last tail read, in order (R27, R469). -/
def askDescs (s : State) (ring : Nat) : State :=
  let r := getRing s ring
  if r.state == .active && ringsRead s && decide (r.asked < r.tail) then
    ((List.range (r.tail - r.asked)).map (· + r.asked)).foldl (fun a n =>
      d2hSend d2hRdCurr (r.base + 64 * (n % r.entries)) [] (.descriptor ring n) a)
      (modRing s ring (fun x => { x with asked := r.tail }))
  else s

def askAll (s : State) : State := s.host.rings.foldl (fun a kv => askDescs a kv.1) s

/-! ### Module state -/

/-- Are all ten ports UP? -/
def allPortsUp (s : State) : Bool := portList.all (fun p => (getPort s p).state == .up)

def setModState (m : ModState) (s : State) : State :=
  if s.life.state = m then s
  else pldmSend 0x000D (modStateCode m) { s with life := { s.life with state := m } }

/-- The state that a module outside start-up and recovery would hold (R392, R454, R510): FAILED by its health. -/
def readyState (s : State) : ModState :=
  if s.integ.health = .failed then .failed
  else if s.host.narrow then .notReady
  else if allPortsUp s then (if s.sec.claimed then .claimed else .unclaimed) else .notReady

/-- Has a port's first training of a start-up come to its end (R508 step 11)? A DOWN port has unless it was never up or is
DOWN since the reset (causes 0 and 13 of R396). -/
def portEnded (x : Port) : Bool :=
  match x.state with
  | .up => true
  | .quarantine => true
  | .training => false
  | .down => x.disabled || !(x.cause == 0 || x.cause == 13)

/-- Enter NOT READY or leave it as the ports and the host link say (R392, R454); start-up ends once every port's training
has ended (R508). Rings are read again when service returns. -/
def settleReady (s : State) : State :=
  match s.life.state with
  | .unclaimed => setModState (readyState s) s
  | .claimed => setModState (readyState s) s
  | .notReady => askAll (setModState (readyState s) s)
  | .booting =>
    if s.life.boot = .portsTraining && portList.all (fun p => portEnded (getPort s p)) then
      setModState (readyState s) { s with life := { s.life with boot := .done } }
    else s
  | _ => s

/-- Health after a change (R522): it never returns to an earlier state. -/
def worsen (h : Health) (s : State) : State :=
  if healthCode s.integ.health < healthCode h then
    esRaise 19 (pldmSend 0x000E (healthCode h) { s with integ := { s.integ with health := h } })
  else s

end Sys2Proof.Machine
end

