-- ==== Sys2Proof/Machine/Memory.lean ====
section
/-!
DEFINITION. Package memory behind its caches and slot memory with its tags: placement, the cache directory, codes,
poison, and the reads and writes that every engine shares (spec/13_package_memory.md, spec/03_slot_memory.md,
spec/20_integrity.md).
-/
namespace Sys2Proof.Machine

/-! ### Placement (R350 to R354) -/

/-- The default entry of region `i` (R351). -/
def regionDefault (i : Nat) : RegionEntry := ⟨false, i / 64, i % 64 * 8, false⟩

/-- The table's empty cell: an entry with a reserved bit set is never stored (R352). -/
def regionNone : RegionEntry := ⟨false, 0, 0, true⟩

def regionOf (s : State) (i : Nat) : RegionEntry :=
  let e := mapGet regionNone s.pkg.regions i
  if e.rsv then regionDefault i else e

/-- Number of a codeword from its tile, channel and channel address. -/
def cwMake (tile chan addr : Nat) : Nat := tile * 2 ^ 30 + chan * 2 ^ 24 + addr / 64
def cwTile (c : Nat) : Nat := c / 2 ^ 30
def cwChan (c : Nat) : Nat := c / 2 ^ 24 % 64
def cwAddr (c : Nat) : Nat := c % 2 ^ 24 * 64
def cwLoc (c : Nat) : Loc := .pkg (cwTile c) (cwChan c) (c % 2 ^ 24)

/-- Where a channel address lies in its channel's DRAM (R348, R349): one of 32 banks, of 16,384 rows of 2 KiB. -/
structure DramCell where
  bank : Nat
  row : Nat
  column : Nat
deriving DecidableEq, Repr

def dramCell (a : Nat) : DramCell := ⟨(bits a 15 11).xor (bits a 20 16), bits a 29 16, bits a 10 0⟩

/-- The layer, of 16, that holds a channel: Ln holds MC(4n) to MC(4n + 3) (R348). -/
def layerOf (chan : Nat) : Nat := chan / 4

/-- The codeword that holds a device physical address (R353, R354). -/
def cwOf (s : State) (dpa : Nat) : Nat :=
  let r := regionOf s (dpa / 2 ^ 30 % 512)
  if r.wide then
    let c := (bits dpa 16 8).xor (bits dpa 25 17) |>.xor (bits dpa 34 26) |>.xor (bits dpa 38 35)
    cwMake (c / 64) (c % 64) ((r.slice * 8192 + bits dpa 29 17) * 256 + dpa % 256)
  else
    let c := (bits dpa 13 8).xor (bits dpa 19 14) |>.xor (bits dpa 25 20) |>.xor (bits dpa 31 26)
      |>.xor (bits dpa 37 32)
    cwMake r.tile c ((r.slice * 8192 + bits dpa 29 14) * 256 + dpa % 256)

/-- The device physical address of a codeword, if some region holds its slice: the inverse of R353 and R354. -/
def dpaOf (s : State) (c : Nat) : Option Nat :=
  let slice := cwAddr c / 2 ^ 21
  let owns := fun i =>
    let r := regionOf s i
    if r.wide then r.slice == slice else r.tile == cwTile c && r.slice == slice / 8 * 8
  match (List.range 512).find? owns with
  | none => none
  | some i =>
    let r := regionOf s i
    let g := cwAddr c / 256 - r.slice * 8192
    if r.wide then
      let hi := i * 2 ^ 30 + g * 2 ^ 17
      let x := (cwTile c * 64 + cwChan c).xor (bits hi 25 17) |>.xor (bits hi 34 26) |>.xor (bits hi 38 35)
      some (hi + x * 256 + cwAddr c % 256)
    else
      let hi := i * 2 ^ 30 + g * 2 ^ 14
      let x := (cwChan c).xor (bits hi 19 14) |>.xor (bits hi 25 20) |>.xor (bits hi 31 26)
        |>.xor (bits hi 37 32)
      some (hi + x * 256 + cwAddr c % 256)

/-! ### Immutable weight blocks (R525 to R528) -/

/-- The immutable region and block that hold a device physical address. -/
def weightBlockAt (s : State) (dpa : Nat) : Option (Nat × Nat) :=
  match s.integ.regions.find? (fun r => match r.2 with
      | some w => decide (w.base ≤ dpa) && decide (dpa < w.base + w.length)
      | none => false) with
  | some (i, some w) => some (i, (dpa - w.base) / 65536)
  | _ => none

/-- Is the address in a block that is being reloaded? -/
def reloadingAt (s : State) (dpa : Nat) : Bool :=
  match weightBlockAt s dpa with
  | none => false
  | some (i, b) => s.integ.reloading.any (fun w => w.region == i && w.block == b && !w.lost)

/-- An uncorrectable error at a codeword of an immutable region makes its block RELOADING (R526). -/
def noteBad (dpa : Nat) (s : State) : State :=
  match weightBlockAt s dpa with
  | none => s
  | some (i, b) =>
    let cw := dpa / 64
    let l := s.integ.reloading
    let l' := if l.any (fun w => w.region == i && w.block == b)
      then l.map (fun w => if w.region == i && w.block == b then { w with bad := w.bad ++ [cw] } else w)
      else l ++ [⟨i, b, false, 0, [cw]⟩]
    { s with integ := { s.integ with reloading := l' } }

/-! ### DRAM codewords (R366 to R368, R529) -/

def popCount (w m : Nat) : Nat := (maskBits w m).length

/-- The byte pattern (72 bits) of a flip mask of 576 bits. -/
def bytePattern (m : Nat) : Nat :=
  ((List.range 72).filter (fun i => m / 2 ^ (8 * i) % 256 != 0)).foldl (fun a i => a + 2 ^ i) 0

def pkgPoison (c : Nat) (b : Bool) (s : State) : State :=
  { s with pkg := { s.pkg with poison := mapSet false s.pkg.poison c b } }
def pkgError (c e : Nat) (s : State) : State :=
  { s with pkg := { s.pkg with errors := mapSet 0 s.pkg.errors c e } }
def pkgBytes (a : Nat) (bs : List Byte) (s : State) : State :=
  { s with pkg := { s.pkg with bytes := memWrite s.pkg.bytes a bs } }

/-- One codeword write on its channel: the flip mask is used if one is loaded (R529). -/
def dramWrite (cls c : Nat) (s : State) : State :=
  let t := cwTile c
  let f := (getMc s t (cwChan c)).flip
  let s1 := pkgError c (bytePattern (f - 1)) s
  evCount t 0x31 (cwChan c) cls 1 (modMc s1 t (cwChan c) (fun x => { x with flip := 0 }))

/-- What reading a codeword from DRAM finds: true when it is uncorrectable (R366, R368, R512). An error of more than
five bytes is either corrected wrongly or detected: a free value decides, and the wrong data is free. -/
def dramRead (cls c dpa : Nat) (s0 : State) : Bool × State :=
  let s := evCount (cwTile c) 0x30 (cwChan c) cls 1 s0
  if mapGet false s.pkg.poison c then (true, s)
  else
    let e := mapGet 0 s.pkg.errors c
    let n := popCount 72 e
    if n = 0 then (false, s)
    else if n ≤ 3 then (false, dramWrite cls c (ceLog (cwLoc c) e s))
    else
      let (f, s1) := takeFree 1 s
      if n ≤ 5 || f == 1 then
        (true, noteBad dpa (dramWrite cls c (pkgPoison c true (ueLog (cwLoc c) e s1))))
      else
        let (d, s2) := takeFree 512 s1
        (false, dramWrite cls c (ceLog (cwLoc c) e (pkgBytes (c * 64) (le 64 d) s2)))

/-! ### Memory-side cache directory (R357 to R360) -/

def cacheKey (c : Nat) : Nat := cwTile c * 8192 + cwChan c * 128 + cwAddr c / 128 % 128
def cacheTag (c : Nat) : Nat := cwAddr c / 2 ^ 14
def cacheSet (s : State) (c : Nat) : List CacheLine := mapGet [] s.pkg.cache (cacheKey c)
def putCache (c : Nat) (l : List CacheLine) (s : State) : State :=
  { s with pkg := { s.pkg with cache := mapSet [] s.pkg.cache (cacheKey c) l } }
def cached (s : State) (c : Nat) : Bool := (cacheSet s c).any (fun x => x.tag == cacheTag c)

/-- The first codeword of a cache line from a set's key and a tag. -/
def lineCw (key tag : Nat) : Nat :=
  cwMake (key / 8192) (key / 128 % 64) (tag * 2 ^ 14 + key % 128 * 128)

/-- DRAM's copy of a codeword is what a reader finds once the cache has no line over it. -/
def bare (c : Nat) (s : State) : State :=
  match s.pkg.under.find? (fun kv => kv.1 == c) with
  | none => s
  | some (_, p, bs) =>
    let s1 := pkgPoison c p (pkgBytes (c * 64) bs s)
    { s1 with pkg := { s1.pkg with under := s1.pkg.under.filter (fun kv => kv.1 != c) } }

/-- The write-back of a codeword replaces DRAM's copy. -/
def cover (c : Nat) (s : State) : State :=
  dramWrite 1 c { s with pkg := { s.pkg with under := s.pkg.under.filter (fun kv => kv.1 != c) } }

/-- Entry of the uncorrectable-error log for a cache line, and its count (R512, R620). -/
def cacheUe (c : Nat) (s : State) : State :=
  log1Add 4 4 (cwTile c) (cwChan c) (c % 2 ^ 24) 0 { s with es := { s.es with ue := satAdd 32 s.es.ue 1 } }

/-- A line leaves the cache: a dirty one is written back, both codewords to the channel, poisoned where the line has an
uncorrectable error (R372); under a clean one DRAM's copy is bare. -/
def writeBack (key : Nat) (l : CacheLine) (s : State) : State :=
  let c := lineCw key l.tag
  if l.dirty then
    let s1 := if l.err < 2 then s else pkgPoison (c + 1) true (pkgPoison c true (cacheUe c s))
    cover (c + 1) (cover c s1)
  else bare (c + 1) (bare c s)

/-- A scrubber's read of a codeword under a cached line finds DRAM's own copy; a line above it keeps its data, and a dirty
one will replace that copy whatever it holds (R357, R515). -/
def scrubUnder (c : Nat) (dirty : Bool) (read : State → Bool × State) (s : State) : State :=
  let line := (mapGet false s.pkg.poison c, memRead s.pkg.bytes (c * 64) 64)
  let s1 := (read (bare c s)).2
  let dram := (mapGet false s1.pkg.poison c, memRead s1.pkg.bytes (c * 64) 64)
  let s2 := pkgPoison c line.1 (pkgBytes (c * 64) line.2 s1)
  if dirty || dram == line then s2
  else { s2 with pkg := { s2.pkg with under := (c, dram) :: s2.pkg.under } }

/-- Clear K on the least recently used line that has it. -/
def clearKeep : List CacheLine → List CacheLine
  | [] => []
  | l :: ls => if ls.any (·.keep) then l :: clearKeep ls else if l.keep then { l with keep := false } :: ls else l :: ls

/-- Room for a 13th K line (R359). -/
def capKeep (ls : List CacheLine) : List CacheLine :=
  if 12 ≤ (ls.filter (·.keep)).length then clearKeep ls else ls

/-- Index of the line that an allocation replaces: the least recently used with K = 0, else the least recently used. -/
def victimAt (ls : List CacheLine) : Nat :=
  match ((List.range ls.length).reverse).find? (fun i => match ls[i]? with | some l => !l.keep | none => false) with
  | some i => i
  | none => ls.length - 1

/-- Allocate a line in its set as the most recently used. -/
def cacheAlloc (c : Nat) (keep dirty : Bool) (s : State) : State :=
  let ls := cacheSet s c
  let (ls1, s1) := if ls.length < 16 then (ls, s)
    else match ls[victimAt ls]? with
      | some v => (ls.eraseIdx (victimAt ls), writeBack (cacheKey c) v s)
      | none => (ls, s)
  let ls2 := if keep then capKeep ls1 else ls1
  putCache c (⟨cacheTag c, keep, dirty, 0⟩ :: ls2) s1

/-- A hit: recency, K and dirt as the hint says (R358). -/
def cacheHit (c hint : Nat) (write : Bool) (s : State) : State :=
  let ls := cacheSet s c
  match ls.find? (fun x => x.tag == cacheTag c) with
  | none => s
  | some l =>
    let rest := ls.filter (fun x => x.tag != cacheTag c)
    let l1 : CacheLine := { l with dirty := l.dirty || write }
    if hint == 1 || (hint == 3 && write) then
      putCache c (ls.map (fun x => if x.tag == cacheTag c then l1 else x)) s
    else if hint == 2 then
      putCache c ({ l1 with keep := true } :: (if l.keep then rest else capKeep rest)) s
    else if hint == 3 then putCache c rest (writeBack (cacheKey c) l1 s)
    else putCache c (l1 :: rest) s

/-- A line with a bit error is found by the next access to it (R512): a correctable one is corrected in place, counted and
logged; an uncorrectable one drops a clean line, which is read again from DRAM, and stores a dirty one poisoned. -/
def checkLine (c : Nat) (s : State) : State :=
  let ls := cacheSet s c
  match ls.find? (fun x => x.tag == cacheTag c) with
  | none => s
  | some l =>
    if l.err = 0 then s
    else if l.err = 1 then
      ceMark 4 (cwTile c) (cwChan c) (c % 2 ^ 24)
        (putCache c (ls.map (fun x => if x.tag == cacheTag c then { x with err := 0 } else x)) s)
    else
      let s1 := if l.dirty then s else cacheUe c s
      putCache c (ls.filter (fun x => x.tag != cacheTag c)) (writeBack (cacheKey c) l s1)

/-- The cache's part of one access to a line; `whole` says that a write covers all of it. -/
def cacheAccess (cls c hint : Nat) (write whole : Bool) (s0 : State) : State :=
  let t := cwTile c
  let s := checkLine c s0
  if cached s c then cacheHit c hint write (evCount t (0x28 + hint % 4) (cwChan c) cls 1 s)
  else
    let s1 := evCount t (0x2C + hint % 4) (cwChan c) cls 1 s
    if hint == 1 || hint == 3 || (write && !whole) then s1
    else cacheAlloc c (hint == 2) write s1

/-- A MACE accumulate's line leaves the cache first (R360). -/
def cacheEvict (c : Nat) (s0 : State) : State :=
  let s := checkLine c s0
  let ls := cacheSet s c
  match ls.find? (fun x => x.tag == cacheTag c) with
  | none => s
  | some l =>
    evCount (cwTile c) 0x3F (cwChan c) 0 1
      (putCache c (ls.filter (fun x => x.tag != cacheTag c)) (writeBack (cacheKey c) l s))

/-- Write back every dirty line and invalidate the caches (R371). -/
def cacheFlush (s : State) : State :=
  let s1 := s.pkg.cache.foldl (fun a kv => kv.2.foldl (fun b l => writeBack kv.1 l b) a) s
  { s1 with pkg := { s1.pkg with cache := [] } }

/-! ### Reads and writes by device physical address -/

/-- Note that the running command touches a line (R462). -/
def noteTouch (dpa : Nat) (write : Bool) (s : State) : State :=
  { s with pkg := { s.pkg with touch := s.pkg.touch ++ [(dpa / 64, write)] } }

/-- Read one codeword: its 64 bytes and whether they are poison. A miss reads DRAM: the codeword, and with it the other
codeword of the line where the hint allocates. A reader gets poison from a RELOADING block (R526). -/
def readCw (cls hint dpa : Nat) (s : State) : (List Byte × Bool) × State :=
  let base := dpa / 64 * 64
  let c := cwOf s base
  let s0 := checkLine c s
  let hit := cached s0 c
  let s1 := cacheAccess cls c hint false false (noteTouch base false s0)
  let (p, s2) := if hit then (mapGet false s1.pkg.poison c, s1) else dramRead cls c base s1
  let s3 := if !hit && (hint == 0 || hint == 2)
    then (dramRead cls (c.xor 1) (base.xor 64) s2).2 else s2
  ((memRead s3.pkg.bytes (c * 64) 64, p || reloadingAt s3 base), s3)

/-- Read the codewords from number `w` of the address space up. -/
def readCws (cls hint w : Nat) : Nat → State → (List (List Byte × Bool)) × State
  | 0, s => ([], s)
  | n + 1, s =>
    let (r, s1) := readCw cls hint (w * 64) s
    let (rs, s2) := readCws cls hint (w + 1) n s1
    (r :: rs, s2)

/-- Number of codewords that `n` bytes from `dpa` touch. -/
def cwSpan (dpa n : Nat) : Nat := if n = 0 then 0 else (dpa + n - 1) / 64 - dpa / 64 + 1

/-- Read `n` bytes, and whether any codeword read was poison. -/
def pkgRead (cls hint dpa n : Nat) (s : State) : (List Byte × Bool) × State :=
  let (rs, s1) := readCws cls hint (dpa / 64) (cwSpan dpa n) s
  (((rs.flatMap (·.1)).drop (dpa % 64) |>.take n, rs.any (·.2)), s1)

/-- Write bytes inside one codeword; `inLine` says that the cache holds the line, `bad` that the data is poison. -/
def writeCw (cls dpa : Nat) (bs : List Byte) (bad inLine : Bool) (s : State) : State :=
  let c := cwOf s dpa
  let full := bs.length == 64
  let put := fun x => pkgBytes (c * 64 + dpa % 64) bs x
  if inLine then
    let s1 := put s
    if full then pkgPoison c bad s1 else if bad then pkgPoison c true s1 else s1
  else if full then dramWrite cls c (pkgPoison c bad (put s))
  else
    let was := mapGet false s.pkg.poison c
    let (p, s1) := dramRead cls c (dpa / 64 * 64) (evCount (cwTile c) 0x32 (cwChan c) cls 1 s)
    let s2 := if was then ueLog (cwLoc c) 0 s1 else s1
    dramWrite cls c (pkgPoison c (p || bad) (put s2))

/-- Write bytes inside one 128-byte line. -/
def writeLine (cls hint dpa : Nat) (bs : List Byte) (bad : Bool) (s : State) : State :=
  let c := cwOf s dpa
  let room := 64 - dpa % 64
  let n1 := noteTouch dpa true s
  let s1 := cacheAccess cls c hint true (bs.length == 128) (if bs.length ≤ room then n1 else noteTouch (dpa + room) true n1)
  let inLine := cached s1 c
  let s2 := writeCw cls dpa (bs.take room) bad inLine s1
  if bs.length ≤ room then s2 else writeCw cls (dpa + room) (bs.drop room) bad inLine s2

/-- Write a run of bytes line by line; the fuel is the number of lines that remain. -/
def writeLines (cls hint dpa : Nat) (bs : List Byte) (bad : Bool) : Nat → State → State
  | 0, s => s
  | n + 1, s =>
    let room := 128 - dpa % 128
    let s1 := if bs.isEmpty then s else writeLine cls hint dpa (bs.take room) bad s
    writeLines cls hint (dpa + room) (bs.drop room) bad n s1

/-- Write bytes to package memory (R358, R367, R368); `bad` writes them poisoned. -/
def pkgWrite (cls hint dpa : Nat) (bs : List Byte) (bad : Bool) (s : State) : State :=
  writeLines cls hint dpa bs bad (bs.length / 128 + 2) s

/-- Store a codeword poisoned whatever it held (R368, R528). -/
def poisonCw (dpa : Nat) (s : State) : State :=
  let c := cwOf s dpa
  let s := noteTouch dpa true s
  if cached s c then
    pkgPoison c true (putCache c ((cacheSet s c).map (fun x => if x.tag == cacheTag c then { x with dirty := true } else x)) s)
  else dramWrite 1 c (pkgPoison c true s)

/-- Read little-endian words from package memory with hint DEFAULT. -/
def pkgWord (cls dpa n : Nat) (s : State) : (Nat × Bool) × State :=
  let (r, s1) := pkgRead cls 0 dpa n s
  ((ofBytes r.1, r.2), s1)

/-! ### The hardware fill (R371, R90) -/

/-- Every byte zero with valid check bits, the caches invalid; the region table is kept. -/
def pkgFill (s : State) : State :=
  { s with pkg := { s.pkg with bytes := [], poison := [], errors := [], under := [], cache := [] } }

/-- Every slot byte zero with valid check bits and every granule EMPTY; claims end. -/
def slotFill (s : State) : State :=
  { s with slots := mapVals {} (fun x =>
      { x with bytes := [], tags := [], tagErrors := [], outClaims := [], inClaims := [], errors := [] }) s.slots }

/-- Clear every flip mask (R529). -/
def clearFlips (s : State) : State :=
  { s with
    slots := mapVals {} (fun x => { x with flips := [] }) s.slots
    pkg := { s.pkg with chans := mapVals {} (fun x => { x with flip := 0 }) s.pkg.chans } }

/-! ### Granule tags (R72, R76) -/

inductive TagState where
  | empty
  | full
  | poisoned
  | held
deriving DecidableEq, Repr

def tagState (t : BitVec 8) : TagState :=
  match t.toNat / 64 with
  | 0 => .empty
  | 1 => .full
  | 2 => .poisoned
  | _ => .held
def tagCount (t : BitVec 8) : Nat := t.toNat % 64
def tagFull (n : Nat) : BitVec 8 := BitVec.ofNat 8 (64 + n % 64)
def tagHeld : BitVec 8 := 0xC0
def tagEmpty : BitVec 8 := 0

/-- Tag after one consumer completes (R76). -/
def tagConsume (t : BitVec 8) : BitVec 8 :=
  match tagState t with
  | .full => if tagCount t ≤ 1 then tagEmpty else tagFull (tagCount t - 1)
  | _ => t

/-- Tag after an uncorrectable error in a data line or in the tag (R76). -/
def tagPoison (t : BitVec 8) : BitVec 8 :=
  match tagState t with
  | .full => BitVec.ofNat 8 (128 + tagCount t)
  | .held => BitVec.ofNat 8 128
  | _ => t

def getTag (s : State) (tile g : Nat) : BitVec 8 := mapGet 0 (getSlot s tile).tags g
def setTag (tile g : Nat) (t : BitVec 8) (s : State) : State :=
  modSlot s tile (fun x => { x with tags := mapSet 0 x.tags g t, tagErrors := mapSet 0 x.tagErrors g 0 })

/-- The tag unit reads a tag (R72, R512): one bit in error is corrected in place, counted and logged; two are an
uncorrectable error, which poisons a FULL or HELD granule with its count kept (R76). SEC-DED says nothing of three or more:
a free value decides whether they are detected, and a tag corrected wrongly is free. -/
def tagRead (tile g : Nat) (s : State) : State :=
  let e := mapGet 0 (getSlot s tile).tagErrors g
  let n := popCount 13 e
  if n = 0 then s
  else if n = 1 then ceMark 3 tile 0 g (setTag tile g (getTag s tile g) (evCount tile 0x26 0 0 1 s))
  else
    let (f, s1) := takeFree 1 s
    if n = 2 || f == 1 then
      log1Add 3 4 tile 0 g 0 (setTag tile g (tagPoison (getTag s1 tile g))
        { s1 with es := { s1.es with ue := satAdd 32 s1.es.ue 1 } })
    else
      let (d, s2) := takeFree 8 s1
      ceMark 3 tile 0 g (setTag tile g (BitVec.ofNat 8 d) s2)

/-! ### Slot data (R69, R70, R88) -/

/-- Bank of a tile-absolute line (R68). -/
def bankOf (line : Nat) : Nat := (line % 256).xor (line / 256 % 256) |>.xor (line / 65536 % 32)

def slotError (tile h e : Nat) (s : State) : State :=
  modSlot s tile (fun x => { x with errors := mapSet 0 x.errors h e })
def slotPut (tile a : Nat) (bs : List Byte) (s : State) : State :=
  modSlot s tile (fun x => { x with bytes := memWrite x.bytes a bs })

/-- One write to half line `h`: a lower half takes the bank's flip mask if one is loaded (R529). -/
def halfWrite (tile h : Nat) (s : State) : State :=
  let b := bankOf (h / 2)
  let f := mapGet 0 (getSlot s tile).flips b
  if h % 2 == 0 && f != 0 then
    slotError tile h (f - 1) (modSlot s tile (fun x => { x with flips := mapSet 0 x.flips b 0 }))
  else slotError tile h 0 s

/-- What the code of half line `h` finds: whether it is uncorrectable, whether it is to be rewritten, and the state with
the data as it will be rewritten. The granule of an uncorrectable half becomes POISONED if it was FULL or HELD, and the
half becomes zero (R512). SEC-DED says nothing of three or more wrong bits: a free value decides whether they are detected,
and data corrected wrongly is free. -/
def halfFind (tile h : Nat) (s : State) : (Bool × Bool) × State :=
  let e := mapGet 0 (getSlot s tile).errors h
  let n := popCount 266 e
  let loc : Loc := .slot tile (h / 2) (h % 2)
  if n = 0 then ((false, false), s)
  else if n = 1 then ((false, true), ceLog loc e s)
  else
    let (f, s1) := takeFree 1 s
    if n = 2 || f == 1 then
      let s2 := setTag tile (h / 128) (tagPoison (getTag s1 tile (h / 128))) (ueLog loc e s1)
      ((true, true), slotPut tile (h * 32) (List.replicate 32 0) s2)
    else
      let (d, s2) := takeFree 256 s1
      ((false, true), ceLog loc e (slotPut tile (h * 32) (le 32 d) s2))

/-- A read of half line `h`: true when it is uncorrectable. A half in error is written back at once (R88). -/
def halfRead (tile h : Nat) (s : State) : Bool × State :=
  let r := halfFind tile h s
  (r.1.1, if r.1.2 then halfWrite tile h r.2 else r.2)

/-- Check the halves from `h` up; true when any is uncorrectable. -/
def halfReads (tile h : Nat) : Nat → State → Bool × State
  | 0, s => (false, s)
  | n + 1, s =>
    let (b, s1) := halfRead tile h s
    let (r, s2) := halfReads tile (h + 1) n s1
    (b || r, s2)

/-- Read `n` bytes of slot memory for a requester (numbered as in R69): the bytes, and whether a half was
uncorrectable. Only the halves that the bytes touch are checked (DESIGN CHOICE, log entry 114: R88 does not say what a read
of one half does with the other). -/
def slotRead (who tile a n : Nat) (s : State) : (List Byte × Bool) × State :=
  let cnt := if n = 0 then 0 else (a + n - 1) / 32 - a / 32 + 1
  let (b, s1) := halfReads tile (a / 32) cnt s
  let lines := if n = 0 then 0 else (a + n - 1) / 64 - a / 64 + 1
  let s2 := evCount tile 0x20 who 0 lines (if who = 5 then moveLines tile 8 lines s1 else s1)
  ((memRead (getSlot s2 tile).bytes a n, b), s2)

/-- Write the part `bs`, from byte `a` up, of half line `h` and its check bits; `bad` says that the half was found
uncorrectable, and then a part is not merged (R70). -/
def mergeHalf (tile h a : Nat) (bs : List Byte) (bad : Bool) (s : State) : State :=
  halfWrite tile h (if bs.isEmpty || (bad && bs.length != 32) then s else slotPut tile a bs s)

/-- Write bytes inside one line. Where they cover every half they touch, those halves are written; else the whole line is
read, corrected, merged and written back (R70), which counts as one read-modify-write and one more bank cycle. True when a
half that they do not cover was uncorrectable: what it held is lost (R82). -/
def slotLine (who tile a : Nat) (bs : List Byte) (s : State) : Bool × State :=
  let h := a / 64 * 2
  let lo := bs.take (if a % 64 < 32 then 32 - a % 64 else 0)
  let hi := bs.drop lo.length
  let whole := fun (x : List Byte) => x.isEmpty || x.length == 32
  if whole lo && whole hi then
    let s1 := if lo.isEmpty then s else mergeHalf tile h a lo false s
    (false, if hi.isEmpty then s1 else mergeHalf tile (h + 1) (a + lo.length) hi false s1)
  else
    let r0 := halfFind tile h (evCount tile 0x20 who 0 1 (evCount tile 0x22 who 0 1 s))
    let r1 := halfFind tile (h + 1) r0.2
    ((r0.1.1 && lo.length != 32) || (r1.1.1 && hi.length != 32),
      mergeHalf tile (h + 1) (a + lo.length) hi r1.1.1 (mergeHalf tile h a lo r0.1.1 r1.2))

/-- Write the lines of a run of bytes; the fuel is the number of lines that remain. -/
def slotLines (who tile a : Nat) (bs : List Byte) : Nat → State → Bool × State
  | 0, s => (false, s)
  | n + 1, s =>
    let room := 64 - a % 64
    if bs.isEmpty then (false, s)
    else
      let (b, s1) := slotLine who tile a (bs.take room) s
      let (r, s2) := slotLines who tile (a + room) (bs.drop room) n s1
      (b || r, s2)

/-- Write bytes to slot memory for a requester; true when a half that a read-modify-write met was uncorrectable and lost.
Tags change only through such an error. -/
def slotWrite (who tile a : Nat) (bs : List Byte) (s : State) : Bool × State :=
  let lines := if bs.isEmpty then 0 else (a + bs.length - 1) / 64 - a / 64 + 1
  slotLines who tile a bs (bs.length / 64 + 2) (evCount tile 0x20 who 0 lines (if who = 5 then moveLines 8 tile lines s else s))

/-! ### Claims (R73) -/

/-- The numbers by which claims name their owner: an issue-window entry of a tile, or a window. -/
def ownerOp (tile uid : Nat) : Nat := 2 * (uid * 8 + tile) + 1
def ownerWin (w : Nat) : Nat := 2 * w + 2

def outClaim (s : State) (tile g : Nat) : Nat := mapGet 0 (getSlot s tile).outClaims g
def inClaim (s : State) (tile g : Nat) : Nat := mapGet 0 (getSlot s tile).inClaims g

def claimOut (owner tile g : Nat) (s : State) : State :=
  modSlot s tile (fun x => { x with outClaims := mapSet 0 x.outClaims g owner })
def claimIn (tile g : Nat) (s : State) : State :=
  modSlot s tile (fun x => { x with inClaims := mapMod 0 x.inClaims g (· + 1) })
def unclaimOut (owner tile g : Nat) (s : State) : State :=
  if outClaim s tile g == owner then claimOut 0 tile g s else s
def unclaimIn (tile g : Nat) (s : State) : State :=
  modSlot s tile (fun x => { x with inClaims := mapMod 0 x.inClaims g (· - 1) })

end Sys2Proof.Machine
end

