-- ==== Sys2Proof/Machine/Number.lean ====
section
/-!
DEFINITION. Number formats and rounding (spec/06_formats.md, R160 to R186): element codes are decoded to exact values,
computed on exactly, and rounded once.
-/
namespace Sys2Proof.Machine

/-- An element's value: NaN, an infinity, or the exact number ±m·2^e (m = 0 is a signed zero). -/
inductive FVal where
  | nan
  | inf (neg : Bool)
  | fin (neg : Bool) (m : Nat) (e : Int)
deriving DecidableEq, Repr

/-- The sticky events of a conversion (R180). -/
structure Ev where
  sat : Bool := false
  nanOut : Bool := false
  flush : Bool := false
deriving DecidableEq, Repr

def evOr (a b : Ev) : Ev := ⟨a.sat || b.sat, a.nanOut || b.nanOut, a.flush || b.flush⟩

/-- Events as status bits 0 to 2 (R210, R239, R304, R344). -/
def evBits (e : Ev) : Nat := e.sat.toNat + 2 * e.nanOut.toNat + 4 * e.flush.toNat

/-- How a floating-point format treats its top exponent codes. -/
inductive TopCodes where
  | ieee
  | e4m3
  | allFinite
deriving DecidableEq, Repr

/-- A floating-point element format (R160). -/
structure FloatFmt where
  ebits : Nat
  mbits : Nat
  bias : Nat
  flushes : Bool
  top : TopCodes
deriving DecidableEq, Repr

/-- The floating-point formats by format code (R160). -/
def floatFmt : Nat → Option FloatFmt
  | 0 => some ⟨8, 23, 127, true, .ieee⟩
  | 1 => some ⟨8, 7, 127, true, .ieee⟩
  | 2 => some ⟨5, 10, 15, true, .ieee⟩
  | 3 => some ⟨4, 3, 7, true, .e4m3⟩
  | 4 => some ⟨5, 2, 15, true, .ieee⟩
  | 5 => some ⟨3, 2, 3, false, .allFinite⟩
  | 6 => some ⟨2, 3, 1, false, .allFinite⟩
  | 7 => some ⟨2, 1, 1, false, .allFinite⟩
  | _ => none

/-- Bits per element of a format code (R160, R163); INT32 results take 32. -/
def fmtBits : Nat → Nat
  | 0 => 32 | 1 => 16 | 2 => 16 | 3 => 8 | 4 => 8 | 5 => 6 | 6 => 6 | 7 => 4 | 8 => 8 | 9 => 4 | 10 => 8 | _ => 32

def fmtIsInt (f : Nat) : Bool := f == 8 || f == 9

/-- Formats that may carry a block scale (R170). -/
def fmtScalable (f : Nat) : Bool := f == 3 || f == 4 || f == 5 || f == 6 || f == 7 || f == 8

/-- A row of this format must hold a multiple of so many elements (R163). -/
def fmtGroup : Nat → Nat
  | 5 => 4 | 6 => 4 | 7 => 2 | 9 => 2 | _ => 1

/-- Two's complement value of the low `n` bits of `c`. -/
def signedOf (n c : Nat) : Int := if c % 2 ^ n < 2 ^ (n - 1) then (c % 2 ^ n : Nat) else (c % 2 ^ n : Nat) - (2 ^ n : Nat)

/-- Two's complement code of `v` in `n` bits. -/
def codeOfInt (n : Nat) (v : Int) : Nat := (v % (2 ^ n : Nat)).toNat

def fvalOfInt (v : Int) : FVal := .fin (decide (v < 0)) v.natAbs 0

def fzero (neg : Bool) : FVal := .fin neg 0 0

/-- The value of a floating-point code (R160, R164, R165). -/
def decodeFloat (f : FloatFmt) (c : Nat) : FVal :=
  let neg := (c / 2 ^ (f.ebits + f.mbits)) % 2 == 1
  let ex := (c / 2 ^ f.mbits) % 2 ^ f.ebits
  let mant := c % 2 ^ f.mbits
  let topEx := ex == 2 ^ f.ebits - 1
  if topEx && f.top == .ieee then (if mant == 0 then .inf neg else .nan)
  else if topEx && f.top == .e4m3 && mant == 2 ^ f.mbits - 1 then .nan
  else if ex == 0 then
    (if f.flushes then fzero neg else .fin neg mant (1 - (f.bias : Int) - f.mbits))
  else .fin neg (2 ^ f.mbits + mant) ((ex : Int) - f.bias - f.mbits)

/-- The value of an element code of format `fmt`, unscaled; an integer code is the integer. -/
def decodeElem (fmt c : Nat) : FVal :=
  match floatFmt fmt with
  | some f => decodeFloat f c
  | none => fvalOfInt (signedOf (fmtBits fmt) c)

/-- An exact value times 2^x. -/
def scaleF (x : Int) : FVal → FVal
  | .fin n m e => .fin n m (e + x)
  | v => v

/-- The value of an element under scale code `sc` (R168, R170, R171). -/
def decodeScaled (fmt c sc : Nat) : FVal :=
  if sc == 0xFF then .nan
  else if fmt == 8 then scaleF ((sc : Int) - 127 - 6) (decodeElem 8 c)
  else scaleF ((sc : Int) - 127) (decodeElem fmt c)

def bitLen (n : Nat) : Nat := if n = 0 then 0 else Nat.log2 n + 1

/-- `m / 2^s` rounded to nearest, ties to even. -/
def shiftRNE (m s : Nat) : Nat :=
  if s = 0 then m
  else
    let q := m / 2 ^ s
    let r := m % 2 ^ s
    if 2 ^ (s - 1) < r || (r == 2 ^ (s - 1) && q % 2 == 1) then q + 1 else q

/-- `m / 2^s` rounded stochastically with the 16-bit random number `r` (R181). -/
def shiftSR (m s r : Nat) : Nat :=
  let q := m / 2 ^ s
  let d := (m % 2 ^ s) * 2 ^ 16 / 2 ^ s
  if 2 ^ 16 ≤ d + r then q + 1 else q

/-- How a conversion rounds: to nearest even, or stochastically with a given random number. -/
inductive Rounding where
  | nearest
  | stochastic (r : Nat)
deriving DecidableEq, Repr

/-- The exact m·2^e as a multiple of 2^q. -/
def alignTo (rd : Rounding) (m : Nat) (e q : Int) : Nat :=
  if q ≤ e then m * 2 ^ (e - q).toNat
  else match rd with
    | .nearest => shiftRNE m (q - e).toNat
    | .stochastic r => shiftSR m (q - e).toNat r

/-- Round m·2^e to `p` significant bits with an unbounded exponent, or on a grid no finer than 2^qmin. -/
def roundSig (rd : Rounding) (p : Nat) (qmin : Option Int) (m : Nat) (e : Int) : Nat × Int :=
  let q0 : Int := e + bitLen m - p
  let q := match qmin with
    | some g => max q0 g
    | none => q0
  (alignTo rd m e q, q)

/-- Is m1·2^e1 < m2·2^e2? -/
def magLt (m1 : Nat) (e1 : Int) (m2 : Nat) (e2 : Int) : Bool :=
  if e1 ≤ e2 then m1 < m2 * 2 ^ (e2 - e1).toNat else m1 * 2 ^ (e1 - e2).toNat < m2

/-- Largest finite magnitude of a format (R160). -/
def maxFinite (f : FloatFmt) : Nat × Int :=
  match f.top with
  | .ieee => (2 ^ (f.mbits + 1) - 1, (2 ^ f.ebits : Nat) - 2 - (f.bias : Int) - f.mbits)
  | .e4m3 => (2 ^ (f.mbits + 1) - 2, (2 ^ f.ebits : Nat) - 1 - (f.bias : Int) - f.mbits)
  | .allFinite => (2 ^ (f.mbits + 1) - 1, (2 ^ f.ebits : Nat) - 1 - (f.bias : Int) - f.mbits)

/-- The rounded value of m·2^e in a format before encoding: overflow (R178), then flushing (R177). -/
structure Rounded where
  val : FVal
  ovf : Bool
  flush : Bool
deriving DecidableEq, Repr

def roundFmt (f : FloatFmt) (rd : Rounding) (neg : Bool) (m : Nat) (e : Int) : Rounded :=
  if m = 0 then ⟨fzero neg, false, false⟩
  else
    let qmin : Option Int := if f.flushes then none else some (1 - (f.bias : Int) - f.mbits)
    let (m', q) := roundSig rd (f.mbits + 1) qmin m e
    if magLt (maxFinite f).1 (maxFinite f).2 m' q then ⟨.inf neg, true, false⟩
    else if f.flushes && magLt m' q 1 (1 - (f.bias : Int)) then ⟨fzero neg, false, true⟩
    else if m' = 0 then ⟨fzero neg, false, true⟩
    else ⟨.fin neg m' q, false, false⟩

def fp32 : FloatFmt := ⟨8, 23, 127, true, .ieee⟩

/-- One FP32 rounding to nearest even with subnormals flushed (fl of R224): the value only. -/
def flv (neg : Bool) (m : Nat) (e : Int) : FVal := (roundFmt fp32 .nearest neg m e).val

/-- Exact product (R172), its value before rounding. -/
def mulExact : FVal → FVal → FVal
  | .nan, _ => .nan
  | _, .nan => .nan
  | .inf a, .inf b => .inf (a != b)
  | .inf a, .fin b m _ => if m = 0 then .nan else .inf (a != b)
  | .fin a m _, .inf b => if m = 0 then .nan else .inf (a != b)
  | .fin a m e, .fin b n f => .fin (a != b) (m * n) (e + f)

/-- Exact sum (R173), with the zero and infinity rules of R167. -/
def addExact : FVal → FVal → FVal
  | .nan, _ => .nan
  | _, .nan => .nan
  | .inf a, .inf b => if a == b then .inf a else .nan
  | .inf a, _ => .inf a
  | _, .inf b => .inf b
  | .fin a m e, .fin b n f =>
    let q := min e f
    let x : Int := (m * 2 ^ (e - q).toNat : Nat)
    let y : Int := (n * 2 ^ (f - q).toNat : Nat)
    let s := (if a then -x else x) + (if b then -y else y)
    if s = 0 then fzero (a && b && m == 0 && n == 0) else .fin (decide (s < 0)) s.natAbs q

/-- Round an exact value to FP32, with its flags. -/
def rnd32 : FVal → Rounded
  | .fin n m e => roundFmt fp32 .nearest n m e
  | v => ⟨v, false, false⟩

/-- FP32 product, sum and negation. -/
def mulF (a b : FVal) : FVal := (rnd32 (mulExact a b)).val
def addF (a b : FVal) : FVal := (rnd32 (addExact a b)).val
def negF : FVal → FVal
  | .nan => .nan
  | .inf n => .inf (!n)
  | .fin n m e => .fin (!n) m e
def subF (a b : FVal) : FVal := addF a (negF b)
def absF : FVal → FVal
  | .nan => .nan
  | .inf _ => .inf false
  | .fin _ m e => .fin false m e

/-- FP32 quotient a ÷ b, correctly rounded (R227): enough quotient bits and a sticky bit, then one rounding. -/
def divExact : FVal → FVal → FVal
  | .nan, _ => .nan
  | _, .nan => .nan
  | .inf a, .fin b _ _ => .inf (a != b)
  | .inf _, .inf _ => .nan
  | .fin a _ _, .inf b => fzero (a != b)
  | .fin a m e, .fin b n f =>
    if n = 0 then (if m = 0 then .nan else .inf (a != b))
    else
      let k := 30 + bitLen n
      let q := m * 2 ^ k / n
      let st := if m * 2 ^ k % n = 0 then 0 else 1
      .fin (a != b) (2 * q + st) (e - f - k - 1)
def divF (a b : FVal) : FVal := (rnd32 (divExact a b)).val

def isNan : FVal → Bool
  | .nan => true
  | _ => false
def isInfinite : FVal → Bool
  | .inf _ => true
  | _ => false
def isFinite : FVal → Bool
  | .fin _ _ _ => true
  | _ => false
def isZero : FVal → Bool
  | .fin _ m _ => m == 0
  | _ => false
def isNeg : FVal → Bool
  | .fin n _ _ => n
  | .inf n => n
  | .nan => false

/-- Numeric less-than; false with a NaN; zeros of either sign are equal. -/
def ltF : FVal → FVal → Bool
  | .nan, _ => false
  | _, .nan => false
  | .inf a, .inf b => a && !b
  | .inf a, _ => a
  | _, .inf b => !b
  | .fin a m e, .fin b n f =>
    if m == 0 && n == 0 then false
    else if m == 0 then !b
    else if n == 0 then a
    else match a, b with
      | false, true => false
      | true, false => true
      | false, false => magLt m e n f
      | true, true => magLt n f m e
def eqF (a b : FVal) : Bool := !isNan a && !isNan b && !ltF a b && !ltF b a
def leF (a b : FVal) : Bool := ltF a b || eqF a b

/-- The larger value; NaN if either is NaN (R167, R230). -/
def maxF (a b : FVal) : FVal := if isNan a || isNan b then .nan else if ltF a b then b else a
def minF (a b : FVal) : FVal := if isNan a || isNan b then .nan else if ltF b a then b else a

/-- The canonical NaN of a format (R166); formats without NaN give the code that replaces it (R178, R179). -/
def nanCode : Nat → Nat
  | 0 => 0x7FC00000 | 1 => 0x7FC0 | 2 => 0x7E00 | 3 => 0x7F | 4 => 0x7E | _ => 0

def signBit (f : FloatFmt) (neg : Bool) : Nat := if neg then 2 ^ (f.ebits + f.mbits) else 0

/-- The code of a value that the format represents. -/
def encodeFloat (f : FloatFmt) (neg : Bool) (m : Nat) (e : Int) : Nat :=
  if m = 0 then signBit f neg
  else
    let k : Int := e + bitLen m - 1
    let emin : Int := 1 - (f.bias : Int)
    if k < emin then signBit f neg + alignTo .nearest m e (emin - f.mbits)
    else signBit f neg + (k + f.bias).toNat * 2 ^ f.mbits + (alignTo .nearest m e (k - f.mbits) - 2 ^ f.mbits)

def infCode (f : FloatFmt) (neg : Bool) : Nat := signBit f neg + (2 ^ f.ebits - 1) * 2 ^ f.mbits
def maxCode (f : FloatFmt) (neg : Bool) : Nat := encodeFloat f neg (maxFinite f).1 (maxFinite f).2

/-- Options of a conversion: NaN-on-overflow, a block-scaled destination, and whether every value the element was
computed from was finite (R180). -/
structure ConvOpt where
  nanOvf : Bool := false
  scaled : Bool := false
  srcFinite : Bool := true
deriving DecidableEq, Repr

/-- Conversion to a floating-point format (R176 to R178, R181, R184 step 3). -/
def convFloat (code : Nat) (f : FloatFmt) (o : ConvOpt) (rd : Rounding) : FVal → Nat × Ev
  | .nan => (nanCode code, { nanOut := true })
  | .inf n =>
    match f.top with
    | .ieee => (infCode f n, { sat := o.srcFinite })
    | .e4m3 => if o.nanOvf then (nanCode code, { nanOut := true }) else (maxCode f n, { sat := true })
    | .allFinite => (maxCode f n, { sat := true })
  | .fin n m e =>
    let r := roundFmt f rd n m e
    if r.ovf then
      if o.scaled then (maxCode f n, { sat := true })
      else match f.top with
        | .ieee => (infCode f n, { sat := true })
        | .e4m3 => if o.nanOvf then (nanCode code, { nanOut := true }) else (maxCode f n, { sat := true })
        | .allFinite => (maxCode f n, { sat := true })
    else match r.val with
      | .fin n' m' e' => (encodeFloat f n' m' e', { flush := r.flush })
      | _ => (signBit f n, {})

/-- Saturate an exact integer to `n` bits, and whether it changed. -/
def satInt (n : Nat) (v : Int) : Int × Bool :=
  let hi : Int := (2 ^ (n - 1) : Nat) - 1
  let lo : Int := -(2 ^ (n - 1) : Nat)
  if hi < v then (hi, true) else if v < lo then (lo, true) else (v, false)

/-- Nearest integer to a finite value, ties to even. -/
def toIntRNE (neg : Bool) (m : Nat) (e : Int) : Int :=
  let k : Int := (alignTo .nearest m e 0 : Nat)
  if neg then -k else k

/-- Conversion to INT8, INT4 or INT32 of `n` bits (R179). -/
def convInt (n : Nat) : FVal → Nat × Ev
  | .nan => (0, { nanOut := true })
  | .inf neg => (codeOfInt n (if neg then -(2 ^ (n - 1) : Nat) else (2 ^ (n - 1) : Nat) - 1), { sat := true })
  | .fin neg m e =>
    let v := toIntRNE neg m e
    let s := satInt n v
    (codeOfInt n s.1, { sat := s.2, flush := v == 0 && m != 0 })

/-- Conversion of a value to an element code of format `fmt`. -/
def convElem (fmt : Nat) (o : ConvOpt) (rd : Rounding) (v : FVal) : Nat × Ev :=
  match floatFmt fmt with
  | some f => convFloat fmt f o rd v
  | none => convInt (fmtBits fmt) v

/-- The FP32 code of a value. -/
def fp32Code (v : FVal) : Nat := (convFloat 0 fp32 {} .nearest v).1
def fp32Val (c : Nat) : FVal := decodeFloat fp32 c

/-! ### Block scales (R184, R185) -/

/-- emax of an element format (R184). -/
def fmtEmax : Nat → Int
  | 3 => 8 | 4 => 15 | 5 => 4 | 6 => 2 | 7 => 2 | _ => 0

def floorLog2 (m : Nat) (e : Int) : Int := e + bitLen m - 1

/-- Largest ⌊log₂⌋ among the non-zero finite values, if any. -/
def blockLog : List FVal → Option Int
  | [] => none
  | .fin _ m e :: vs =>
    if m = 0 then blockLog vs
    else match blockLog vs with
      | some k => some (max k (floorLog2 m e))
      | none => some (floorLog2 m e)
  | _ :: vs => blockLog vs

/-- Scale exponent of a block's finite values (R184 steps 1 and 2). -/
def blockExp (fmt : Nat) (vs : List FVal) : Int :=
  match blockLog vs with
  | none => 0
  | some k => max (-127) (min 127 (k - fmtEmax fmt))

def isFp8 (fmt : Nat) : Bool := fmt == 3 || fmt == 4

/-- One element of a block-scaled output (R184 step 3). -/
def convScaled (fmt : Nat) (o : ConvOpt) (x : Int) (rd : Rounding) (v : FVal) : Nat × Ev :=
  if fmt == 8 then convInt 8 (scaleF (6 - x) v)
  else convElem fmt { o with scaled := true } rd (scaleF (-x) v)

/-- A block: its scale code, its element codes and its events (R184, R185). Each value comes with whether everything it
was computed from was finite (R180), and with its rounding. -/
def convBlock (fmt : Nat) (o : ConvOpt) (vs : List ((FVal × Bool) × Rounding)) : Nat × List Nat × Ev :=
  let special := vs.any (fun v => isNan v.1.1) || vs.any (fun v => isInfinite v.1.1)
  if special && !isFp8 fmt then (0xFF, vs.map (fun _ => 0), { nanOut := true })
  else
    let x := blockExp fmt (vs.map (·.1.1))
    let es := vs.map (fun v => convScaled fmt { o with srcFinite := v.1.2 } x v.2 v.1.1)
    ((x + 127).toNat, es.map (·.1), es.foldl (fun a e => evOr a e.2) {})

/-! ### Philox-4×32-10 (R183): the multipliers and key increments are those of the published generator. -/

structure Philox where
  c0 : Nat
  c1 : Nat
  c2 : Nat
  c3 : Nat
deriving DecidableEq, Repr

def philoxRound (k0 k1 : Nat) (c : Philox) : Philox :=
  let p0 := 0xD2511F53 * c.c0
  let p1 := 0xCD9E8D57 * c.c2
  { c0 := (p1 / 2 ^ 32).xor c.c1 |>.xor k0
    c1 := p1 % 2 ^ 32
    c2 := (p0 / 2 ^ 32).xor c.c3 |>.xor k1
    c3 := p0 % 2 ^ 32 }

def philoxGo : Nat → Nat → Nat → Philox → Philox
  | 0, _, _, c => c
  | n + 1, k0, k1, c =>
    philoxGo n ((k0 + 0x9E3779B9) % 2 ^ 32) ((k1 + 0xBB67AE85) % 2 ^ 32) (philoxRound k0 k1 c)

def philox (k0 k1 : Nat) (c : Philox) : Philox := philoxGo 10 k0 k1 c

/-- What the stochastic rounding of one op draws from (R183). -/
structure SrKey where
  seed : Nat
  opIndex : Nat
  iter0 : Nat
  stepLow : Nat
  iter1 : Nat
deriving DecidableEq, Repr

/-- The rounding of output element `i` (R181, R183). -/
def srRounding (on : Bool) (k : SrKey) (i : Nat) : Rounding :=
  if on then .stochastic ((philox k.seed k.opIndex ⟨i % 2 ^ 32, k.iter0, k.stepLow, k.iter1⟩).c0 % 2 ^ 16)
  else .nearest

/-! ### Bounded transcendental units

Each value is a free FP32 value that is kept when it lies within the stated error bound and is replaced by the nearest
FP32 value otherwise, so every outcome the bound allows is possible and no other. Fixed point has 96 fraction bits. -/

def fixOne : Nat := 2 ^ 96
def ln2Fix : Nat := 0xb17217f7d1cf79abc9e3b398

/-- Σ xⁿ/n! by Horner from term `n` down, x and the result in fixed point, alternating when `alt`. -/
def taylorExp (x : Nat) : Nat → Nat → Nat
  | 0, _ => fixOne
  | n + 1, k => fixOne - x * taylorExp x n (k + 1) / (fixOne * k)

/-- exp(−x) for a fixed-point x in [0, ln 2). -/
def expNegSmall (x : Nat) : Nat := taylorExp x 40 1

/-- exp of a value ≤ 0 as an exact approximation m·2^e (relative error far below 2⁻⁶⁰). -/
def expApprox (m : Nat) (e : Int) : Nat × Int :=
  let x := alignTo .nearest m e (-96)
  let n := x / ln2Fix
  (expNegSmall (x - n * ln2Fix), -96 - (n : Int))

/-- |a − b| ≤ t for magnitudes in exact form. -/
def within (a b t : FVal) : Bool :=
  leF (absF (addExact a (negF b))) t

/-- The unit's code for an argument whose |x| has code `x` and whose exponential is `v`: of the codes within the bound,
the least whose step the argument has reached, else the greatest. A larger |x| has reached every step that a smaller one
has, so results never rise with |x|, and every non-decreasing unit within the bound is one choice of the steps. -/
def expCode (x : Nat) (v : FVal) : Nat :=
  let c := fp32Code v
  let near := ((List.range 13).map (fun i => c + i - 6)).filter (fun y =>
    decide (0x00800000 ≤ y) && decide (y ≤ 0x3F800000) && within (fp32Val y) v (scaleF (-22) v))
  (near.find? (fun y => decide (Config.expStep y ≤ x))).getD (near.getLastD c)

/-- exp of R226: for an argument ≤ 0 exactly 1 at 0, at most 1, +0 below 2⁻¹²⁶, relative error at most 2⁻²²,
non-decreasing. The spec bounds no other argument: a positive one, which only the backward pass can meet, gives a free
FP32 value. -/
def expF : FVal → FVal
  | .nan => .nan
  | .inf true => fzero false
  | .inf false => fp32Val (Config.expFree (fp32Code (.inf false)) % 2 ^ 32)
  | .fin n m e =>
    if m = 0 then .fin false 1 0
    else if !n then fp32Val (Config.expFree (fp32Code (.fin n m e)) % 2 ^ 32)
    else if magLt 200 0 m e then fzero false
    else
      let a := expApprox m e
      let v : FVal := .fin false a.1 a.2
      if magLt a.1 a.2 1 (-126) then fzero false
      else fp32Val (expCode (fp32Code (.fin false m e)) v)

/-- π with 320 fraction bits. -/
def piFix : Nat := 0x3243f6a8885a308d313198a2e03707344a4093822299f31d0082efa98ec4e6c89452821e638d01377

/-- Σ alternating xⁿ/(n…)! for sine (k = 2) and cosine (k = 1), by Horner; x² in fixed point. -/
def taylorTrig (x2 : Nat) : Nat → Nat → Nat
  | 0, _ => fixOne
  | n + 1, k => fixOne - x2 * taylorTrig x2 n (k + 2) / (fixOne * (k * (k + 1)))

/-- (sin, cos) of an angle of r·2⁻⁹⁶ in [0, π/2], in fixed point. -/
def sinCosQuarter (r : Nat) : Nat × Nat :=
  let x2 := r * r / fixOne
  (r * taylorTrig x2 20 2 / fixOne, taylorTrig x2 20 1)

/-- (sin, cos) of the exact |θ| = m·2^e as signed fixed-point numbers of 96 fraction bits. -/
def sinCosApprox (m : Nat) (e : Int) : Int × Int :=
  let x := alignTo .nearest m e (-320)
  let h := piFix / 2
  let k := x / h
  let r := (x - k * h) / 2 ^ 224
  let p := sinCosQuarter r
  match k % 4 with
  | 0 => (p.1, p.2)
  | 1 => (p.2, -(p.1 : Int))
  | 2 => (-(p.1 : Int), -(p.2 : Int))
  | _ => (-(p.2 : Int), p.1)

def fixVal (x : Int) : FVal := .fin (decide (x < 0)) x.natAbs (-96)

/-- Keep a free FP32 value if it lies within `t` of `v`, else take the nearest FP32 value. -/
def keepWithin (free : Nat) (v t : FVal) : FVal :=
  let c := fp32Val free
  if isFinite c && within c v t then c else (rnd32 v).val

/-- cos θ and sin θ of R224, absolute error at most 2⁻²² each. -/
def cosF : FVal → FVal
  | .fin n m e => keepWithin (Config.cosFree (fp32Code (.fin n m e))) (fixVal (sinCosApprox m e).2) (.fin false 1 (-22))
  | _ => .nan
def sinF : FVal → FVal
  | .fin n m e =>
    let s := (sinCosApprox m e).1
    keepWithin (Config.sinFree (fp32Code (.fin n m e))) (fixVal (if n then -s else s)) (.fin false 1 (-22))
  | _ => .nan

/-- Σ z^(2k)/(2k+1) in fixed point. -/
def atanhSum (z2 : Nat) : Nat → Nat → Nat
  | 0, k => fixOne / k
  | n + 1, k => fixOne / k + z2 * atanhSum z2 n (k + 2) / fixOne

/-- ln of m·2^e > 0 as a signed fixed-point number of 96 fraction bits. -/
def lnApprox (m : Nat) (e : Int) : Int :=
  let k := floorLog2 m e
  let y := alignTo .nearest m e (k - 96)
  let z := (y - fixOne) * fixOne / (y + fixOne)
  let l := 2 * (z * atanhSum (z * z / fixOne) 40 1 / fixOne)
  k * ln2Fix + l

/-- One FP32 unit in the last place of a value. -/
def ulp32 : FVal → FVal
  | .fin _ m e => if m = 0 then .fin false 1 (-149) else .fin false 1 (floorLog2 m e - 23)
  | v => v

/-- ln of R227, error at most 1 FP32 ulp. -/
def lnF : FVal → FVal
  | .fin false m e =>
    if m = 0 then .inf true
    else
      let v := fixVal (lnApprox m e)
      if isZero v then fzero false
      else keepWithin (Config.lnFree (fp32Code (.fin false m e))) v (ulp32 (rnd32 v).val)
  | .inf false => .inf false
  | .nan => .nan
  | .fin true m _ => if m = 0 then .inf true else .nan
  | .inf true => .nan

end Sys2Proof.Machine
end

