-- ==== Sys2Proof/Machine/Operands.lean ====
section
/-!
DEFINITION. The op's fields, slot references, the values a bound op takes, and the extents of every operand form of
every engine class (R39 to R49, R78, R126, R198 to R200, R222, R278, R312, R330 to R340, R432).
-/
namespace Sys2Proof.Machine

/-! ### Fields of an op (R39 to R41) -/

def oF (op : OpWord) (off size : Nat) : Nat := fld op.toNat off size
def opClass (op : OpWord) : Nat := oF op 0 1 / 16
def opVer (op : OpWord) : Nat := oF op 0 1 % 16
def opCode (op : OpWord) : Nat := oF op 1 1
def opFlags (op : OpWord) : Nat := oF op 2 2
def opAccum (op : OpWord) : Bool := bit (opFlags op) 9
def opHold (op : OpWord) : Bool := bit (opFlags op) 8
def opBound (op : OpWord) : Bool := bit (opFlags op) 10
def opCons (op : OpWord) : Nat := opFlags op % 64
def clsFlag (op : OpWord) (i : Nat) : Bool := bit (opFlags op) i
def opA (op : OpWord) : Nat := oF op 4 4
def opB (op : OpWord) : Nat := oF op 8 4
def opC (op : OpWord) : Nat := oF op 12 4
def opOut (op : OpWord) : Nat := oF op 16 4
/-- Operand field `k`: 0 A, 1 B, 2 C, 3 OUT. -/
def opRef (op : OpWord) (k : Nat) : Nat := oF op (4 + 4 * k) 4

/-- The op with a field replaced. -/
def putF (op : OpWord) (off size v : Nat) : OpWord :=
  BitVec.ofNat 256 (op.toNat - oF op off size * 2 ^ (8 * off) + v % 2 ^ (8 * size) * 2 ^ (8 * off))

/-! ### The task descriptor (R50 to R52) -/

def dF (d : DescWord) (off size : Nat) : Nat := fld d.toNat off size
def dTaskId (d : DescWord) : Nat := dF d 0 4
def dEpoch (d : DescWord) : Nat := dF d 4 2
def dPrio (d : DescWord) : Nat := dF d 6 1 % 4
def dStepBind (d : DescWord) : Bool := bit (dF d 6 1) 2
def dVer (d : DescWord) : Nat := dF d 7 1
def dBase (d : DescWord) : Nat := dF d 8 4 % 2 ^ 21
def dBound (d : DescWord) : Nat := dF d 12 4
def dPkgBase (d : DescWord) : Nat := dF d 16 8
def dPkgBound (d : DescWord) : Nat := dF d 24 8
def dOpList (d : DescWord) : Nat := dF d 32 8
def dOpCount (d : DescWord) : Nat := dF d 40 4
def dSeed (d : DescWord) : Nat := dF d 44 4
/-- Wait entry `i`: counter halfword and value. -/
def dWait (d : DescWord) (i : Nat) : Nat × Nat := (dF d (48 + 16 * i) 2, dF d (56 + 16 * i) 8)
/-- Signal entry `i`: counter halfword and increment. -/
def dSig (d : DescWord) (i : Nat) : Nat × Nat := (dF d (112 + 8 * i) 2, dF d (116 + 8 * i) 4)

/-! ### Slot references (R46 to R48) -/

def refTile (own r : Nat) : Nat := if bit r 31 then bits r 30 28 else own
def refLine (r : Nat) : Nat := r % 2 ^ 21
def refBad (r : Nat) : Bool := bits r 27 21 != 0 || (!bit r 31 && bits r 30 28 != 0)

/-- An operand's extent in slot memory: tile, first line, length in lines, and which operand it is (0 A, 1 B, 2 C,
3 OUT, 4 the frequency table). -/
structure Ext where
  tile : Nat
  line : Nat
  lines : Nat
  opnd : Nat
deriving DecidableEq, Repr

/-- The granules of an extent; a zero length covers the granule of its first line (R78). -/
def extGranules (e : Ext) : List Nat :=
  (List.range ((e.line + max e.lines 1 - 1) / 64 - e.line / 64 + 1)).map (· + e.line / 64)

/-! ### Sizes -/

/-- Lines of a row of `n` elements of `b` bits. -/
def pitch (b n : Nat) : Nat := ceilDiv (n * b) 512
/-- Lines that hold `n` bytes. -/
def linesOf (n : Nat) : Nat := ceilDiv n 64
def rowBreaks (fmt n : Nat) : Bool := n % fmtGroup fmt != 0

/-- Lengths in lines of the slot operands A, B, C and OUT; `none` where the op does not use the field as a slot
reference. -/
structure Lens where
  a : Option Nat := none
  b : Option Nat := none
  c : Option Nat := none
  out : Option Nat := none
deriving DecidableEq, Repr

/-! ### CUMIN (R188 to R199) -/

def cmPack (op : OpWord) : Nat := oF op 23 1 % 4
def cmHalf (op : OpWord) : Nat := oF op 23 1 / 4 % 2
def cmM (op : OpWord) : Nat := oF op 20 2 % 2048
def cmN (op : OpWord) : Nat := oF op 22 1
def cmK (op : OpWord) : Nat := oF op 24 2
def cmFa (op : OpWord) : Nat := oF op 26 1 % 16
def cmFb (op : OpWord) : Nat := oF op 26 1 / 16
def cmFo (op : OpWord) : Nat := oF op 27 1 % 16
def cmBlk (op : OpWord) : Nat := if bit (oF op 27 1) 4 then 16 else 32
def cmScA (op : OpWord) : Bool := bit (oF op 27 1) 5
def cmScB (op : OpWord) : Bool := bit (oF op 27 1) 6
def cmScO (op : OpWord) : Bool := bit (oF op 27 1) 7
def cmPitchF (op : OpWord) : Nat := oF op 28 4 / 2 ^ 21
def cmTsF (op : OpWord) : Nat := oF op 28 4 % 2 ^ 21
def cmTB (op : OpWord) : Bool := clsFlag op 15
def cmTA (op : OpWord) : Bool := clsFlag op 14
def cmIntA (op : OpWord) : Bool := fmtIsInt (cmFa op) && !cmScA op
def cmIntB (op : OpWord) : Bool := fmtIsInt (cmFb op) && !cmScB op
def cmInt (op : OpWord) : Bool := cmIntA op && cmIntB op
def cmProblems (op : OpWord) : Nat := match cmPack op with | 0 => 1 | 1 => 4 | _ => 16
def cmNmax (op : OpWord) : Nat := match cmPack op with | 0 => 128 | 1 => 64 | _ => 32
def cmRowLimit (op : OpWord) : Nat := match cmPack op with | 0 => 1024 | 1 => 512 | _ => 256
def is4bit (f : Nat) : Bool := f == 7 || f == 9
/-- Width class of an element in a pair: FP6 and INT8 count as 8-bit (R175). -/
def pairBits (f : Nat) : Nat := if f == 5 || f == 6 then 8 else fmtBits f
/-- Reduction indices per stationary load (R188); transposed block-scaled B runs as BF16 (R191). -/
def cmKt (op : OpWord) : Nat :=
  let wb := if cmTB op && cmScB op then 16 else pairBits (cmFb op)
  let base := if max (pairBits (cmFa op)) wb == 4 then 256 else 128
  match cmPack op with | 0 => base | 1 => base / 2 | _ => base / 4
/-- Stored row length of a B tile. -/
def cmS (op : OpWord) : Nat :=
  let base := if is4bit (cmFb op) then 256 else 128
  match cmPack op with | 0 => base | 1 => base / 2 | _ => base / 4
def cmPb (op : OpWord) : Nat := pitch (fmtBits (cmFb op)) (cmS op)
def cmPbt (op : OpWord) : Nat := if cmPitchF op = 0 then cmPb op else cmPitchF op
def cmOutFmt (op : OpWord) : Nat := if cmInt op && cmFo op == 0 then 0x10 else cmFo op
/-- Scale lines of a B tile of `rows` stored rows. -/
def cmScLines (op : OpWord) (rows : Nat) : Nat :=
  if cmScB op then linesOf (rows * (cmS op / cmBlk op)) else 0
def cmTsDef (op : OpWord) : Nat :=
  if cmTB op then 128 * cmPbt op + cmScLines op 128 else cmN op * cmPb op + cmScLines op (cmN op)
def cmTs (op : OpWord) : Nat := if cmTsF op = 0 then cmTsDef op else cmTsF op

def cmLenA (op : OpWord) (m : Nat) : Nat :=
  if cmTA op then cmK op * pitch (fmtBits (cmFa op)) m
  else m * pitch (fmtBits (cmFa op)) (cmK op)
    + (if cmScA op then linesOf (m * ceilDiv (cmK op) (cmBlk op)) else 0)
def cmLenB (op : OpWord) : Nat :=
  let k := cmK op
  if k = 0 then 0
  else if cmTB op then
    let nt := ceilDiv k 128
    let nr := k - 128 * (nt - 1)
    (nt - 1) * cmTs op
      + (if cmScB op then nr * cmPbt op + cmScLines op nr
         else (nr - 1) * cmPbt op + pitch (fmtBits (cmFb op)) (cmHalf op * 128 + cmN op))
  else (ceilDiv k (cmS op) - 1) * cmTs op + cmN op * cmPb op + cmScLines op (cmN op)
def cmLenC (op : OpWord) (m : Nat) : Nat := m * pitch 32 (cmN op)
def cmLenO (op : OpWord) (m : Nat) : Nat :=
  m * pitch (fmtBits (cmOutFmt op)) (cmN op)
    + (if cmScO op then linesOf (m * ceilDiv (cmN op) (cmBlk op)) else 0)
/-- Lines between one problem and the next (R199). -/
def cmGap (len : Nat) : Nat := roundUp len 64
/-- All problems of an operand; a zero length stays zero (R78). -/
def cmAll (op : OpWord) (len : Nat) : Nat :=
  if len = 0 then 0 else (cmProblems op - 1) * cmGap len + len

def cmLens (op : OpWord) : Lens :=
  let m := cmM op
  { a := some (if cmK op = 0 then 0 else cmAll op (cmLenA op m))
    b := some (cmAll op (cmLenB op))
    c := if opAccum op then some (cmAll op (cmLenC op m)) else none
    out := some (cmAll op (cmLenO op m)) }

/-! ### SAFFRON (R218 to R222) -/

/-- An attention configuration record, as bytes; field `off` of `size` bytes. -/
def sfF (c : List Byte) (off size : Nat) : Nat := ofBytes ((c.drop off).take size)
def sfD (c : List Byte) : Nat :=
  match sfF c 0 1 with | 0 => 64 | 1 => 80 | 2 => 96 | 3 => 128 | 4 => 160 | 5 => 192 | _ => 256
def sfG (c : List Byte) : Nat := sfF c 1 1
def sfFq (c : List Byte) : Nat := sfF c 2 1 % 16
def sfScQ (c : List Byte) : Bool := bit (sfF c 2 1) 4
def sfBlkQ (c : List Byte) : Nat := if bit (sfF c 2 1) 5 then 16 else 32
def sfFkv (c : List Byte) : Nat := sfF c 3 1 % 16
def sfBlkKv (c : List Byte) : Nat := if bit (sfF c 3 1) 5 then 16 else 32
def sfFo (c : List Byte) : Nat := sfF c 4 1
def sfCausal (c : List Byte) : Bool := bit (sfF c 5 1) 0
def sfExplicit (c : List Byte) : Bool := bit (sfF c 5 1) 1
def sfWindow (c : List Byte) : Bool := bit (sfF c 5 1) 2
def sfGlobal (c : List Byte) : Bool := bit (sfF c 5 1) 3
def sfRotQ (c : List Byte) : Bool := bit (sfF c 6 1) 0
def sfRotK (c : List Byte) : Bool := bit (sfF c 6 1) 1
def sfHalves (c : List Byte) : Bool := bit (sfF c 6 1) 2
def sfScale (c : List Byte) : Nat := sfF c 8 4
def sfW (c : List Byte) : Nat := sfF c 12 4
def sfCap (c : List Byte) : Nat := sfF c 16 4
def sfRotDims (c : List Byte) : Nat := sfF c 20 2
def sfRotLine (c : List Byte) : Nat := sfF c 24 4

def sfCfgIx (op : OpWord) : Nat := oF op 20 1 % 64
def sfKpos0 (op : OpWord) : Nat := oF op 21 3 % 2 ^ 22
def sfTokens (op : OpWord) : Nat := oF op 24 2
def sfQpos (op : OpWord) : Nat := oF op 26 3 % 2 ^ 22
def sfKeys (op : OpWord) : Nat := oF op 29 3 % 2 ^ 20
def sfPartial (op : OpWord) : Bool := clsFlag op 15

/-- Is the key-value format FP8 with page scales? -/
def sfPaged (c : List Byte) : Bool := sfFkv c == 3 || sfFkv c == 4

def sfLenState (c : List Byte) (r : Nat) : Nat := r * pitch 32 (sfD c) + linesOf (8 * r)
def sfLenQ (c : List Byte) (r : Nat) : Nat :=
  r * pitch (fmtBits (sfFq c)) (sfD c) + (if sfScQ c then linesOf (r * ceilDiv (sfD c) (sfBlkQ c)) else 0)
def sfPitchKv (c : List Byte) : Nat := pitch (fmtBits (sfFkv c)) (sfD c)
def sfScLines (c : List Byte) : Nat :=
  if sfPaged c then linesOf (4 * (sfCap c / 32 + 1))
  else if sfFkv c == 7 then linesOf (sfCap c * ceilDiv (sfD c) (sfBlkKv c)) else 0
/-- Line offsets, within operand B, of the global list and of the explicit mask. -/
def sfGlobalAt (c : List Byte) : Nat := 2 * sfCap c * sfPitchKv c + 2 * sfScLines c
def sfMaskAt (c : List Byte) : Nat := sfGlobalAt c + (if sfGlobal c then 4 else 0)
def sfLenB (c : List Byte) (t : Nat) : Nat :=
  sfMaskAt c + (if sfExplicit c then t * ceilDiv (sfCap c) 512 else 0)
def sfLenR (c : List Byte) (r : Nat) : Nat := r * pitch (fmtBits (sfFo c)) (sfD c) + linesOf (4 * r)
def sfLenGrad (c : List Byte) (r : Nat) : Nat := (r + 2 * sfCap c) * pitch 32 (sfD c)

def sfLens (c : List Byte) (op : OpWord) : Lens :=
  let t := sfTokens op
  let r := t * sfG c
  let z := fun n => if t = 0 then 0 else n
  let res := if sfPartial op then sfLenState c r else sfLenR c r
  match opCode op with
  | 1 => { a := some (z (sfLenQ c r)), b := some (sfLenB c t),
           c := if opAccum op then some (z (sfLenState c r)) else none, out := some (z res) }
  | 2 => { a := some (z (2 * (r * pitch 16 (sfD c)) + 2 * linesOf (4 * r))), b := some (sfLenB c t),
           c := if opAccum op then some (z (sfLenGrad c r)) else none, out := some (z (sfLenGrad c r)) }
  | 3 => { a := some (z (sfLenState c r)), b := some (z (sfLenState c r)), out := some (z res) }
  | _ => { a := some (z (sfLenQ c r)), out := some (z (r * pitch (fmtBits (sfFo c)) (sfD c))) }

/-- Does the op read the frequency table (R224, R233)? -/
def sfUsesTable (c : List Byte) (op : OpWord) : Bool :=
  opCode op == 4 || ((opCode op == 1 || opCode op == 2) && (sfRotQ c || sfRotK c))

/-! ### SUMAC (R273 to R278) -/

def smRows (op : OpWord) : Nat := oF op 20 2
def smCols (op : OpWord) : Nat := oF op 22 2
def smFa (op : OpWord) : Nat := oF op 24 1 % 16
def smFb (op : OpWord) : Nat := oF op 24 1 / 16
def smFo (op : OpWord) : Nat := oF op 25 1 % 16
def smBlk (op : OpWord) : Nat := if bit (oF op 25 1) 4 then 16 else 32
def smScA (op : OpWord) : Bool := bit (oF op 25 1) 5
def smScB (op : OpWord) : Bool := bit (oF op 25 1) 6
def smScO (op : OpWord) : Bool := bit (oF op 25 1) 7
def smSlot (op : OpWord) : Nat := oF op 26 1 / 16
def smPred (op : OpWord) : Nat := oF op 26 1 % 8
def smBcast (op : OpWord) : Nat := oF op 27 1 % 4
def smBias (op : OpWord) : Bool := bit (oF op 27 1) 2
def smMaskB (op : OpWord) : Bool := bit (oF op 27 1) 3
def smLse (op : OpWord) : Bool := bit (oF op 27 1) 4
def smImm (op : OpWord) : Nat := oF op 28 4
def smCompat (op : OpWord) : Bool := clsFlag op 13
def smIsReduce (c : Nat) : Bool := c == 10 || c == 11 || c == 12
def smIsNorm (c : Nat) : Bool := c == 13 || c == 14
/-- Does B hold a value operand? -/
def smValueB (c : Nat) : Bool := c == 1 || c == 2 || c == 3 || c == 4 || c == 5 || c == 9 || c == 12
/-- Does B hold a mask? -/
def smMaskOp (op : OpWord) : Bool := opCode op == 6 || (opCode op == 15 && smMaskB op)
def smUsesB (op : OpWord) : Bool := smValueB (opCode op) || smMaskOp op || smIsNorm (opCode op)
/-- Products of two unscaled integers in SM_MUL and SM_ROWDOT. -/
def smIntProd (op : OpWord) : Bool :=
  (opCode op == 2 || opCode op == 12) && fmtIsInt (smFa op) && !smScA op && fmtIsInt (smFb op) && !smScB op
def smOutFmt (op : OpWord) : Nat := if smIntProd op && smFo op == 0 then 0x10 else smFo op

def smScLen (op : OpWord) (sc : Bool) (m : Nat) : Nat :=
  if sc then linesOf (m * ceilDiv (smCols op) (smBlk op)) else 0
def smLenA (op : OpWord) (m : Nat) : Nat := m * pitch (fmtBits (smFa op)) (smCols op) + smScLen op (smScA op) m
def smMaskLines (op : OpWord) : Nat := ceilDiv (smCols op) 512
def smLenB (op : OpWord) (m : Nat) : Nat :=
  let row := pitch (fmtBits (smFb op)) (smCols op)
  if smIsNorm (opCode op) then
    let one := row + smScLen op (smScB op) 1
    if smBias op then 2 * one else one
  else if smMaskOp op then (if smBcast op = 0 then m * smMaskLines op else smMaskLines op)
  else match smBcast op with
    | 0 => m * row + smScLen op (smScB op) m
    | 1 => row + smScLen op (smScB op) 1
    | 2 => pitch (fmtBits (smFb op)) m
    | _ => 1
def smLenC (op : OpWord) (m : Nat) : Nat :=
  if smIsReduce (opCode op) then pitch 32 m else m * pitch 32 (smCols op)
def smLenO (op : OpWord) (m : Nat) : Nat :=
  if smIsReduce (opCode op) then pitch 32 m
  else if opCode op == 5 then m * smMaskLines op
  else m * pitch (fmtBits (smOutFmt op)) (smCols op) + smScLen op (smScO op) m
    + (if opCode op == 15 && smLse op then pitch 32 m else 0)

def smLens (op : OpWord) : Lens :=
  let m := smRows op
  { a := some (smLenA op m)
    b := if smUsesB op then some (smLenB op (max m 1)) else none
    c := if opAccum op then some (smLenC op m) else none
    out := some (smLenO op m) }

/-! ### ANISE (R309 to R312) -/

def anRows (op : OpWord) : Nat := if opCode op == 1 then oF op 20 2 % 8192 else oF op 20 2 % 32
def anSpix (op : OpWord) : Nat := oF op 22 2 % 4096
def anVocab (op : OpWord) : Nat := oF op 24 4 % 2 ^ 21
def anDraftIx (op : OpWord) : Nat := bits (oF op 24 4) 25 21
def anFmt (op : OpWord) : Nat := bits (oF op 24 4) 31 28
def anPos (op : OpWord) : Nat := oF op 28 4 % 2 ^ 22
def anReport (op : OpWord) : Bool := clsFlag op 15
def anDrafts (op : OpWord) : Bool := clsFlag op 14
def anQgreedy (op : OpWord) : Bool := clsFlag op 13

def anPitch (op : OpWord) : Nat := pitch (fmtBits (anFmt op)) (anVocab op)
/-- Line of the draft token ids within operand A of AN_VERIFY. -/
def anIdsAt (op : OpWord) : Nat :=
  (anRows op + 1 + (if anQgreedy op then 0 else anRows op)) * anPitch op
def anLens (op : OpWord) : Lens :=
  let k := anRows op
  { a := some (if k = 0 then 0 else if opCode op == 1 then k * anPitch op else anIdsAt op + linesOf (4 * k))
    b := some 16384
    c := if opAccum op then some 257 else none
    out := some (if k = 0 then 0 else if opCode op == 1 then linesOf (8 * k) else 3) }

/-! ### CLOVE (R327 to R340) -/

def clSrc (op : OpWord) : Nat := oF op 20 1 % 4
def clDst (op : OpWord) : Nat := oF op 20 1 / 4 % 4
def clHint (op : OpWord) : Nat := oF op 20 1 / 16 % 4
def clFs (op : OpWord) : Nat := oF op 21 1 % 16
def clFd (op : OpWord) : Nat := oF op 21 1 / 16
def clRows (op : OpWord) : Nat := oF op 22 2
def clE (op : OpWord) : Nat := oF op 24 4 % 2 ^ 24
def clScS (op : OpWord) : Bool := bit (oF op 24 4) 24
def clScD (op : OpWord) : Bool := bit (oF op 24 4) 25
def clBlk (op : OpWord) : Nat := if bit (oF op 24 4) 26 then 16 else 32
def clHasRec (op : OpWord) : Bool := decide (opCode op ≤ 5) && clsFlag op 15
/-- Bytes are copied exactly (R333). -/
def clRaw (op : OpWord) : Bool := clFs op == clFd op && !clScS op && !clScD op

def kvList (op : OpWord) : Nat := oF op 20 1
def kvLayer (op : OpWord) : Nat := oF op 21 1
def kvPageOff (op : OpWord) : Nat := oF op 22 2 % 2048
def kvRb (op : OpWord) : Nat := oF op 24 2
def kvPlanes (op : OpWord) : Nat := oF op 26 1
def kvHint (op : OpWord) : Nat := oF op 27 1 % 4
def kvPerPage (op : OpWord) : Bool := bit (oF op 27 1) 2
def kvPstride (op : OpWord) : Nat := oF op 28 4

/-- One side of a transfer: rows of `n` elements placed by row and plane strides, in lines from its operand. `own`
marks an indexed side, whose rows carry their own scales. -/
structure Side where
  fmt : Nat
  n : Nat
  rows : Nat
  planes : Nat
  rs : Nat
  ps : Nat
  scBytes : Nat
  own : Bool
  /-- `CL_ROWS`, which the default plane stride counts (R334). -/
  r : Nat
deriving DecidableEq, Repr

def sidePitch (x : Side) : Nat := pitch (fmtBits x.fmt) x.n
/-- Default row stride (R330, R335). -/
def sideStep (x : Side) : Nat := sidePitch x + (if x.own then linesOf x.scBytes else 0)
def sideRs (x : Side) : Nat := if x.rs = 0 then sideStep x else x.rs
def sidePs (x : Side) : Nat := if x.ps = 0 then x.r * sideRs x else x.ps
/-- Line of the scales of a consecutive side, from the start of its plane. -/
def sideScAt (x : Side) : Nat := (x.rows - 1) * sideRs x + sidePitch x
/-- Lines that a consecutive side covers. -/
def sideLines (x : Side) : Nat :=
  if x.rows = 0 then 0
  else (x.planes - 1) * sidePs x + sideScAt x + (if x.own then linesOf x.scBytes else linesOf (x.rows * x.scBytes))

/-- Source and destination sides of CL_COPY to CL_FILL. With no row the op is a zero-length op (R345). -/
def clSrcSide (op : OpWord) (r : Option ClRec) : Side :=
  { fmt := clFs op, n := clE op, rows := clRows op, planes := (r.map (·.planes)).getD 1,
    rs := (r.map (·.srow)).getD (oF op 28 2), ps := (r.map (·.splane)).getD 0,
    scBytes := if clScS op then ceilDiv (clE op) (clBlk op) else 0, own := opCode op == 2 && clScS op, r := clRows op }
def clDstSide (op : OpWord) (r : Option ClRec) : Side :=
  let tr := opCode op == 4
  { fmt := clFd op, n := if tr then clRows op else clE op, rows := if tr && clRows op != 0 then clE op else clRows op,
    planes := (r.map (·.planes)).getD 1, rs := (r.map (·.drow)).getD (oF op 30 2),
    ps := (r.map (·.dplane)).getD 0,
    scBytes := if clScD op then ceilDiv (clE op) (clBlk op) else 0, own := opCode op == 3 && clScD op, r := clRows op }

/-- First line and length in lines of an indexed side (R633): from the lowest to the highest row used. -/
def idxSpan (x : Side) (idx : List Nat) : Nat × Nat :=
  match idx with
  | [] => (0, 0)
  | i :: is =>
    let lo := is.foldl min i
    let hi := is.foldl max i
    (lo * sideRs x, (hi - lo) * sideRs x + sideStep x)

/-- The index entries that a gather or scatter uses, from entry `s` on. -/
def usedIdx (op : OpWord) (s : Nat) (r : ClRec) : List Nat := (r.idx.drop s).take (clRows op)

/-- Offset in lines and length of the source and of the destination, from their operand fields. -/
def clSpans (op : OpWord) (s : Nat) (r : Option ClRec) : (Nat × Nat) × (Nat × Nat) :=
  let src := clSrcSide op r
  let dst := clDstSide op r
  let ix := match r with | some x => usedIdx op s x | none => []
  ((if opCode op == 2 then idxSpan src ix else (0, if opCode op == 5 then 0 else sideLines src)),
   (if opCode op == 3 then idxSpan dst ix else (0, sideLines dst)))

/-- Lines of operand B with a record and, in a gather or scatter, its list (R335, R633). -/
def clLenB (op : OpWord) (r : Option ClRec) : Nat :=
  match r with
  | some x => if opCode op == 2 || opCode op == 3 then 1 + linesOf (4 * x.nidx) else 1
  | none => 1

def clLens (op : OpWord) (s : Nat) (r : Option ClRec) : Lens :=
  if opCode op == 6 then { b := some 1, out := some (kvPlanes op * kvPstride op) }
  else if opCode op == 7 then { a := some (kvPlanes op * kvPstride op), b := some 1 }
  else
    let sp := clSpans op s r
    let known := !clHasRec op || r.isSome
    { a := if clSrc op = 0 && opCode op != 5 && known then some sp.1.2 else none
      b := if clHasRec op then some (clLenB op r) else none
      out := if clDst op = 0 && known then some sp.2.2 else none }

/-! ### FENNEL and MACE (R253, R254, R431, R432) -/

def fnWaitA (op : OpWord) : Bool := clsFlag op 15
def fnList (op : OpWord) : Nat := oF op 20 1
def fnLayer0 (op : OpWord) : Nat := oF op 21 1
def fnLayers (op : OpWord) : Nat := if oF op 22 1 = 0 then 256 else oF op 22 1
def fnPos (op : OpWord) : Nat := oF op 24 4 % 2 ^ 22
def fnSlot (op : OpWord) : Nat := oF op 28 2 % 4096
def fnCount (op : OpWord) : Nat := oF op 30 2
def fnLens (op : OpWord) : Lens := { a := if fnWaitA op then some 1 else none, out := some 1 }

def maDest (op : OpWord) : Nat := oF op 20 1 % 4
def maPos (op : OpWord) : Nat := oF op 20 1 / 4 % 4
def maWindow (op : OpWord) : Nat := oF op 21 1
def maChannel (op : OpWord) : Nat := oF op 22 2 % 4096
def maOffset (op : OpWord) : Nat := oF op 24 3
def maFmt (op : OpWord) : Nat := oF op 27 1 % 16
def maBlk (op : OpWord) : Nat := if bit (oF op 27 1) 4 then 16 else 32
def maTgt (op : OpWord) : Nat := if bit (oF op 27 1) 5 then 1 else 0
def maRidx (op : OpWord) : Nat := oF op 28 1
def maRowLines (op : OpWord) : Nat := if oF op 29 1 = 0 then 256 else oF op 29 1
def maRows (op : OpWord) : Nat := oF op 30 2
/-- Elements per contribution row. -/
def maE (op : OpWord) : Nat := maRowLines op * 512 / fmtBits (maFmt op)
def maFp8 (op : OpWord) : Bool := maFmt op == 3 || maFmt op == 4
/-- Target lines of the whole contribution. -/
def maTgtLines (op : OpWord) : Nat := linesOf (maRows op * maE op * (if maTgt op = 1 then 2 else 4))
def maLens (op : OpWord) : Lens :=
  { a := some (maRows op * maRowLines op + (if maFp8 op then linesOf (maRows op * maE op / maBlk op) else 0)) }

/-! ### Every class -/

/-- The slot operand lengths of an op whose bound fields are filled in; `cfg` is its attention configuration. -/
def opLens (cfg : List Byte) (op : OpWord) (s : Nat) (r : Option ClRec) : Lens :=
  match opClass op with
  | 1 => cmLens op
  | 2 => sfLens cfg op
  | 3 => smLens op
  | 4 => anLens op
  | 5 => clLens op s r
  | 6 => fnLens op
  | 7 => maLens op
  | _ => {}

/-- The attention configuration that an op names; an unloaded one reads as no bytes. -/
def opCfg (s : State) (op : OpWord) : List Byte :=
  match mapGet none s.cfg.attn (sfCfgIx op) with
  | some c => c
  | none => []

/-- An op with its bound fields filled in from a record's values (R126, R196, R221, R255, R277, R311, R332, R432). -/
def bindOp (cfg : List Byte) (op : OpWord) (b : BoundRec) : OpWord :=
  if !opBound op then op
  else match opClass op with
    | 1 => putF op 20 2 b.new
    | 2 =>
      let e := b.start + b.new
      let lk := min e (sfCap cfg)
      let op1 := putF (putF op 24 2 b.new) 26 3 b.start
      if opCode op == 3 then putF op 24 2 b.new
      else if opCode op == 4 then op1
      else putF (putF op1 29 3 lk) 21 3 (e - lk)
    | 3 => putF op 20 2 b.new
    | 4 =>
      let op1 := putF (putF op 22 2 b.sample) 28 4 b.start
      if opCode op == 1 then putF op1 20 2 b.new else putF op1 20 2 b.drafts
    | 5 => putF op 22 2 b.new
    | 6 =>
      let op1 := putF op 28 2 b.slot
      if opCode op == 1 then putF (putF op1 24 4 b.start) 30 2 b.new else putF op1 24 4 (b.start + b.new)
    | 7 => putF op 30 2 b.new
    | _ => op

/-- First list entry of a bound gather (R332). -/
def bindIdx (op : OpWord) (b : BoundRec) : Nat :=
  if opBound op && opClass op == 5 && opCode op == 2 then b.tokOff else 0

/-- Lines added to operand `k` by the loops around the op. -/
def advOf (adv : List Nat) (k : Nat) : Nat := adv.getD k 0

/-- Extra line offset of an indexed side from its operand (R633). -/
def clOffs (op : OpWord) (s : Nat) (r : Option ClRec) (k : Nat) : Nat :=
  if opClass op == 5 && decide (opCode op ≤ 5) then
    (if k = 0 then (clSpans op s r).1.1 else if k = 3 then (clSpans op s r).2.1 else 0)
  else 0

def extOf (own base : Nat) (op : OpWord) (adv : List Nat) (offs : Nat → Nat) (k : Nat) : Option Nat → List Ext
  | some n => [⟨refTile own (opRef op k), base + refLine (opRef op k) + advOf adv k + offs k, n, k⟩]
  | none => []

/-- Input extents of an op (operands A, B, C and the frequency table). -/
def insOf (cfg : List Byte) (own base : Nat) (op : OpWord) (adv : List Nat) (s : Nat) (r : Option ClRec) : List Ext :=
  let l := opLens cfg op s r
  let o := clOffs op s r
  extOf own base op adv o 0 l.a ++ extOf own base op adv o 1 l.b ++ extOf own base op adv o 2 l.c
    ++ (if opClass op == 2 && sfUsesTable cfg op
        then [⟨own, base + sfRotLine cfg, linesOf (2 * sfRotDims cfg), 4⟩] else [])

/-- Output extents of an op. -/
def outsOf (cfg : List Byte) (own base : Nat) (op : OpWord) (adv : List Nat) (s : Nat) (r : Option ClRec) : List Ext :=
  extOf own base op adv (clOffs op s r) 3 (opLens cfg op s r).out

end Sys2Proof.Machine
end

