-- ==== Sys2Proof/Machine/Admission.lean ====
section
/-!
DEFINITION. Capability records and the admission checks of every class (R42 to R66, R124, R143, R146, R196, R197, R221,
R241, R252 to R258, R277, R306, R311, R325, R329 to R346, R432, R433).
-/
namespace Sys2Proof.Machine

/-! ### Capability records (R54, R55) -/

structure Cap where
  inst : Nat
  clk : Nat
  inFmt : Nat
  outFmt : Nat
  scale : Nat
  rate : Nat
  opcodes : Nat
  limits : List Nat
deriving DecidableEq, Repr

/-- The capability record of a class; none for classes 0x0 and 0x9 to 0xF. -/
def capOf : Nat → Option Cap
  | 1 => some ⟨12, 4000, 0x03FF, 0x03FF, 3, 16384, 0x2, [1024, 32768, 128, 7, 280, 3, 0, 0]⟩
  | 2 => some ⟨2, 4000, 0x009A, 0x000F, 3, 16384, 0x1E, [64, 16, 4096, 512, 64, 0x7F, 64, 0]⟩
  | 3 => some ⟨2, 4000, 0x03FF, 0x03FF, 3, 128, 0xFFFE, [32768, 65535, 16, 64, 0x07FF, 0x07FF, 0, 0]⟩
  | 4 => some ⟨1, 4000, 0x0007, 0x0001, 0, 128, 0x6, [16, 1024, 4096, 16, 24, 4096, 0, 0]⟩
  | 5 => some ⟨4, 2000, 0x03FF, 0x03FF, 3, 500, 0xFE, [65535, 64, 16, 4096, 0, 0, 0, 0]⟩
  | 6 => some ⟨1, 2000, 0, 0, 0, 0, 0x6, [15, 256, 32, 256, 64, 0, 0, 0]⟩
  | 7 => some ⟨64, 1000, 0x001B, 0x0003, 3, 64, 0x2, [256, 65535, 256, 64, 0, 0, 0, 0]⟩
  | 8 => some ⟨1, 4000, 0, 0, 0, 0, 0x10003003E, [0, 0, 0, 0, 0, 0, 0, 0]⟩
  | _ => none

/-- The 64 bytes of a record (R54). -/
def capBytes (cls : Nat) : List Byte :=
  match capOf cls with
  | none => []
  | some c =>
    layout 48 [(0, 1, cls), (1, 1, 0x22), (2, 1, c.inst), (3, 1, 8), (4, 2, c.clk), (6, 2, c.inFmt), (8, 2, c.outFmt),
      (10, 1, c.scale), (12, 4, c.rate), (16, 32, c.opcodes)] ++ c.limits.flatMap (le 2)

/-- Is the opcode set in the class's `CAP_OPCODES`? The no-op class has opcode 0 only (R44). -/
def opcodeKnown (cls code : Nat) : Bool :=
  if cls = 0 then code == 0 else match capOf cls with
    | some c => bit c.opcodes code
    | none => false

/-- Selectors of `CTL_CAP_REQUIRE` (R56). -/
def capSelector (sel : Nat) : Bool := sel ≤ 4 || (8 ≤ sel && sel ≤ 15)

def capTest (cls sel v : Nat) : Bool :=
  match capOf cls with
  | none => false
  | some c =>
    if sel = 0 then decide (v ≤ c.inst)
    else if sel = 1 then subMask v c.inFmt
    else if sel = 2 then subMask v c.outFmt
    else if sel = 3 then subMask v c.scale
    else if sel = 4 then decide (v < 256) && bit c.opcodes v
    else decide (v ≤ c.limits.getD (sel - 8) 0)

/-! ### What a check sees -/

/-- A step loop around an op, as its parameters give it (R124). -/
structure LoopInfo where
  unit : Nat
  kinds : Nat
  rows : Nat
  stride : Nat
  adv : Nat
deriving DecidableEq, Repr

def loopInfo (op : OpWord) : LoopInfo :=
  ⟨oF op 20 1, oF op 21 1, oF op 22 2, oF op 24 4, oF op 28 1⟩

/-- What admission knows of the task: its tile, descriptor, minor version, whether it is a registered step task, and
the job's limits and step counters. -/
structure Adm where
  own : Nat
  desc : DescWord
  minor : Nat
  step : Bool
  budget : Nat
  seqs : Nat
  drafts : Nat
  counters : List Nat
deriving DecidableEq, Repr

/-- Where the walk over the op list stands: open loops innermost first, barriers arrived at, and whether an op other
than a capability test has been met. -/
structure Walk where
  loops : List LoopInfo := []
  arrived : List Nat := []
  other : Bool := false
deriving DecidableEq, Repr

/-- Largest bound row count that the job limits allow (R196). -/
def maxRows (x : Adm) (ls : List LoopInfo) : Nat :=
  match ls with
  | [] => 0
  | l :: _ =>
    if l.unit = 1 then l.rows
    else if bit l.kinds 0 then x.budget
    else if bit l.kinds 2 then 1 + x.drafts
    else 1

/-- Largest iteration count of a loop; `nested` says that it stands inside a unit 0 loop. Only a loop over the records of a
step is capped by the token budget as a whole: a loop over sequences counts the sequences per step, and one inside it the
rows of one speculative record, at their own limits (DEDUCED, log entry 111). -/
def maxIters (x : Adm) (l : LoopInfo) (nested : Bool) : Nat :=
  if l.unit = 0 then max 1 x.seqs
  else
    let per := if bit l.kinds 2 then 1 + x.drafts else 1
    let toks := if bit l.kinds 0 then x.budget else if nested then per else min x.budget (x.seqs * per)
    max 1 (ceilDiv toks l.rows)

/-- Lines that the loops around an op add at most to operand `k` (R125, check 8 of R57). -/
def reach (x : Adm) : List LoopInfo → Nat → Nat
  | [], _ => 0
  | l :: ls, k => (if bit l.adv k then (maxIters x l (!ls.isEmpty) - 1) * l.stride else 0) + reach x ls k

/-- A unit 0 loop, or a unit 1 loop directly inside one (R221). -/
def seqLoop (ls : List LoopInfo) : Bool :=
  match ls with
  | [] => false
  | [l] => l.unit == 0
  | l :: o :: _ => l.unit == 0 || o.unit == 0

/-- The values that make a bound op largest. -/
def maxBind (x : Adm) (ls : List LoopInfo) : BoundRec := { new := maxRows x ls, drafts := x.drafts }

def badFmt (f : Nat) : Bool := 10 ≤ f
def isFp6 (f : Nat) : Bool := f == 5 || f == 6
/-- Is the FP32 code a finite number? -/
def fin32 (c : Nat) : Bool := c / 2 ^ 23 % 256 != 255
/-- FP32 code of a negative number. -/
def neg32 (c : Nat) : Bool := bit c 31 && c % 2 ^ 31 != 0

/-! ### Class checks: 4 UNSUPPORTED, 7 FORMAT, 0 passed -/

def firstFault (l : List (Bool × Nat)) : Nat :=
  match l.find? (·.1) with
  | some p => p.2
  | none => 0

/-- R196, R197. -/
def cmCheck (x : Adm) (ls : List LoopInfo) (op : OpWord) : Nat :=
  let fo := cmFo op
  firstFault [
    (badFmt (cmFa op) || badFmt (cmFb op) || cmIntA op != cmIntB op, fUnsupported),
    ((cmScA op && !fmtScalable (cmFa op)) || (cmScB op && !fmtScalable (cmFb op)), fUnsupported),
    (cmBlk op == 16 && decide (x.minor < 2), fUnsupported),
    (clsFlag op 13 && (decide (x.minor < 1) || cmInt op || fo == 0 || fo == 8), fUnsupported),
    ((isFp6 (cmFa op) || isFp6 (cmFb op) || (!cmInt op && isFp6 fo)) && decide (x.minor < 1), fUnsupported),
    (cmInt op && ((fo != 0 && fo != 8 && fo != 9) || cmScO op), fUnsupported),
    (!cmInt op && (decide (8 < fo) || (fo == 8 && !cmScO op) || (cmScO op && !fmtScalable fo)), fUnsupported),
    (cmTA op && cmScA op, fUnsupported),
    ((cmTA op || cmTB op) && (cmPack op == 1 || cmPack op == 2), fUnsupported),
    (cmPack op == 3 || oF op 23 1 / 8 != 0 || oF op 20 2 / 2048 != 0, fFormat),
    (cmN op == 0 || decide (cmNmax op < cmN op) || decide (cmRowLimit op < cmM op) || decide (32768 < cmK op), fFormat),
    (cmHalf op == 1 && !(cmTB op && is4bit (cmFb op)), fFormat),
    (clsFlag op 12 && (cmInt op || fo != 3), fFormat),
    (cmPitchF op != 0 && (!cmTB op || cmScB op || decide (cmPitchF op < cmPb op)), fFormat),
    (cmTsF op != 0 && decide (cmTsF op < cmTsDef op), fFormat),
    (rowBreaks (cmFa op) (if cmTA op then cmM op else cmK op) || rowBreaks (cmOutFmt op) (cmN op), fFormat),
    (opBound op && (cmM op != 0 || cmTA op || decide (cmRowLimit op < maxRows x ls)), fFormat)]

/-- R219 to R221, R241. -/
def sfCheck (s : State) (x : Adm) (ls : List LoopInfo) (op : OpWord) : Nat :=
  match mapGet none s.cfg.attn (sfCfgIx op) with
  | none => fFormat
  | some c =>
    let o := opCode op
    let attn := o == 1 || o == 2
    let unusedSet := (o == 3 && (sfKpos0 op != 0 || sfQpos op != 0 || sfKeys op != 0))
      || (o == 4 && (sfKpos0 op != 0 || sfKeys op != 0))
    firstFault [
      (decide (x.minor < 2) && ((attn && (sfGlobal c || sfBlkKv c == 16))
          || ((o == 1 || o == 4) && sfScQ c && sfBlkQ c == 16)), fUnsupported),
      (o == 2 && (sfFq c != 1 || sfFkv c != 1 || sfFo c != 0), fUnsupported),
      (o == 4 && ((sfFo c != 0 && sfFo c != 1) || sfRotDims c == 0), fUnsupported),
      (oF op 20 1 / 64 != 0 || oF op 21 3 / 2 ^ 22 != 0 || oF op 26 3 / 2 ^ 22 != 0 || oF op 29 3 / 2 ^ 20 != 0
          || clsFlag op 13 || clsFlag op 12, fFormat),
      (unusedSet, fFormat),
      (sfPartial op && o != 1 && o != 3, fFormat),
      (opAccum op && !attn, fFormat),
      (clsFlag op 14 && (sfFo c != 3 || sfPartial op), fFormat),
      (opBound op && (sfKpos0 op != 0 || sfTokens op != 0 || sfQpos op != 0 || sfKeys op != 0 || !seqLoop ls
          || decide (32768 < maxRows x ls)), fFormat),
      (!opBound op && (decide (32768 < sfTokens op) || decide (sfCap c < sfKeys op)
          || decide (2 ^ 22 < sfKpos0 op + sfKeys op)
          || (sfTokens op != 0 && decide (2 ^ 22 < sfQpos op + sfTokens op))), fFormat)]

/-- R277, R286, R298, R306. -/
def smCheck (s : State) (x : Adm) (ls : List LoopInfo) (op : OpWord) : Nat :=
  let o := opCode op
  let vb := smValueB o || smIsNorm o
  let fixed := smIsReduce o || o == 5
  let intA := fmtIsInt (smFa op) && !smScA op
  let intB := fmtIsInt (smFb op) && !smScB op
  let fo := smOutFmt op
  firstFault [
    (badFmt (smFa op) || badFmt (smFo op) || badFmt (smFb op), fUnsupported),
    ((o == 2 || o == 12) && intA != intB, fUnsupported),
    ((smScA op && !fmtScalable (smFa op)) || (smScB op && vb && !fmtScalable (smFb op))
        || (smScO op && !fmtScalable (smFo op)), fUnsupported),
    (smBlk op == 16 && decide (x.minor < 2), fUnsupported),
    (clsFlag op 15 && (decide (x.minor < 1) || fo == 0 || fo == 8 || fo == 9 || fo == 0x10), fUnsupported),
    (decide (x.minor < 1) && (isFp6 (smFa op) || isFp6 (smFo op) || (vb && isFp6 (smFb op))), fUnsupported),
    (smCompat op && (o == 8 || o == 9) && decide (10 < smSlot op), fUnsupported),
    (smCols op == 0 || decide (32768 < smCols op) || bit (oF op 26 1) 3 || oF op 27 1 / 32 != 0 || clsFlag op 12
        || decide (5 < smPred op), fFormat),
    ((o == 8 || o == 9) && !smCompat op && !(mapGet {} s.cfg.tables (x.own * 32 + smSlot op)).loaded, fFormat),
    (o != 8 && o != 9 && smSlot op != 0, fFormat),
    (fixed && smFo op != 0, fFormat),
    (!smUsesB op && (smBcast op != 0 || smScB op), fFormat),
    (smMaskOp op && (decide (1 < smBcast op) || smScB op), fFormat),
    (smIsNorm o && smBcast op != 1, fFormat),
    (smValueB o && smScB op && decide (1 < smBcast op), fFormat),
    ((smBias op && o != 14) || ((smMaskB op || smLse op) && o != 15), fFormat),
    (opAccum op && (o == 5 || o == 6 || o == 15), fFormat),
    (!fin32 (smImm op) || (smIsNorm o && neg32 (smImm op)), fFormat),
    (clsFlag op 14 && fo != 3, fFormat),
    (rowBreaks (smFa op) (smCols op) || (vb && decide (smBcast op ≤ 1) && rowBreaks (smFb op) (smCols op))
        || (smValueB o && smBcast op == 2 && !opBound op && rowBreaks (smFb op) (smRows op))
        || (!fixed && rowBreaks fo (smCols op)), fFormat),
    (opBound op && (smRows op != 0 || decide (65535 < maxRows x ls)), fFormat)]

/-- R309 to R311, R325. A reserved or E8M0 code fails check 6 before check 7 sees the other reserved codes of `AN_FMT`
(R160, R325; DEDUCED, log entry 110). -/
def anCheck (x : Adm) (ls : List LoopInfo) (op : OpWord) : Nat :=
  let o := opCode op
  firstFault [
    (badFmt (anFmt op), fUnsupported),
    ((o == 1 && oF op 20 2 / 8192 != 0) || (o == 2 && oF op 20 2 / 32 != 0) || oF op 22 2 / 4096 != 0
        || bits (oF op 24 4) 27 26 != 0 || oF op 28 4 / 2 ^ 22 != 0 || clsFlag op 12 || decide (2 < anFmt op), fFormat),
    (anVocab op == 0 || decide (2 ^ 20 < anVocab op), fFormat),
    ((o == 1 && decide (4096 < anRows op)) || (o == 2 && decide (16 < anRows op)), fFormat),
    (opHold op, fFormat),
    (anReport op && !x.step, fFormat),
    ((anDrafts op && o != 1) || (anQgreedy op && o != 2), fFormat),
    ((anDraftIx op != 0 && !anDrafts op) || decide (16 < anDraftIx op), fFormat),
    (opBound op && (oF op 20 2 != 0 || oF op 22 2 != 0 || oF op 28 4 != 0 || !seqLoop ls
        || (o == 1 && decide (4096 < maxRows x ls))), fFormat)]

def pageBytes (p : PoolParams) : Nat := 16384 * 2 ^ p.pageSize

/-- Does a key-value op's layer and page layout fit the pool (R339)? -/
def kvFits (p : PoolParams) (op : OpWord) : Bool :=
  let span := if kvPerPage op then kvPlanes op * kvRb op else 32 * kvPlanes op * kvRb op
  decide (kvLayer op < p.layers) && decide (64 * kvPageOff op + span ≤ pageBytes p)

/-- R330 to R339, R346. -/
def clCheck (s : State) (x : Adm) (ls : List LoopInfo) (op : OpWord) : Nat :=
  let o := opCode op
  if 6 ≤ o then
    let rb := kvRb op
    firstFault [
      (oF op 22 2 / 2048 != 0 || oF op 27 1 / 8 != 0 || opFlags op / 4096 != 0 || opAccum op, fFormat),
      (kvPerPage op && (decide (rb < 4) || decide (64 < rb) || rb % 4 != 0), fFormat),
      (!kvPerPage op && (decide (rb < 64) || decide (4096 < rb) || rb % 64 != 0), fFormat),
      (kvPlanes op == 0 || decide (64 < kvPlanes op), fFormat),
      (match s.fennel.pool with | some p => !kvFits p op | none => true, fFormat)]
  else
    let far := (if decide (2 ≤ clSrc op) then 1 else 0) + (if decide (2 ≤ clDst op) then 1 else 0)
    let w := fmtBits (clFs op)
    firstFault [
      (badFmt (clFs op) || badFmt (clFd op), fUnsupported),
      ((clScS op && !fmtScalable (clFs op)) || (clScD op && !fmtScalable (clFd op)), fUnsupported),
      (bit (oF op 24 4) 26 && decide (x.minor < 2), fUnsupported),
      (decide (x.minor < 1) && (isFp6 (clFs op) || isFp6 (clFd op)), fUnsupported),
      (clsFlag op 14 && (decide (x.minor < 1) || clFd op == 0 || fmtIsInt (clFd op)), fUnsupported),
      (oF op 20 1 / 64 != 0 || oF op 24 4 / 2 ^ 27 != 0 || clsFlag op 12 || opAccum op, fFormat),
      (far == 2 || (far == 1 && !clHasRec op), fFormat),
      (clHasRec op && (oF op 28 2 != 0 || oF op 30 2 != 0), fFormat),
      ((o == 2 || o == 3) && !clHasRec op, fFormat),
      (clE op == 0, fFormat),
      (o == 4 && (clFs op != clFd op || clScS op || clScD op || (w != 8 && w != 16 && w != 32)
          || clRows op % 64 != 0 || clE op * (w / 8) % 64 != 0 || opBound op), fFormat),
      (o == 5 && (clSrc op != 0 || opA op != 0), fFormat),
      (clsFlag op 13 && clFd op != 3, fFormat),
      ((o != 5 && rowBreaks (clFs op) (clE op)) || rowBreaks (clFd op) (clE op), fFormat),
      (opBound op && (clRows op != 0 || !seqLoop ls || decide (65535 < maxRows x ls)), fFormat)]

/-- R253 to R255. -/
def fnCheck (s : State) (x : Adm) (ls : List LoopInfo) (op : OpWord) : Nat :=
  let o := opCode op
  let layersBad := match s.fennel.pool with
    | none => true
    | some p => decide (p.layers < fnLayer0 op + fnLayers op)
        || !((List.range (fnLayers op)).all (fun i => p.home.getD (fnLayer0 op + i) 8 == x.own))
  firstFault [
    (oF op 23 1 != 0 || oF op 24 4 / 2 ^ 22 != 0 || oF op 28 2 / 4096 != 0 || bits (opFlags op) 14 12 != 0
        || opAccum op || opHold op, fFormat),
    ((o == 1 && decide (32768 < fnCount op)) || (o == 2 && (fnCount op == 0 || decide (4096 < fnCount op))), fFormat),
    (layersBad, fFormat),
    (o == 1 && !(opBound op && x.step), fFormat),
    (o == 2 && opBound op != x.step, fFormat),
    (opBound op && (fnSlot op != 0 || fnPos op != 0 || (o == 1 && fnCount op != 0) || !seqLoop ls), fFormat)]

/-- R431 to R434. -/
def maCheck (x : Adm) (ls : List LoopInfo) (op : OpWord) : Nat :=
  let f := maFmt op
  let pair := (maTgt op == 0 && (f == 0 || f == 1 || f == 3 || f == 4)) || (maTgt op == 1 && f == 1)
  firstFault [
    (!pair, fUnsupported),
    (bit (oF op 27 1) 4 && (decide (x.minor < 2) || f == 0 || f == 1), fUnsupported),
    (maDest op == 3 || oF op 20 1 / 16 != 0 || oF op 22 2 / 4096 != 0 || oF op 27 1 / 64 != 0, fFormat),
    (maDest op != 2 && maPos op != 0, fFormat),
    (maDest op == 2 && maWindow op != 0, fFormat),
    (maDest op != 1 && maChannel op != 0, fFormat),
    (opAccum op || opHold op || opCons op != 0 || opFlags op / 4096 != 0, fFormat),
    (opBound op && (maRows op != 0 || !seqLoop ls), fFormat)]

/-- Is every byte of the op from `lo` up to but not including `hi` zero, but for the given (offset, size) fields? -/
def restZero (op : OpWord) (lo hi : Nat) (used : List (Nat × Nat)) : Bool :=
  (List.range (hi - lo)).all (fun i =>
    used.any (fun u => decide (u.1 ≤ lo + i) && decide (lo + i < u.1 + u.2)) || oF op (lo + i) 1 == 0)

/-- Bytes of OP_PARAMS that each control op uses (R56, R124, R143). -/
def ctlUsed : Nat → List (Nat × Nat)
  | 1 => [(20, 2), (24, 8)]
  | 2 => [(20, 2), (24, 4)]
  | 3 => [(20, 2), (22, 2), (24, 4)]
  | 4 => [(20, 1)]
  | 5 => [(20, 1)]
  | 0x10 => [(20, 1), (21, 1), (22, 2), (24, 4), (28, 1)]
  | 0x20 => [(20, 1), (21, 1), (24, 4)]
  | _ => []

/-- Is the first open loop closed later in the list? `d` loops are open. -/
def loopCloses : Nat → List (OpWord × Bool) → Bool
  | _, [] => false
  | d, (op, _) :: rest =>
    if opClass op == 8 && opCode op == 0x10 then loopCloses (d + 1) rest
    else if opClass op == 8 && opCode op == 0x11 then (if d ≤ 1 then true else loopCloses (d - 1) rest)
    else loopCloses d rest

def loopParamsBad (op : OpWord) : Bool :=
  let u := oF op 20 1
  let k := oF op 21 1
  let r := oF op 22 2
  decide (1 < u) || decide (7 < k) || k == 0 || (u == 0 && r != 0) || (u == 1 && (r == 0 || decide (4096 < r)))
    || decide (2 ^ 21 ≤ oF op 24 4) || decide (15 < oF op 28 1)

/-- Control ops (R56, R124, R125, R143, R146, R152, R154). -/
def ctlCheck (x : Adm) (w : Walk) (rest : List (OpWord × Bool)) (op : OpWord) : Nat :=
  let o := opCode op
  let cnt := oF op 20 2
  firstFault [
    (o == 0x20 && decide (x.minor < 1), fUnsupported),
    (opFlags op % 4096 != 0 || oF op 4 16 != 0 || !restZero op 20 32 (ctlUsed o), fFormat),
    (if o == 1 then decide (1 < opFlags op / 4096) else opFlags op / 4096 != 0, fFormat),
    ((o == 1 || o == 2 || o == 3) && decide (4096 ≤ cnt), fFormat),
    (o == 3 && decide (4096 ≤ oF op 22 2), fFormat),
    ((o == 2 || o == 3) && oF op 24 4 == 0, fFormat),
    (o == 1 && clsFlag op 12 && !(x.step && x.counters.contains cnt), fFormat),
    ((o == 2 || o == 3) && x.step && !x.counters.contains cnt, fFormat),
    ((o == 4 || o == 5) && decide (63 < oF op 20 1), fFormat),
    (o == 5 && (!w.arrived.contains (oF op 20 1) || (x.step && oF op 20 1 == 0)), fFormat),
    ((o == 0x10 || o == 0x11) && !x.step, fFormat),
    (o == 0x10 && loopParamsBad op, fFormat),
    (o == 0x10 && (match w.loops with
        | [] => false
        | [l] => !(l.unit == 0 && oF op 20 1 == 1)
        | _ => true), fFormat),
    (o == 0x10 && !loopCloses 1 rest, fFormat),
    (o == 0x11 && w.loops.isEmpty, fFormat),
    (o == 0x20 && (w.other || !capSelector (oF op 21 1)), fFormat)]

/-! ### Checks 6 to 8 of one op -/

/-- Does the op have a slot output (R42)? -/
def hasOut (op : OpWord) : Bool :=
  match opClass op with
  | 1 => true | 2 => true | 3 => true | 4 => true | 6 => true
  | 5 => if opCode op == 6 then true else if opCode op == 7 then false else clDst op == 0
  | _ => false

/-- Is field `k` a slot reference of the op? -/
def isSlotRef (cfg : List Byte) (op : OpWord) (k : Nat) : Bool :=
  let l := opLens cfg op 0 none
  match k with
  | 0 => l.a.isSome || (opClass op == 5 && decide (opCode op ≤ 4) && clSrc op == 0)
  | 1 => l.b.isSome
  | 2 => l.c.isSome
  | _ => hasOut op

/-- May field `k` be non-zero? A package or window offset of CLOVE is no slot reference and has no reserved bits. -/
def fieldUsed (cfg : List Byte) (op : OpWord) (k : Nat) : Bool :=
  isSlotRef cfg op k || (opClass op == 5 && decide (opCode op ≤ 5)
    && ((k == 0 && clSrc op != 0 && opCode op != 5) || (k == 3 && clDst op != 0)))

/-- R42, R48 and R49. -/
def flagsCheck (x : Adm) (ls : List LoopInfo) (cfg : List Byte) (op : OpWord) : Nat :=
  let tagsOk := if hasOut op then (!opHold op && decide (1 ≤ opCons op)) || (opHold op && opCons op == 0)
    else !opHold op && opCons op == 0
  firstFault [
    (bit (opFlags op) 11 || bits (opFlags op) 7 6 != 0, fFormat),
    (!tagsOk, fFormat),
    (opBound op && !(x.step && !ls.isEmpty), fFormat),
    ((List.range 4).any (fun k => (!fieldUsed cfg op k && opRef op k != 0)
        || (isSlotRef cfg op k && refBad (opRef op k))), fFormat)]

/-- Largest list of a FENNEL op in bytes (R255, R256). -/
def fnListMax (p : PoolParams) (x : Adm) (ls : List LoopInfo) (op : OpWord) : Nat :=
  let all := ceilDiv p.maxLen 32
  let e := fnPos op
  let k0 := e - min e (128 * fnCount op)
  let blocks := if opCode op == 1 then
      (let n := maxRows x ls
       if n = 0 then 0 else min all ((n + 30) / 32 + 1) + 2)
    else if opBound op then min all (4 * fnCount op + 1)
    else if e = 0 then 0 else (e - 1) / 32 - k0 / 32 + 1
  16 + 8 * blocks * fnLayers op

/-- Check 8 (R48, R57, R255, R258, R328, R433). -/
def boundCheck (s : State) (x : Adm) (ls : List LoopInfo) (cfg : List Byte) (op : OpWord) : Bool :=
  let big := bindOp cfg op (maxBind x ls)
  let exts := insOf cfg x.own 0 big [0, 0, 0, 0] 0 none ++ outsOf cfg x.own 0 big [0, 0, 0, 0] 0 none
  let slotBad := exts.any (fun e =>
    decide (dBound x.desc < e.line + max e.lines 1 + (if e.opnd < 4 then reach x ls e.opnd else 0)))
  let pkgBad := opClass op == 5 && decide (opCode op ≤ 5)
    && ((clSrc op == 1 && opCode op != 5 && (dPkgBound x.desc == 0
          || (!clHasRec op && decide (dPkgBound x.desc
                < (opA op + reach x ls 0 + (clSpans big 0 none).1.2) * 64))))
      || (clDst op == 1 && (dPkgBound x.desc == 0
          || (!clHasRec op && decide (dPkgBound x.desc
                < (opOut op + reach x ls 3 + (clSpans big 0 none).2.2) * 64)))))
  let fnBad := opClass op == 6 && (match s.fennel.pool with
    | none => true
    | some p => decide (p.listBytes < fnListMax p x ls op)
        || (opCode op == 2 && !opBound op && decide (p.maxLen < fnPos op)))
  let maBad := opClass op == 7 && maDest op == 2
    && decide (dPkgBound x.desc < (maOffset op + maTgtLines big) * 64)
  slotBad || pkgBad || fnBad || maBad

/-- Checks 6 to 8 of one op; `rest` is the op list after it. -/
def checkOp (s : State) (x : Adm) (w : Walk) (rest : List (OpWord × Bool)) (op : OpWord) : Nat :=
  let cls := opClass op
  if decide (9 ≤ cls) || opVer op != 2 || !opcodeKnown cls (opCode op) then fUnsupported
  else if cls = 0 then (if op.toNat == 2 then 0 else fFormat)
  else if cls = 8 then ctlCheck x w rest op
  else
    let cfg := opCfg s op
    let c := match cls with
      | 1 => cmCheck x w.loops op
      | 2 => sfCheck s x w.loops op
      | 3 => smCheck s x w.loops op
      | 4 => anCheck x w.loops op
      | 5 => clCheck s x w.loops op
      | 6 => fnCheck s x w.loops op
      | _ => maCheck x w.loops op
    if c != 0 then c
    else
      let f := flagsCheck x w.loops cfg op
      if f != 0 then f
      else if boundCheck s x w.loops cfg op then fBound else 0

/-- The walk after an op. -/
def walkNext (w : Walk) (op : OpWord) : Walk :=
  if opClass op == 8 then
    match opCode op with
    | 0x04 => { w with arrived := oF op 20 1 :: w.arrived, other := true }
    | 0x10 => { w with loops := loopInfo op :: w.loops, other := true }
    | 0x11 => { w with loops := w.loops.tail, other := true }
    | 0x20 => w
    | _ => { w with other := true }
  else { w with other := true }

/-- Checks 6 to 8 over the list, in order; a line read poisoned refuses at its first op (R53). -/
def checkOps (s : State) (x : Adm) : Nat → Walk → List (OpWord × Bool) → Option (Nat × Nat)
  | _, _, [] => none
  | i, w, (op, bad) :: rest =>
    if bad then some (fPoison, i)
    else
      let c := checkOp s x w rest op
      if c != 0 then some (c, i) else checkOps s x (i + 1) (walkNext w op) rest

/-- Check 5: the first `CTL_CAP_REQUIRE` that fails (R56). -/
def checkCaps : Nat → List (OpWord × Bool) → Option (Nat × Nat)
  | _, [] => none
  | i, (op, bad) :: rest =>
    if !bad && opClass op == 8 && opVer op == 2 && opCode op == 0x20 && capSelector (oF op 21 1)
        && !capTest (oF op 20 1) (oF op 21 1) (oF op 24 4) then some (fUnsupported, i)
    else checkCaps (i + 1) rest

/-! ### Checks 1 to 4 of the descriptor -/

/-- The step counters that apply and the job limits, for a step task. -/
def admOf (s : State) (own : Nat) (d : DescWord) (p : Option StepSetParams) : Adm :=
  let minor := if dVer d / 16 == 1 then 2 else dVer d % 16
  match p with
  | some f => ⟨own, d, minor, dStepBind d, f.tokenBudget, f.seqsPerStep, f.drafts, f.counters⟩
  | none => match s.stepSet with
    | some ss => ⟨own, d, minor, false, 0, 0, 0, ss.params.counters⟩
    | none => ⟨own, d, minor, false, 0, 0, 0, []⟩

def verOne (v : Nat) : Bool := 0x10 ≤ v && v ≤ 0x13
def verKnown (v : Nat) : Bool := v == 0x20 || v == 0x21 || v == 0x22 || verOne v

/-- Check 3 (R50 to R52). -/
def descFormatBad (d : DescWord) (registered : Bool) (counters : List Nat) : Bool :=
  let waitBad := (List.range 4).any (fun i =>
    let c := (dWait d i).1
    if bit c 15 then bits c 14 12 != 0 || dF d (50 + 16 * i) 6 != 0
    else dF d (48 + 16 * i) 8 != 0 || (dWait d i).2 != 0)
  let sigBad := (List.range 2).any (fun i =>
    let c := (dSig d i).1
    if bit c 15 then bits c 14 12 != 0 || dF d (114 + 8 * i) 2 != 0 || (dSig d i).2 == 0
        || (registered && !counters.contains (c % 4096))
    else dF d (112 + 8 * i) 8 != 0)
  dF d 6 1 / 8 != 0 || dF d 8 4 / 2 ^ 21 != 0 || dPkgBase d % 64 != 0 || dPkgBase d / 2 ^ 39 != 0
    || dPkgBound d % 64 != 0 || dOpList d % 32 != 0 || dOpCount d == 0 || decide (2 ^ 20 < dOpCount d)
    || waitBad || sigBad || (dStepBind d && !registered)

/-- Check 4. -/
def descBoundBad (d : DescWord) : Bool :=
  dBound d == 0 || decide (2 ^ 21 < dBound d) || decide (2 ^ 21 < dBase d + dBound d)
    || decide (2 ^ 39 < dPkgBase d + dPkgBound d) || decide (2 ^ 39 < dOpList d + 32 * dOpCount d)

/-- Index reported for a descriptor check (R58). -/
def noOp : Nat := 0xFFFFFFFF

/-- What admission answers: a refusal with its fault code and op index, or the task's op list. -/
inductive Verdict where
  | refuse (code index : Nat)
  | accepted (ops : List OpWord) (compat : Bool)
deriving DecidableEq, Repr

/-! ### Contract 1.x (R64, R65) -/

/-- Lines of the scratch area: the last of the slot window (R65). -/
def scratchLines : Nat := 4096
/-- First line of the scratch area, within the slot window. -/
def scratchAt (d : DescWord) : Nat := dBound d - scratchLines

/-- Bit of `CLS_FLAGS` that asks for NaN on overflow, by class. -/
def nanOvfBit : Nat → Option Nat
  | 1 => some 12
  | 2 => some 14
  | 3 => some 14
  | 5 => some 13
  | _ => none

/-- The flags of a translated op: those the op has, its consumer count, NaN-on-overflow where the A6 default gives a NaN,
and the compatibility bank for a SUMAC op (R65, R298). -/
def a6Flags (x : Config.A6Op) : Nat :=
  let f := x.consumers % 64 + x.flags / 512 % 4 * 512 + x.flags / 4096 % 16 * 4096
  let f1 := match nanOvfBit x.cls with
    | some b => if x.nanDefault then setBit f b true else f
    | none => f
  if x.cls = 3 then setBit f1 13 true else f1

/-- The op of contract 2.2 that an A6 op becomes: offsets zero-extended, order and tags kept. -/
def a6Word (x : Config.A6Op) : OpWord :=
  BitVec.ofNat 256 (2 + x.cls % 16 * 16 + x.code % 256 * 2 ^ 8 + a6Flags x * 2 ^ 16
    + ((List.range 4).map (fun k => x.offsets.getD k 0 % 2 ^ 21 * 2 ^ (32 + 32 * k))).sum + x.params % 2 ^ 96 * 2 ^ 160)

/-- The CLOVE copy of `lines` lines from the package window to a slot line: bytes as INT8, one consumer. -/
def scratchCopy (line dest lines : Nat) : OpWord :=
  BitVec.ofNat 256 (0x52 + 2 ^ 8 + 2 ^ 16 + line % 2 ^ 32 * 2 ^ 32 + dest % 2 ^ 21 * 2 ^ 128
    + (1 + 0x88 * 2 ^ 8 + lines % 2 ^ 16 * 2 ^ 16 + 64 * 2 ^ 32) * 2 ^ 160)

/-- An op's package reads, each copied to its own granules of the scratch area, and the op reading them there. -/
def a6Copies (next : Nat) (op : OpWord) : List (Nat × Nat × Nat) → List OpWord
  | [] => [op]
  | (k, line, n) :: rest =>
    scratchCopy line next n :: a6Copies (next + roundUp n 64) (putF op (4 + 4 * k) 4 next) rest

/-- Does an op's package read pass the end of the scratch area? -/
def scratchFull (x : Config.A6Op) : Bool := decide (scratchLines < (x.pkgReads.map (fun p => roundUp p.2.2 64)).sum)

/-- Does an A6 op use the scratch area itself, as its slot extents say? An operand read from package memory does not. -/
def meetsScratch (s : State) (own : Nat) (d : DescWord) (x : Config.A6Op) : Bool :=
  let op := a6Word x
  let cfg := opCfg s op
  let l := insOf cfg own 0 op [0, 0, 0, 0] 0 none ++ outsOf cfg own 0 op [0, 0, 0, 0] 0 none
  l.any (fun e => e.tile == own && !x.pkgReads.any (fun p => p.1 == e.opnd) && decide (scratchAt d < e.line + max e.lines 1))

/-- Translation of a contract 1.x list; none where it refuses: the scratch area is needed and does not fit the window or
overlaps an extent of the task (R65), or the result passes 1,048,576 ops (R64). -/
def translate (s : State) (own : Nat) (d : DescWord) (ops : List OpWord) : Option (List OpWord) :=
  let xs := ops.map Config.a6Decode
  let reads := fun (x : Config.A6Op) => x.cls == 3 && !x.pkgReads.isEmpty
  if xs.any reads && (decide (dBound d < scratchLines) || xs.any (fun x => (reads x && scratchFull x) || meetsScratch s own d x))
  then none
  else
    let l := xs.flatMap (fun x => if reads x then a6Copies (scratchAt d) (a6Word x) x.pkgReads else [a6Word x])
    if 2 ^ 20 < l.length then none else some l

/-- Index of the first op that was read poisoned. -/
def poisonAt (ops : List (OpWord × Bool)) : Option Nat := ops.findIdx? (·.2)

/-- Checks 5 to 8 over an op list. `CTL_CAP_REQUIRE` is an op of contract 2.1 and later (R62). Of a line read poisoned and a
failing check the model reports, DESIGN CHOICE (log entry 107): a failing `CTL_CAP_REQUIRE` first, wherever it stands, then
whichever comes first in the list. -/
def judgeOps (s : State) (x : Adm) (compat : Bool) (ops : List (OpWord × Bool)) : Verdict :=
  match (if x.minor < 1 then none else checkCaps 0 ops) with
  | some (c, i) => .refuse c i
  | none => match checkOps s x 0 {} ops with
    | some (c, i) => .refuse c i
    | none => .accepted (ops.map (·.1)) compat

/-- Checks 2 to 4 of the descriptor (R57); a task of contract 1.x is no step task (R64). A task of a step task set without
`STEP_BIND` (R110) fails with check 3, which tests `STEP_BIND` (DEDUCED, log entry 112). -/
def judgeDesc (s : State) (d : DescWord) (x : Adm) (set : Bool) : Option Nat :=
  if dEpoch d != s.sec.epoch then some fAborted
  else if descFormatBad d set x.counters || (verOne (dVer d) && dStepBind d) || (set && !dStepBind d) then some fFormat
  else if descBoundBad d then some fBound
  else none

/-- Checks 2 to 8 over the list that PEPPER runs: of a contract 1.x task the translated one, whose indices it reports
(DESIGN CHOICE, log entry 12). -/
def judgeList (s : State) (d : DescWord) (x : Adm) (set compat : Bool) (ops : List (OpWord × Bool)) : Verdict :=
  match judgeDesc s d x set with
  | some c => .refuse c noOp
  | none => judgeOps s x compat ops

/-- The admission checks in their order (R57). `set` holds the registration's parameters for a step task. A contract 1.x
list is translated before checks 2 to 8 (R64); one with a line read poisoned is not translated, and refuses with `POISON`
at its own op once the descriptor has passed. -/
def judge (s : State) (own : Nat) (d : DescWord) (set : Option StepSetParams) (list : List (OpWord × Bool)) : Verdict :=
  let x := admOf s own d set
  if !verKnown (dVer d) then .refuse fUnsupported noOp
  else if verOne (dVer d) then
    match poisonAt list with
    | some i => match judgeDesc s d x set.isSome with
      | some c => .refuse c noOp
      | none => .refuse fPoison i
    | none => match translate s own d (list.map (·.1)) with
      | none => .refuse fUnsupported noOp
      | some l => judgeList s d x set.isSome true (l.map (fun o => (o, false)))
  else judgeList s d x set.isSome false list

/-! ### Reading descriptor and op list (R53) -/

/-- Ops of a run of bytes, with the poison of the codeword that each lies in. -/
def opsOf (dpa : Nat) : Nat → List (List Byte × Bool) → List (OpWord × Bool)
  | 0, _ => []
  | n + 1, cws =>
    match cws with
    | [] => []
    | (bs, p) :: rest =>
      if dpa % 64 = 0 then (BitVec.ofNat 256 (ofBytes (bs.take 32)), p) :: opsOf (dpa + 32) n cws
      else (BitVec.ofNat 256 (ofBytes (bs.drop 32)), p) :: opsOf (dpa + 32) n rest

/-- Read `n` ops from `dpa` up. -/
def readOps (dpa n : Nat) (s : State) : List (OpWord × Bool) × State :=
  let (cws, s1) := readCws 1 0 (dpa / 64) (cwSpan dpa (32 * n)) s
  (opsOf dpa n cws, s1)

/-- Read a descriptor: 128 bytes. -/
def readDesc (addr : Nat) (s : State) : (DescWord × Bool) × State :=
  let (r, s1) := pkgRead 1 0 addr 128 s
  ((BitVec.ofNat 1024 (ofBytes r.1), r.2), s1)

/-- Does the descriptor place an op list that can be read? -/
def listOk (d : DescWord) : Bool :=
  dOpList d % 32 == 0 && decide (dOpCount d ≤ 2 ^ 20) && decide (dOpList d + 32 * dOpCount d ≤ 2 ^ 39)

/-- Read and judge a task: its descriptor, the verdict and the state after the reads. -/
def admission (own addr : Nat) (set : Option StepSetParams) (s : State) : (DescWord × Verdict) × State :=
  let (r, s1) := readDesc addr s
  let d := r.1
  if r.2 then ((d, .refuse fPoison noOp), s1)
  else
    let early := !verKnown (dVer d) || !listOk d
      || (!verOne (dVer d) && (judgeDesc s d (admOf s own d set) set.isSome).isSome)
    let (list, s2) := if early then ([], s1) else readOps (dOpList d) (dOpCount d) s1
    ((d, judge s own d set list), s2)

end Sys2Proof.Machine
end

