-- ==== Sys2Proof/Machine/Flags.lean ====
section
/-!
DEFINITION. The status flags that the engines OR into their byte of the task status (R180, R210, R239, R304, R324,
R347, R474).
-/
namespace Sys2Proof.Machine

/-- What an op's conversions and decodings raised. -/
structure OpFlags where
  ev : Ev := {}
  /-- An integer sum saturated (R210, R304). -/
  isat : Bool := false
  /-- A block whose scale code is 0xFF was read (R171). -/
  nanScale : Bool := false
  /-- A function argument lay outside its domain (R304). -/
  domain : Bool := false
deriving DecidableEq, Repr

def flagsOr (a b : OpFlags) : OpFlags :=
  ⟨evOr a.ev b.ev, a.isat || b.isat, a.nanScale || b.nanScale, a.domain || b.domain⟩

/-- The CUMIN byte (R210): bits 0 to 4 SAT, NAN_OUT, FLUSH, ISAT, NAN_SCALE. -/
def cuminByte (f : OpFlags) : Nat := evBits f.ev + 8 * f.isat.toNat + 16 * f.nanScale.toNat

/-- The SAFFRON byte (R239): bits 0 to 4 SAT, NAN_OUT, FLUSH, NAN_SCALE, KV_TRUNC. -/
def saffronByte (f : OpFlags) (trunc : Bool) : Nat := evBits f.ev + 8 * f.nanScale.toNat + 16 * trunc.toNat

/-- The SUMAC byte (R304): bits 0 to 5 SAT, NAN_OUT, FLUSH, NAN_SCALE, DOMAIN, ISAT. -/
def sumacByte (f : OpFlags) : Nat :=
  evBits f.ev + 8 * f.nanScale.toNat + 16 * f.domain.toNat + 32 * f.isat.toNat

/-- What an ANISE op raised (R324). -/
structure AnFlags where
  bad : Bool := false
  empty : Bool := false
  inf : Bool := false
  nanIn : Bool := false
deriving DecidableEq, Repr

def anOr (a b : AnFlags) : AnFlags := ⟨a.bad || b.bad, a.empty || b.empty, a.inf || b.inf, a.nanIn || b.nanIn⟩

/-- The ANISE byte: bits 0 to 3. -/
def aniseByte (f : AnFlags) : Nat := f.bad.toNat + 2 * f.empty.toNat + 4 * f.inf.toNat + 8 * f.nanIn.toNat

/-- The CLOVE byte (R347): bits 0 to 3 SAT, NAN_OUT, FLUSH, NAN_SCALE. -/
def cloveByte (f : OpFlags) : Nat := evBits f.ev + 8 * f.nanScale.toNat

end Sys2Proof.Machine
end

