-- ==== Sys2Proof/Machine/Wire.lean ====
section
/-!
DEFINITION. What stands on the fibre: frames, identity records, packets with their headers, keys and nonces, and messages
(R377, R387, R404, R417, R575).
-/
namespace Sys2Proof.Machine

/-! ### CRC-32 (R377, R387; PRESUMED, log 124: the reflected polynomial 0xEDB88320 of IEEE 802.3) -/

def crcBit (c : Nat) : Nat := if c % 2 = 1 then (c / 2) ^^^ 0xEDB88320 else c / 2

def crcByte (c : Nat) (b : Byte) : Nat := (List.range 8).foldl (fun x _ => crcBit x) (c ^^^ b.toNat)

def crc32 (bs : List Byte) : Nat := (bs.foldl crcByte 0xFFFFFFFF) ^^^ 0xFFFFFFFF

/-! ### Frames (R376, R377) -/

/-- Bytes of payload in a frame. -/
def framePayload : Nat := 2040

/-- The 2,048 bytes of a frame: `LF_SEQ` with the type, `LF_ACK`, `LF_CRC`, and the payload filled up with zeros. -/
def frameBytes (kind seq ack : Nat) (payload : List Byte) : List Byte :=
  let head := le 2 (seq % 4096 + 4096 * kind) ++ le 2 (ack % 4096)
  let body := (payload ++ List.replicate framePayload 0).take framePayload
  head ++ le 4 (crc32 (head ++ body)) ++ body

/-- Symbols of a codeword that the receiver can correct. -/
def fecLimit : Nat := 15

/-- Can a codeword with these symbols in error be corrected? -/
def corrects (errs : List Nat) : Bool := decide (errs.length ≤ fecLimit)

/-- Lanes that carried symbols in error: symbol i travels on lane i mod 8. -/
def errLanes (errs : List Nat) : Nat := errs.foldl (fun m i => setBit m (i % 8) true) 0

/-! ### Frames of the board cascade (R502, R503) -/

/-- Sizes of the fields of a frame's body, from byte 2 on. -/
def cascadeSizes : Nat → List Nat
  | 1 => [6] | 2 => [1] | 4 => [1, 1, 6] | 5 => [2, 7] | 6 => [1] | 7 => [1] | _ => []

/-- The 12 bytes of a frame on the chain: code, address, body filled up with zeros, CRC-8. -/
def cascadeBytes (code addr : Nat) (body : List Nat) : List Byte :=
  let fields := (List.zip (cascadeSizes code) body).flatMap (fun x => le x.1 x.2)
  let head := le 1 code ++ le 1 addr ++ (fields ++ le 9 0).take 9
  head ++ [Config.crc8 head]

def cascadeOut (code addr : Nat) (body : List Nat) : Out := .cascade code addr (cascadeBytes code addr body)

/-! ### The identity record (R387) -/

/-- The module's own record for a port. -/
def identityBytes (s : State) (port : Nat) : List Byte :=
  let body := layout 60 [(0, 1, 1), (1, 1, 0), (2, 1, port), (3, 1, ((s.fabric.plan[port]?).map (·.plane)).getD 0xFF),
    (4, 1, s.fabric.planId), (5, 1, 2), (6, 1, 0), (7, 1, 3), (8, 16, Config.serial), (24, 4, s.mgmt.fwVersion),
    (28, 8, s.fabric.planGen)]
  body ++ le 4 (crc32 body)

/-! ### Packets (R403, R404, R417) -/

/-- The 32-byte header. -/
def packetHeader (op : Nat) (p : Packet) : List Byte :=
  layout 32 [(0, 1, p.dst), (1, 1, p.src), (2, 2, p.chan), (4, 2, p.epoch), (6, 1, op), (7, 1, p.window), (8, 4, p.seq),
    (12, 2, p.payload.length), (14, 1, p.fmt % 16 + 16 * p.poison.toNat + 32 * p.last.toNat + 64 * p.staged.toNat),
    (16, 8, p.offset), (24, 8, p.aux)]

/-- Key of one direction of a channel in an epoch. -/
def channelKey (pairKey src dst chan epoch : Nat) : Nat :=
  Config.hmac (le 32 pairKey) (ascii "CHKEY" ++ le 1 src ++ le 1 dst ++ le 2 chan ++ le 2 epoch)

/-- The 12-byte nonce. -/
def packetNonce (p : Packet) : List Byte :=
  le 1 p.src ++ le 1 p.dst ++ le 2 p.chan ++ le 2 p.epoch ++ le 3 p.seq ++ le 3 0

/-- A packet as it is sent: header, sealed payload and tag, under its direction's key. -/
def sealPacket (pairKey op : Nat) (p : Packet) : List Byte :=
  let head := packetHeader op p
  let key := channelKey pairKey p.src p.dst p.chan p.epoch
  head ++ (List.range (p.payload.length + 16)).map (Config.sealByte key (packetNonce p) head p.payload)

/-- Bytes of a packet on the link. -/
def wireBytes (p : Packet) : Nat := 48 + p.payload.length

/-! ### Management messages (R399, R405, R573, R575) -/

/-- The content of a message to a peer: nonce and key of `PA_REQ`; ciphertext, report, signature and certificates of `PA_RESP`;
of the others 8 bytes to a number (DESIGN CHOICE, log 125). -/
def mgmtContent (code : Nat) (body : List Nat) : List Byte :=
  let x := fun (i : Nat) => body.getD i 0
  if code = 0x25 then le 32 (x 0) ++ le 1184 (x 1)
  else if code = 0x26 then
    le 1088 (x 0) ++ le 512 (x 1) ++ le 3309 (x 2) ++ le (x 3) (x 4) ++ le (x 5) (x 6) ++ le (x 7) (x 8)
  else body.flatMap (le 8)

/-- A message to a peer: header, code and content, and the tag under the pair key once the pair has one. -/
def mgmtBytes (src peer counter pairKey code : Nat) (body : List Nat) : List Byte :=
  let payload := le 1 code ++ mgmtContent code body
  let head := layout 32 [(0, 1, peer), (1, 1, src), (6, 1, 0x20), (12, 2, payload.length), (24, 8, counter)]
  let key := Config.hmac (le 32 pairKey) (ascii "MGMT")
  head ++ payload ++ (if pairKey = 0 then le 16 0 else le 16 (Config.hmac (le 32 key) (head ++ payload)))

/-- A report to the fabric manager on VL3. The spec gives it no layout: 64 free bytes. -/
def reportBytes (n : Nat) : List Byte := (List.range 64).map (Config.reportByte n)

/-! ### Step messages (R112, R120, R121) -/

def headerBytes (h : StepHeader) : List Byte :=
  layout 256 [(0, 8, h.step), (8, 4, h.job), (12, 2, h.seqCount), (14, 1, h.rerun.toNat + 2 * h.backward.toNat),
      (15, 1, h.rerunCount), (16, 4, h.tokenCount), (20, 4, h.tokenBudget), (24, 4, h.prefillTokens),
      (28, 4, h.hdrBytes), (32, 8, h.lastCommitted)]
    ++ h.recs.flatMap (fun r => layout 32 [(0, 2, r.slot), (2, 1, r.kind + 4 * r.lastChunk.toNat), (3, 1, r.drafts),
      (4, 4, r.start), (8, 2, r.new), (10, 2, r.sample), (12, 4, r.tokOff), (16, 8, r.pageList), (24, 4, r.hostId)])

/-- Content of a step message. But for header and token list its layout is the model's: 8 bytes to a number (DESIGN CHOICE,
log 125). -/
def msgBytes : Out → List Byte
  | .stepMsg _ _ body => body.flatMap (le 8)
  | .stepHeader _ h => headerBytes h
  | .tokenList _ toks => toks.flatMap (le 4)
  | .commit _ step ns => le 8 step ++ ns.flatMap (fun n => [n.kind, n.prefixLen, n.slot, n.parent].flatMap (le 8))
  | .result _ step reports st => le 8 step
      ++ reports.flatMap (fun r => le 8 r.slot ++ (r.tokens ++ r.drafts).flatMap (fun x => le 8 x.1 ++ le 8 x.2)
        ++ [r.tokens.length, r.drafts.length, r.offered, r.accepted, r.failed.toNat].flatMap (le 8))
      ++ [st.cumin, st.saffron, st.sumac, st.anise, st.clove, st.fennel, st.sfMasked, st.sfNan, st.smMasked, st.smNan,
          st.anOffered, st.anAccepted, st.reNan, st.reInf, st.reStale, st.reIncomplete].flatMap (le 8)
  | _ => []

/-- Cut bytes into payloads of packets: at most 4,096 bytes each, and at least one packet. -/
def packetPieces (bs : List Byte) : List (List Byte) :=
  (List.range (max 1 (ceilDiv bs.length 4096))).map (fun i => (bs.drop (4096 * i)).take 4096)

end Sys2Proof.Machine
end

