-- ==== Sys2Proof/Machine/FabricOps.lean ====
section
/-!
DEFINITION. Sending on channels: membership, packet headers, the retention store and the caps (R398 to R416, R421).
-/
namespace Sys2Proof.Machine

/-! ### Membership -/

/-- This module's fabric id (R398). -/
def ownId (s : State) : Nat := s.fabric.planId

/-- Is the peer attested: admitted by this module, and answered by it (R574)? -/
def attested (s : State) (p : Nat) : Bool := (getPeer s p).admitted && (getPeer s p).answered

/-- Is the id a member of the module's job? -/
def jobMember (s : State) (p : Nat) : Bool :=
  match s.job with
  | some j => j.members.contains p
  | none => false

/-- Is this module the manager of its job (R109)? -/
def isManager (s : State) : Bool :=
  match s.job with
  | some j => j.manager == ownId s
  | none => false

/-- Does the peer hold a position on this module's board (R402)? Its report's position and serial must be those of the
board table. -/
def boardPeer (s : State) (p : Nat) : Bool :=
  let e := mapGet {} s.cascade.table (getPeer s p).pos
  s.cascade.haveTable && e.present && e.serial == (getPeer s p).serial % 2 ^ 48 && (getPeer s p).pos != s.life.pos

/-- The attested job member at a board position. -/
def peerAt (s : State) (pos : Nat) : Option Nat :=
  match s.job with
  | none => none
  | some j => j.members.find? (fun p => p != ownId s && attested s p && boardPeer s p && (getPeer s p).pos == pos)

/-- Is the id reachable on a plane, as the routing table says (R394, R400)? -/
def reaches (s : State) (plane id : Nat) : Bool := bit (mapGet 0 s.fabric.routes id) plane

/-- Is the port's mapping as the plan says, and the port UP? -/
def portUp (s : State) (p : Nat) : Bool := (getPort s p).state == .up

/-- Is the id an available member: planned and reachable on all ten planes (R394)? -/
def available (s : State) (id : Nat) : Bool :=
  s.fabric.members.contains id && portList.all (fun p => reaches s p id)

/-! ### Channels -/

def keyPeer (k : Nat) : Nat := k / 4096
def keyNum (k : Nat) : Nat := k % 4096

/-- Key of the open general channel with a number: 8 and up, since ops name no hub channel (R407, log entry 115). -/
def generalKey (s : State) (n : Nat) : Option Nat :=
  (s.fabric.chans.find? (fun c => decide (8 ≤ n) && keyNum c.1 == n && (c.2.state == .opened || c.2.state == .closing
    || c.2.state == .reset || c.2.state == .opening))).map (·.1)

/-- Is the channel open for new packets? -/
def chanOpen (s : State) (k : Nat) : Bool := (getChan s k).state == .opened

/-- The plane on which hub channels to a peer are pinned (R408). -/
def hubPlane (s : State) (peer : Nat) : Nat := (ownId s + peer) % 10

/-- The port whose plan entry names a plane. -/
def portOfPlane (s : State) (plane : Nat) : Nat :=
  match s.fabric.plan.findIdx? (fun e => e.plane == plane) with
  | some p => p
  | none => plane

/-- The lane of an operation (R405). -/
def opLane (op : Nat) : Nat :=
  if op = 0x03 || op = 0x10 || op = 0x11 || op = 0x12 then 1 else if op = 0x04 then 2 else if op = 0x20 then 3 else 0

/-- Bytes that a packet holds in the retention store (R411, R415). -/
def retBytes (r : Retained) : Nat := wireBytes r.pkt

/-- Bytes in flight towards a destination on a port. -/
def inFlight (s : State) (port peer : Nat) : Nat :=
  s.fabric.chans.foldl (fun a c =>
    if c.2.port == port && keyPeer c.1 == peer then
      c.2.retained.foldl (fun x r => if r.sentOut then x + retBytes r else x) a
    else a) 0

/-- The other destinations with unacknowledged data on a port. -/
def destsOf (s : State) (port peer : Nat) : List Nat :=
  ((s.fabric.chans.filter (fun c => c.2.port == port && keyPeer c.1 != peer && c.2.retained.any (·.sentOut))).map
    (fun c => keyPeer c.1)).eraseDups

def otherDests (s : State) (port peer : Nat) : Nat := (destsOf s port peer).length

/-- What a destination may hold on a port: its cap (R416) under the limit of R415. -/
def destLimit (s : State) (port peer : Nat) : Nat :=
  let full := 2 ^ 20 - 4096 * otherDests s port peer
  let cap := mapGet 0 s.fabric.caps (port * 256 + peer)
  if cap = 0 then full else min cap full

/-- Does the store have room for `b` more bytes of a destination? A destination with nothing in flight has its guarantee, and
needs only the space; another stays under its limit and leaves the others theirs (R415, R416). -/
def storeFits (s : State) (port peer b : Nat) : Bool :=
  let f := inFlight s port peer
  let held := (destsOf s port peer).map (inFlight s port)
  if f = 0 then decide (held.sum + b ≤ 2 ^ 20)
  else decide (f + b ≤ destLimit s port peer) && decide (f + b + (held.map (max 4096)).sum ≤ 2 ^ 20)

/-! ### The link layer (R377 to R379) -/

/-- Does the port carry frames? -/
def linkUp (s : State) (port : Nat) : Bool := (getPort s port).state == .up || (getPort s port).state == .quarantine

/-- `LF_ACK`: the highest number received in order. -/
def linkAck (s : State) (port : Nat) : Nat := ((getPort s port).rxSeq + 4095) % 4096

/-- Send a frame of a type, with the acknowledgement that every frame carries. -/
def sendFrame (port kind seq : Nat) (payload : List Byte) (s : State) : State :=
  emit s (.linkFrame port kind seq (linkAck s port) payload)

/-- Send data frames while the replay buffer has room for them; the fuel bounds one turn. A frame takes the bytes that wait,
back to back, and what it cannot fill is zero. -/
def pumpFrames (port : Nat) : Nat → State → State
  | 0, s => s
  | n + 1, s =>
    let x := getPort s port
    if x.txWait.isEmpty || decide (128 ≤ x.replay.length) then s
    else
      let body := x.txWait.take framePayload
      pumpFrames port n (modPort (sendFrame port 0 x.txSeq body s) port (fun y => { y with
        txWait := y.txWait.drop framePayload, txSeq := (y.txSeq + 1) % 4096, replay := y.replay ++ [⟨y.txSeq, body⟩] }))

/-- Hand bytes to a port's link layer, which sends them as its replay buffer has room. -/
def handOver (port : Nat) (bytes : List Byte) (s : State) : State :=
  pumpFrames port 128 (modPort s port (fun x => { x with txWait := x.txWait ++ bytes }))

/-- Hand a packet, as it stands on the link, to its port. -/
def putOut (port op : Nat) (p : Packet) (wire : List Byte) (s : State) : State :=
  let s1 := evCount 8 0x90 port (opLane op) 1 (emit s (.packet port op p))
  handOver port wire (evCount 8 0x88 port (opLane op) (ceilDiv p.payload.length 64) s1)

/-! ### Management messages and reports (R395, R399, R421, R549, R575) -/

/-- VL3 message codes that the module sends (R421, R571, R576, R409, R573, R549). -/
def mgmtOpen : Nat := 0x20
def mgmtNotice : Nat := 0x22
def mgmtRelease : Nat := 0x23
def mgmtRekey : Nat := 0x24
def mgmtPaReq : Nat := 0x25
def mgmtPaResp : Nat := 0x26

/-- The port that a VL3 message takes: the one asked for, or else the first that carries frames (DESIGN CHOICE, log 125). -/
def mgmtPort (s : State) (port : Nat) : Option Nat := if linkUp s port then some port else portList.find? (linkUp s)

/-- Send a VL3 message over a port. -/
def mgmtVia (port peer counter code : Nat) (body : List Nat) (s : State) : State :=
  let bytes := mgmtBytes (ownId s) peer counter (getPeer s peer).pairKey code body
  handOver port bytes (evCount 8 0x88 port 3 (ceilDiv (bytes.length - 48) 64) (emit s (.mgmt peer code body)))

/-- Send a VL3 message to a peer; after admission each takes the next counter of its direction (R575). Without a port that
carries frames nothing goes out. -/
def mgmtSend (peer code : Nat) (body : List Nat) (s : State) : State :=
  match mgmtPort s (portOfPlane s (hubPlane s peer)) with
  | none => s
  | some port =>
    mgmtVia port peer ((getPeer s peer).txCounter + 1) code body (modPeer s peer (fun p => { p with txCounter := p.txCounter + 1 }))

/-- Send the fabric manager a report over the first port that carries frames. -/
def reportSend (o : Nat → Out) (s : State) : State :=
  match mgmtPort s 0 with
  | none => s
  | some port => handOver port (reportBytes s.out.length) (evCount 8 0x88 port 3 1 (emit s (o port)))

/-- Ask for a new pair key, with a fresh encapsulation key; the channel waits for it (R410, R576). -/
def askRekey (k : Nat) (s : State) : State :=
  let ek := Config.random s.sec.draws
  mgmtSend (keyPeer k) mgmtRekey [(getPeer s (keyPeer k)).generation + 1, ek]
    (modChan { s with sec := { s.sec with draws := s.sec.draws + 1 } } k (fun x => { x with rekey := true }))

/-- A new sequence number of a channel's send direction, rolling the epoch when it would pass 0xFF_FFFF (R410). -/
def nextSeq (k : Nat) (s : State) : State :=
  let c := getChan s k
  if c.txSeq < 2 ^ 24 || c.rekey then s
  else if c.txEpoch < 65535 then modChan s k (fun x => { x with txEpoch := x.txEpoch + 1, txSeq := 0 })
  else askRekey k s

/-- A channel of a pair with a new key begins epoch 1 once everything it sent is acknowledged (R576). -/
def beginRoll (k : Nat) (s : State) : State :=
  if (getChan s k).rolls then modChan s k (fun c => { c with rolls := false, txEpoch := 1, txSeq := 0 }) else s

/-- The first packet that waits in a channel has been sent: as `p`, and as these bytes. -/
def markFirst (p : Packet) (wire : List Byte) : List Retained → List Retained
  | [] => []
  | r :: rs =>
    if r.sentOut then r :: markFirst p wire rs
    else { r with seq := p.seq, sentOut := true, pkt := p, wire := wire } :: rs

/-- The key that a channel's packets are sealed under: until it begins epoch 1 of a new pair key, the old one (R417, R576). -/
def sealKey (s : State) (k : Nat) : Nat :=
  if (getChan s k).rolls then (getPeer s (keyPeer k)).oldKey else (getPeer s (keyPeer k)).pairKey

/-- Send the first packet that waits in a channel, if the retention store has room for it (R415, R416). A packet of a new
epoch 1 waits for its pair key (R410). The packet that ends a step message sends it. -/
def pumpOne (k : Nat) (s : State) : State :=
  match (getChan s k).retained.find? (fun r => !r.sentOut) with
  | none => s
  | some r =>
    let port := (getChan s k).port
    if !storeFits s port (keyPeer k) (retBytes r) then s
    else if (getChan s k).rolls && (getChan s k).retained.any (·.sentOut) then s
    else
      let s1 := nextSeq k (beginRoll k s)
      let c := getChan s1 k
      if c.rekey then s1
      else
        let p := { r.pkt with seq := c.txSeq, epoch := c.txEpoch }
        let wire := sealPacket (sealKey s1 k) r.op p
        let s2 := modChan s1 k (fun x => { x with
          txSeq := c.txSeq + 1
          retained := markFirst p wire x.retained
          reads := if r.op == 0x02 then x.reads ++ [(c.txSeq, r.owner)] else x.reads })
        putOut port r.op p wire (match r.msg with | some o => emit s2 o | none => s2)

def pumpMany (k : Nat) : Nat → State → State
  | 0, s => s
  | n + 1, s => pumpMany k n (pumpOne k s)

/-- Hand out the packets that wait in a channel, oldest first. -/
def pump (k : Nat) (s : State) : State :=
  if (getChan s k).state == .opened || (getChan s k).state == .closing
  then pumpMany k ((getChan s k).retained.filter (fun r => !r.sentOut)).length s else s

/-- Hand out what waits in every channel on a port. -/
def pumpPort (port : Nat) (s : State) : State :=
  s.fabric.chans.foldl (fun a c => if c.2.port == port then pump c.1 a else a) s

/-- The content of a packet besides what its channel gives it. -/
structure PktBody where
  op : Nat
  window : Nat := 0
  fmt : Nat := 0
  poison : Bool := false
  last : Bool := false
  staged : Bool := false
  offset : Nat := 0
  aux : Nat := 0
  payload : List Byte := []
deriving DecidableEq, Repr

def mkPacket (s : State) (k seq : Nat) (b : PktBody) : Packet :=
  { dst := keyPeer k, src := ownId s, chan := keyNum k, epoch := (getChan s k).txEpoch, window := b.window, seq := seq,
    fmt := b.fmt, poison := b.poison, last := b.last, staged := b.staged, rsvZero := true, offset := b.offset,
    aux := b.aux, payload := b.payload, tagOk := true }

/-- Does the owner (8 × entry + tile) name an op of a step task? -/
def ownerIsStep (s : State) (owner : Nat) : Bool :=
  (getTile s (owner % 8)).window.any (fun e => e.uid == owner / 8 &&
    (match (getTask s (owner % 8) e.task).source with
     | .stepSet => true
     | _ => false))

/-- Send a packet in a channel's sequence for an op (owner 8 × entry + tile, 0 for none). -/
def sendPacket (k owner : Nat) (b : PktBody) (s : State) : State :=
  pump k (modChan s k (fun x => { x with
    retained := x.retained ++ [⟨0, b.op, owner, false, ownerIsStep s owner, mkPacket s k 0 b, [], none⟩] }))

/-- Answer on VL1 outside the sequence: ACK, NAK and REFUSE are not retained, and the spec does not state what `PH_SEQ` holds
in them: a free value (log entry 130). -/
def sendReply (k : Nat) (b : PktBody) (s : State) : State :=
  let (n, s1) := takeFree 24 s
  let p := mkPacket s k n b
  putOut (getChan s k).port b.op p (sealPacket (sealKey s k) b.op p) s1

/-- The window epoch that a sender stamps: of the last notice held, or 0 (R421). -/
def stampEpoch (s : State) (peer w : Nat) : Nat := (mapGet ⟨0, 0, 0⟩ s.fabric.notices (peer * 256 + w)).epoch

/-! ### Step messages (R112) -/

/-- Send a step message to a member. To another module its packets take their place in the sequence of channel 0 or 1, and
nothing goes out on a channel that is not OPEN; to itself it stays inside the hub. -/
def stepSendOut (member code : Nat) (o : Out) (s : State) : State :=
  let k := chanKey member (if code < 0x10 then 0 else 1)
  if member == ownId s then emit s o
  else if (getChan s k).state != .opened then s
  else
    let held := (packetPieces (msgBytes o)).map (fun bs =>
      (⟨0, 0x08, 0, false, false, mkPacket s k 0 { op := 0x08, aux := code, payload := bs }, [], none⟩ : Retained))
    pump k (modChan s k (fun x => { x with
      retained := x.retained ++ held.dropLast ++ (held.drop (held.length - 1)).map (fun r => { r with msg := some o }) }))

def stepSend (member code : Nat) (body : List Nat) (s : State) : State :=
  stepSendOut member code (.stepMsg member code body) s

/-- Send a step message to every member of the job, this module included (R112). -/
def stepSendAll (code : Nat) (body : List Nat) (s : State) : State :=
  match s.job with
  | some j => forAll j.members (fun a m => stepSend m code body a) s
  | none => s

end Sys2Proof.Machine
end

