-- ==== Sys2Proof/Machine/Fences.lean ====
section
/-!
DEFINITION. Fence counters, step bases, pending increments and barriers (spec/05_ordering.md, R139 to R154).
-/
namespace Sys2Proof.Machine

/-! ### Counters -/

def fenceVal (s : State) (c : Nat) : Nat := (mapGet 0 s.fences.counters c).toNat
def stepBase (s : State) (c : Nat) : Nat := mapGet 0 s.fences.bases c

def fencePut (c v : Nat) (s : State) : State :=
  { s with fences := { s.fences with counters := mapSet 0 s.fences.counters c (BitVec.ofNat 64 v) } }

/-- Is the counter a registered step counter (R110)? -/
def isStepCounter (s : State) (c : Nat) : Bool :=
  match s.stepSet with
  | some x => x.params.counters.contains c
  | none => false

/-! ### Waits (R52, R141, R143, R146) -/

def isStepTask (k : Task) : Bool := k.source = .stepSet

/-- The value that wait entry `i` of a task waits for. -/
def waitTarget (s : State) (k : Task) (i : Nat) : Nat :=
  let w := dWait k.desc i
  if isStepTask k && isStepCounter s (w.1 % 4096) then stepBase s (w.1 % 4096) + w.2 else w.2

def waitHolds (s : State) (k : Task) (i : Nat) : Bool :=
  let w := dWait k.desc i
  !bit w.1 15 || bit k.waitMet i || decide (waitTarget s k i ≤ fenceVal s (w.1 % 4096))

def allWaitsMet (s : State) (k : Task) : Bool := (List.range 4).all (waitHolds s k)

/-- Value that a `CTL_FENCE_WAIT` waits for. -/
def opWaitTarget (s : State) (op : OpWord) : Nat :=
  if clsFlag op 12 then stepBase s (oF op 20 2 % 4096) + oF op 24 8 else oF op 24 8

def opWaitMet (s : State) (e : Entry) : Bool :=
  e.met || decide (opWaitTarget s e.op ≤ fenceVal s (oF e.op 20 2 % 4096))

def isFenceWait (op : OpWord) : Bool := opClass op == 8 && opCode op == 1

/-- Note every wait that is satisfied now, so that it stays satisfied when a counter is lowered (R141). -/
def noteWaits (s : State) : State :=
  forAll tileList (fun a t => modTile a t (fun x => { x with
    tasks := mapVals {} (fun k => if k.phase = .waiting then
      { k with waitMet := (List.range 4).foldl (fun b i => setBit b i (waitHolds s k i)) 0 } else k) x.tasks
    window := x.window.map (fun e =>
      if isFenceWait e.op && e.state = .issued then { e with met := opWaitMet s e } else e) })) s

/-- A saturating increment; one that saturates sets the fence-overflow bit (R140). A wait that it satisfies stays satisfied
(R141). -/
def fenceAdd (c n : Nat) (s : State) : State :=
  let v := fenceVal s c + n
  noteWaits (if v < 2 ^ 64 then fencePut c v s else esRaise 3 (fencePut c (2 ^ 64 - 1) s))

/-- An increment made on this module (R139). -/
def fenceLocal (c n : Nat) (s : State) : State := evHub 0xA8 0 1 (fenceAdd c n s)

/-! ### Pending remote increments (R147) -/

/-- How a remote increment of a step counter stands to the runs bound here: 0 same run, 1 later run, 2 earlier run. -/
def runClass (s : State) (step rerun : Nat) : Nat :=
  match s.cond.lastRun with
  | none => 1
  | some (st, rr) =>
    if step = st && rerun = rr then (if (liveRun s).isSome then 0 else 2)
    else if st < step || (st = step && (rerun + 256 - rr) % 256 < 128) then 1
    else 2

/-- Apply or drop the pending increments after a run is bound, in arrival order. -/
def drainPending (s : State) : State :=
  let q := s.fences.pendingInc
  let s0 := { s with fences := { s.fences with pendingInc := q.filter (fun p => runClass s p.step p.rerun == 1) } }
  q.foldl (fun a p =>
    if runClass s p.step p.rerun == 0 then evHub 0xA9 0 1 (fenceAdd p.counter p.amount a)
    else if runClass s p.step p.rerun == 2 then esStaleInc a else a) s0

/-! ### Barriers (R148 to R154) -/

/-- A release of generation `g` on this module (R151). -/
def barReleased (b g : Nat) (failed : Bool) (code : Nat) (s : State) : State :=
  let s1 := modBarrier s b (fun x =>
    let y := { x with done := g + 1, failed := failed, failCode := code }
    let z := if y.cur = g then { y with cur := g + 1, arrivals := 0 } else y
    { z with rootNow := z.rootNext, rootNext := [], fails := if failed then mapSet 0 z.fails g code else z.fails })
  evHub (if failed then 0xAB else 0xAA) b 1 s1

/-- Parts of `PH_AUX` of a barrier packet (R405). -/
def barAux (b g : Nat) : Nat := b + 2 ^ 8 * (g % 2 ^ 56)

/-- The generation near `near` whose low 56 bits are `low`. -/
def barGenOf (near low : Nat) : Nat :=
  let base := near / 2 ^ 56 * 2 ^ 56 + low
  if near + 2 ^ 55 < base then base - 2 ^ 56 else if base + 2 ^ 55 < near then base + 2 ^ 56 else base

/-- Send the release of generation `g` to every member but this module, then apply it here (R151, R153). The step
barrier has no release channel (R154). -/
def barFinish (b g : Nat) (failed : Bool) (code : Nat) (members : List Nat) (s : State) : State :=
  let x := getBarrier s b
  let s1 := if b == 0 && s.stepSet.isSome then s else
    forAll (members.filter (· != ownId s)) (fun a m =>
      sendPacket (chanKey m x.relCh) 0
        { op := 0x07, aux := barAux b g + (if failed then 64 else 0), payload := if failed then le 4 code else [] } a) s
  barReleased b g failed code s1

/-- The root counts an arrival of a member for generation `g` (R151). The step barrier's full generation waits for
`STEP_COMMIT`. -/
def rootArrive (b member g : Nat) (s0 : State) : State :=
  let s := modBarrier s0 b (fun y => { y with known := if y.known.contains member then y.known else y.known ++ [member] })
  let x := getBarrier s b
  if g < x.done then esStaleArr s
  else if g = x.done then
    let now := if x.rootNow.contains member then x.rootNow else x.rootNow ++ [member]
    let s1 := modBarrier s b (fun y => { y with rootNow := now })
    if x.members ≤ now.length && !(b == 0 && s.stepSet.isSome) then barFinish b g false 0 now s1 else s1
  else if g = x.done + 1 then
    modBarrier s b (fun y => { y with rootNext := if y.rootNext.contains member then y.rootNext
      else y.rootNext ++ [member] })
  else s

/-- Fault of an op that names a channel that takes no packets: RESET gives `PEER_RESET`; CLOSING and CLOSED give
`ABORTED` (R409; DEDUCED for CLOSED); 0 when it is OPEN or still opening. -/
def chanFault (s : State) (k : Nat) : Nat :=
  match (getChan s k).state with
  | .reset => fPeerReset
  | .closing => fAborted
  | .closed => fAborted
  | _ => 0

/-- May a local arrival be counted now (R150)? The arrival that closes a generation needs its channel. -/
def arriveReady (s : State) (b : Nat) : Bool :=
  let x := getBarrier s b
  x.configured && decide (x.cur < x.done + 2)

/-- Count one local arrival (R150). -/
def arriveLocal (b : Nat) (s : State) : State :=
  let x := getBarrier s b
  if x.arrivals + 1 < x.localCount then modBarrier s b (fun y => { y with arrivals := y.arrivals + 1 })
  else
    let g := x.cur
    let s1 := modBarrier s b (fun y => { y with arrivals := 0, cur := y.cur + 1 })
    if x.root == ownId s then rootArrive b (ownId s) g s1
    else sendPacket (chanKey x.root x.arrCh) 0 { op := 0x06, aux := barAux b g } s1

/-- Set up a barrier (R148, R149). -/
def barSetup (p : BarrierParams) (s : State) : State :=
  modBarrier s p.barrier (fun _ =>
    { configured := true, root := p.root, members := p.members, localCount := p.localCount, arrCh := p.arrCh,
      relCh := p.relCh })

/-- The members of a barrier that its root knows: those that have sent an arrival, and the peers to which its arrival or
release channel is open. `BARRIER_CONFIG` names none (DEDUCED, log entry 117). -/
def barMembers (s : State) (x : Barrier) : List Nat :=
  (x.known ++ (s.fabric.chans.filter (fun c => (keyNum c.1 == x.arrCh || keyNum c.1 == x.relCh) && c.2.state != .closed)).map
    (fun c => keyPeer c.1)).eraseDups

/-- The root fails the generation in progress of every barrier that the lost member takes part in (R153). -/
def barPeerLost (m : Nat) (s : State) : State :=
  forAll (List.range 64) (fun a b =>
    let x := getBarrier a b
    if x.configured && x.root == ownId a && (barMembers a x).contains m && !(b == 0 && a.stepSet.isSome) && decide (1 < x.members)
    then barFinish b x.done true fPeerReset ((barMembers a x).filter (· != m)) a else a) s

end Sys2Proof.Machine
end

