-- ==== Sys2Proof/Machine/Records.lean ====
section
/-!
DEFINITION. Device-to-host requests, completion records and the rings' progress (R155, R156, R458, R466 to R476).
-/
namespace Sys2Proof.Machine

/-! ### Device-to-host requests (R458) -/

/-- What a request was made for. -/
def d2hUse (s : State) (id : Nat) : Option D2hUse := (s.host.d2h.find? (fun e => e.1 == id)).map (·.2)
def d2hDone (id : Nat) (s : State) : State :=
  { s with host := { s.host with d2h := s.host.d2h.filter (fun e => e.1 != id) } }

/-! ### Record layout (R473, R474) -/

/-- `CR_ENG`. -/
def engBytes (e : EngStatus) : List Byte :=
  layout 32 [(0, 1, e.cumin), (1, 1, e.saffron), (2, 1, e.sumac), (3, 1, e.anise), (4, 1, e.clove), (5, 1, e.fennel),
    (8, 4, e.sfMasked), (12, 4, e.sfNan), (16, 4, e.smMasked), (20, 4, e.smNan), (24, 4, e.anOffered),
    (28, 4, e.anAccepted)]

def maceBytes (e : EngStatus) : List Byte :=
  layout 16 [(0, 4, e.reNan), (4, 4, e.reInf), (8, 4, e.reStale), (12, 4, e.reIncomplete)]

/-- OR the flags and add the counts of two statuses (R473). -/
def engMerge (a b : EngStatus) : EngStatus :=
  { cumin := a.cumin ||| b.cumin, saffron := a.saffron ||| b.saffron, sumac := a.sumac ||| b.sumac,
    anise := a.anise ||| b.anise, clove := a.clove ||| b.clove, fennel := a.fennel ||| b.fennel,
    sfMasked := satAdd 32 a.sfMasked b.sfMasked, sfNan := satAdd 32 a.sfNan b.sfNan,
    smMasked := satAdd 32 a.smMasked b.smMasked, smNan := satAdd 32 a.smNan b.smNan,
    anOffered := satAdd 32 a.anOffered b.anOffered, anAccepted := satAdd 32 a.anAccepted b.anAccepted,
    reNan := satAdd 32 a.reNan b.reNan, reInf := satAdd 32 a.reInf b.reInf, reStale := satAdd 32 a.reStale b.reStale,
    reIncomplete := satAdd 32 a.reIncomplete b.reIncomplete }

/-- The fields of a completion record before its phase is known. -/
structure RecFields where
  kind : Nat
  ring : Nat := 0
  fault : Nat := 0
  tag : Nat := 0
  seqno : Nat := 0
  w0 : Nat := 0
  w1 : Nat := 0
  w2 : Nat := 0
  eng : EngStatus := {}
  hasMace : Bool := false
  tokens : List (Nat × Nat) := []
deriving DecidableEq, Repr

/-- The 256 bytes of a record, phase clear. -/
def recBytes (r : RecFields) : List Byte :=
  layout 32 [(0, 1, r.kind), (1, 1, r.ring), (2, 2, r.fault), (4, 4, r.tag), (8, 8, r.seqno), (16, 4, r.w0),
      (20, 4, r.w1), (24, 4, r.w2)]
    ++ engBytes r.eng ++ (if r.hasMace then maceBytes r.eng else List.replicate 16 0) ++ List.replicate 8 0
    ++ ((List.range 17).flatMap (fun i => match r.tokens[i]? with
        | some t => le 4 t.1 ++ le 4 t.2
        | none => List.replicate 8 0))
    ++ List.replicate 32 0

/-! ### Queuing records -/

/-- Queue a record on its completion ring; a ring that is not ACTIVE takes none (R468). `index` is the descriptor that
the record retires. -/
def queueRecord (cq : Nat) (index : Nat) (r : RecFields) (s : State) : State :=
  match (getCq s cq).state with
  | .active => modCq s cq (fun c => { c with waiting := c.waiting ++ [⟨r.ring, r.kind, index, recBytes r⟩] })
  | _ => s

/-- Software's tag of a descriptor that the ring still holds. -/
def descTag (s : State) (ring index : Nat) : Nat :=
  match (getRing s ring).slots.find? (fun d => d.index == index) with
  | some d => ofBytes ((d.bytes.drop 4).take 4)
  | none => 0

/-- TASK record (R473). -/
def taskRecord (ring index fault taskId opIx tile : Nat) (st : EngStatus) (s : State) : State :=
  queueRecord (getRing s ring).cq index
    { kind := 0x01, ring := ring, fault := fault, tag := descTag s ring index, seqno := index, w0 := taskId,
      w1 := opIx, w2 := tile, eng := st } s

/-- UPDATE record (R473, R476). -/
def updateRecord (ring index slot status : Nat) (s : State) : State :=
  queueRecord (getRing s ring).cq index
    { kind := 0x02, ring := ring, tag := descTag s ring index, seqno := index, w0 := slot, w1 := status } s

/-- JOB_FAULT record in every ACTIVE completion ring (R135, R472; DESIGN CHOICE: "the completion ring" is each ring in
which the conductor keeps an entry for it), and the error summary's bit. -/
def jobFaultRecord (step code aborts : Nat) (s : State) : State :=
  esRaise 2 (forAll (List.range 64) (fun a cq =>
    if (getCq a cq).state == .active then
      evHub 0xA6 0 1 (esJobFault (queueRecord cq 0
        { kind := 0x11, fault := code, seqno := step, w0 := aborts } a))
    else a) s)

/-- A work ring enters ERROR (R469): it reads nothing more, a RING_ERROR record is written and the error summary set. -/
def ringError (ring cause tail : Nat) (s : State) : State :=
  match (getRing s ring).state with
  | .active =>
    let s1 := esRingError (modRing s ring (fun r => { r with state := .error }))
    queueRecord (getRing s ring).cq 0
      { kind := 0x12, ring := ring, fault := if cause == 3 then fTimeoutHost else 0, seqno := tail, w0 := cause } s1
  | _ => s

/-- A completion ring enters ERROR (R460, R468): so does every work ring that names it, without a record. -/
def cqError (cq : Nat) (s : State) : State :=
  let s1 := modCq s cq (fun c => { c with state := .error, waiting := [], writing := none })
  forAll (List.range 64) (fun a r =>
    if (getRing a r).cq == cq && (getRing a r).state == .active
    then esRingError (modRing a r (fun x => { x with state := .error })) else a) s1

/-! ### Writing records and retiring descriptors -/

/-- Free entries of a completion ring (R471). -/
def cqFree (c : CompRing) : Nat := c.entries - (c.written - c.head)

/-- Completion rings that the records of a step go to, one entry for each TOKENS record. -/
def tokenRings (s : State) (recs : List SeqRec) : List Nat :=
  (recs.filter (fun r => r.kind != 0 || r.lastChunk || (getSeq s r.slot).limit ≤ r.start + r.new)).map
    (fun r => (getSeq s r.slot).cq)
  ++ s.cond.lastFailed.map (fun q => (getSeq s q).cq)

/-- Entries that the TOKENS records of the step in progress, and those that wait, still need on a completion ring. -/
def promised (s : State) (cq : Nat) : Nat :=
  let recs := match s.cond.current, s.cond.forming with
    | some r, _ => r.recs
    | none, some r => r.recs
    | none, none => []
  ((if recs.isEmpty then [] else tokenRings s recs).filter (· == cq)).length
    + ((getCq s cq).waiting.filter (fun r => r.kind == 0x10)).length

/-- Entries that a record must leave free: a TASK, UPDATE or RING_ERROR record those of the step's TOKENS records, and one that
is kept for a JOB_FAULT record while a step task set is registered (R472). -/
def cqKeep (s : State) (cq kind : Nat) : Nat :=
  if s.stepSet.isSome && (kind == 0x01 || kind == 0x02 || kind == 0x12) then 1 + promised s cq else 0

/-- The first record that may start, and the others. -/
def pickRecord (ok : Record → Bool) : List Record → Option (Record × List Record)
  | [] => none
  | r :: rs => if ok r then some (r, rs) else (pickRecord ok rs).map (fun x => (x.1, r :: x.2))

/-- Drop the descriptors at the front whose records are written; answer how many. -/
def retireFront : List DescSlot → Nat × List DescSlot
  | [] => (0, [])
  | d :: ds => if d.ended then let r := retireFront ds; (r.1 + 1, r.2) else (0, d :: ds)

/-- The record of descriptor `index` is written: the counter passes every descriptor that it can (R155). -/
def retire (ring index : Nat) (s : State) : State :=
  modRing s ring (fun r =>
    let done := r.slots.map (fun d => if d.index == index then { d with ended := true } else d)
    let f := retireFront done
    { r with prog := r.prog + f.1, slots := f.2 })

/-- The MSI-X message of a written record (R466). -/
def announce (cq fault : Nat) (s : State) : State :=
  let c := getCq s cq
  if fault != 0 || !c.modHold then
    sendMsix c.vector (modCq s cq (fun x => { x with msgPending := false, modHold := x.moderation != 0 }))
  else modCq s cq (fun x => { x with msgPending := true })

/-- Set the phase bit: 1 on the first lap, inverted on each later one (R471). -/
def phaseByte (c : CompRing) (b : Byte) : Byte :=
  if c.entries != 0 && c.written / c.entries % 2 == 1 then b &&& 0x7F else b ||| 0x80

/-- Start the first record of a ring's queue for which an entry is free (R471, R472): lines 1 to 3 go first. Records that a core
reset left go in their order (R158). -/
def startRecord (cq : Nat) (s : State) : State :=
  let c := getCq s cq
  let ok := fun (r : Record) => decide (cqKeep s cq r.kind < cqFree c)
  match pickRecord ok (if c.owed = 0 then c.waiting else c.waiting.take 1) with
  | none => s
  | some (r, l) =>
    if c.state != .active || c.writing.isSome then s
    else
      let rs := l ++ (if c.owed = 0 then [] else c.waiting.drop 1)
      let at0 := c.base + 256 * (c.written % c.entries)
      let s1 := modCq s cq (fun x => { x with waiting := rs, writing := some (r, 3) })
      forAll [1, 2, 3] (fun a i =>
        d2hSend d2hItoMWr (at0 + 64 * i) ((r.bytes.drop (64 * i)).take 64) (.recordLines cq) a) s1

/-- One of lines 1 to 3 has completed: after the last, line 0 is written. -/
def recordLineDone (cq : Nat) (s : State) : State :=
  let c := getCq s cq
  match c.writing with
  | some (r, n + 1) =>
    let s1 := modCq s cq (fun x => { x with writing := some (r, n) })
    if n != 0 then s1
    else match r.bytes.take 64 with
      | b :: bs =>
        d2hSend d2hItoMWr (c.base + 256 * (c.written % c.entries)) (phaseByte c b :: bs) (.recordLine0 cq) s1
      | [] => s1
  | _ => s

/-- Line 0 has completed: the record is written. -/
def recordDone (cq : Nat) (s : State) : State :=
  match (getCq s cq).writing with
  | some (r, _) =>
    let s1 := evHub 0xB1 cq 1 (modCq s cq (fun x => { x with writing := none, written := x.written + 1, owed := x.owed - 1 }))
    let s2 := if r.kind == 0x01 || r.kind == 0x02 then retire r.ring r.index s1 else s1
    let s3 := announce cq (ofBytes ((r.bytes.drop 2).take 2)) s2
    if !recordsWritten s && recordsWritten s3 then askAll s3 else s3
  | none => s

end Sys2Proof.Machine
end

