-- ==== Sys2Proof/Machine/StepOps.lean ====
section
/-!
DEFINITION. Tasks and ops as they end, and what a step's binding and abort do (R38, R73 to R78, R94, R95, R122, R123,
R128, R132, R133, R135, R146, R445).
-/
namespace Sys2Proof.Machine

/-! ### Window entries -/

def findEntry (s : State) (tile uid : Nat) : Option Entry := (getTile s tile).window.find? (fun e => e.uid == uid)

def modEntry (tile uid : Nat) (f : Entry → Entry) (s : State) : State :=
  modTile s tile (fun x => { x with window := x.window.map (fun e => if e.uid == uid then f e else e) })

def dropEntry (tile uid : Nat) (s : State) : State :=
  modTile s tile (fun x => { x with window := x.window.filter (fun e => e.uid != uid) })

/-- The op of an entry with its bound values filled in. -/
def entryOp (s : State) (e : Entry) : OpWord := bindOp (opCfg s e.op) e.op e.bind

def entryBase (s : State) (tile : Nat) (e : Entry) : Nat := dBase (getTask s tile e.task).desc

def entryIns (s : State) (tile : Nat) (e : Entry) : List Ext :=
  insOf (opCfg s e.op) tile (entryBase s tile e) (entryOp s e) e.advLines (bindIdx e.op e.bind) e.record

def entryOuts (s : State) (tile : Nat) (e : Entry) : List Ext :=
  outsOf (opCfg s e.op) tile (entryBase s tile e) (entryOp s e) e.advLines (bindIdx e.op e.bind) e.record

/-- Granules of extents as (tile, granule), each once. -/
def granulesOf (xs : List Ext) : List (Nat × Nat) :=
  (xs.flatMap (fun x => (extGranules x).map (fun g => (x.tile, g)))).eraseDups

/-- Input granules that the entry consumes when it completes (R77, R128): those that some consumed operand covers. -/
def consumedOf (e : Entry) (xs : List Ext) : List (Nat × Nat) :=
  granulesOf (xs.filter (fun x => bit e.consume x.opnd))

/-- An engine op's priority class, for the counters. -/
def entryPrio (s : State) (tile : Nat) (e : Entry) : Nat := dPrio (getTask s tile e.task).desc

/-! ### Tasks -/

def isResident (s : State) (tile k : Nat) : Bool := (mapKeys (getTile s tile).tasks).contains k

/-- Free a task's place (R93). -/
def freeTask (tile k : Nat) (s : State) : State :=
  modTile s tile (fun x => { x with tasks := mapSet {} x.tasks k {} })

/-- A step task starts from its first op, its waits to be tested afresh (R123). -/
def startTask (tile k : Nat) (s : State) : State :=
  evCount tile 0x1D 0 (dPrio (getTask s tile k).desc) 1
    (modTask s tile k (fun x => { x with
      phase := .waiting, pos := 0, block := [], loops := [], waitMet := 0, holdBy := none, arrived := [], fault := 0, faultOp := 0,
      status := {}, rebind := false }))

/-- Does a drain in force select this task (R554, R555)? -/
def selects (q : EngineSel) (job : Option Job) (step : Bool) (prio : Nat) : Bool :=
  if q.sel = 0 then true
  else if q.sel = 1 then step && (match job with | some j => j.id == q.job | none => false)
  else bit q.classes prio

/-- The first 64 bytes of a descriptor that waits, read where its class or its id is asked for. -/
def headWord (addr : Nat) (s : State) : DescWord × State :=
  let (r, s1) := pkgRead 1 0 addr 64 s
  (BitVec.ofNat 1024 (ofBytes r.1), s1)

/-- Does a drain in force on the tile hold back a task of this kind and class? -/
def drained (s : State) (tile : Nat) (step : Bool) (prio : Nat) : Bool :=
  (getTile s tile).drains.any (fun q => selects q s.job step prio)

/-- Bind a parked step task, or leave it to be bound when it parks or its drain lifts (R123, R555). -/
def bindTask (tile k : Nat) (s : State) : State :=
  let x := getTask s tile k
  if x.phase = .parked && !drained s tile true (dPrio x.desc) then startTask tile k s
  else modTask s tile k (fun y => { y with rebind := true })

/-- Park a step task; a header that waits for it is bound now. -/
def parkTask (tile k : Nat) (s : State) : State :=
  let x := getTask s tile k
  let s1 := { (modTask s tile k (fun y => { y with phase := .parked, holdBy := none, loops := [] })) with
    cond := { s.cond with ownStatus := engMerge s.cond.ownStatus x.status } }
  if x.rebind then bindTask tile k s1 else s1

/-- Apply a task's signal entries (R38, R52). -/
def signalTask (d : DescWord) (s : State) : State :=
  forAll [0, 1] (fun a i => if bit (dSig d i).1 15 then fenceLocal ((dSig d i).1 % 4096) (dSig d i).2 a else a) s

/-- A task has completed (R38). -/
def completeTask (tile k : Nat) (s : State) : State :=
  let x := getTask s tile k
  let s1 := evCount tile 0x1B 0 (dPrio x.desc) 1 (signalTask x.desc s)
  match x.source with
  | .stepSet => parkTask tile k s1
  | .ring r i => freeTask tile k (taskRecord r i 0 (dTaskId x.desc) 0 tile x.status s1)
  | .residency => freeTask tile k
      { s1 with cond := { s1.cond with residencyWait := s1.cond.residencyWait - 1 } }

/-- A faulted task whose issued ops have ended (R94). -/
def endFaulted (tile k : Nat) (s : State) : State :=
  let x := getTask s tile k
  match x.source with
  | .stepSet => parkTask tile k s
  | .ring r i => freeTask tile k (taskRecord r i x.fault (dTaskId x.desc) x.faultOp tile x.status s)
  | .residency => freeTask tile k s

/-- End a task that has nothing left in the window. -/
def settleTask (tile k : Nat) (s : State) : State :=
  let x := getTask s tile k
  if (getTile s tile).window.any (fun e => e.task == k) then s
  else match x.phase with
  | .finishing => completeTask tile k s
  | .faulted => endFaulted tile k s
  | _ => s

/-! ### Aborting a step at the manager (R132, R135) -/

/-- Is a weight block still being reloaded (R134)? -/
def reloadWaits (s : State) : Bool := s.integ.reloading.any (fun w => !w.lost)

/-- The manager aborts the uncommitted step, be its job held by R528 or not: it fails the step barrier's generation, sends
`MSG_ABORT` to every member and counts the abort; at the limit it holds the job. An abort already in progress absorbs further
causes, which the caller has logged. -/
def mgrAbort (code : Nat) (weights : Bool) (s : State) : State :=
  match s.job, s.stepSet, s.cond.current, s.cond.abort with
  | some j, some ss, some r, none =>
    let n := if weights then s.cond.aborts else s.cond.aborts + 1
    let stop := !weights && decide (ss.params.abortLimit ≤ n)
    let s1 := { s with cond := { s.cond with
      abort := some ⟨r.step, code, j.members⟩, aborts := n, results := [], weightAbort := weights,
      held := s.cond.held || stop } }
    let s2 := stepSendAll 0x04 [r.step, code] (barReleased 0 (getBarrier s 0).done true code s1)
    if stop then jobFaultRecord r.step code n s2 else s2
  | _, _, _, _ => s

/-- May a `POISON` fault at this op come from a block of immutable weights that is being reloaded (R526)? A CLOVE transfer
whose task's package window holds such a block read it. -/
def readsReloading (s : State) (d : DescWord) (op : OpWord) : Bool :=
  opClass op == 5 && decide (opCode op ≤ 5) && clSrc op == 1
    && s.integ.reloading.any (fun w => !w.lost && (match mapGet none s.integ.regions w.region with
      | some p =>
        let a := p.base + 65536 * w.block
        decide (a < dPkgBase d + dPkgBound d) && decide (dPkgBase d < a + 65536)
      | none => false))

/-- A step task of this module has faulted: the manager aborts, a worker reports (R95, R132, R112). `weights` says that the
abort comes from a weight reload (R135). -/
def stepFault (code taskId tile : Nat) (weights : Bool) (s : State) : State :=
  match s.job with
  | none => s
  | some j =>
    if isManager s then mgrAbort code weights s
    else match s.cond.bound with
      | some h => stepSend j.manager 0x12 [h.step, code, taskId, tile] s
      | none => s

/-! ### Faults of tasks (R38, R95) -/

/-- A task faults at an op: its unissued ops leave the window; issued ones run on. Only the first fault counts. A step task's
fault is reported, and aborts the step, at once and not once the issued ops have ended: R95 says only 'then' (DEDUCED from
R82, R132 and R133, which cancel them, log entry 116). -/
def faultTask (tile k code opIx : Nat) (s : State) : State :=
  let x := getTask s tile k
  if x.phase = .faulted || x.phase = .parked then s
  else
    let s1 := modTask s tile k (fun y => { y with phase := .faulted, fault := code, faultOp := opIx, holdBy := none })
    let s2 := modTile s1 tile (fun y => { y with
      window := y.window.filter (fun e => !(e.task == k && e.state = .unissued)) })
    let s3 := evCount tile 0x1C 0 (dPrio x.desc) 1 (esFault code (dTaskId x.desc) s2)
    let weights := code == fPoison && readsReloading s x.desc (x.ops.getD opIx 0)
    settleTask tile k (if isStepTask x then stepFault code (dTaskId x.desc) tile weights s3 else s3)

/-! ### Ops as they end -/

/-- Release every claim of an op. -/
def releaseClaims (tile : Nat) (e : Entry) (s : State) : State :=
  let s1 := forAll (granulesOf (entryIns s tile e)) (fun a g => unclaimIn g.1 g.2 a) s
  forAll (granulesOf (entryOuts s tile e)) (fun a g => unclaimOut (ownerOp tile e.uid) g.1 g.2 a) s1

/-- The number by which an op owns its packets. -/
def opOwner (tile uid : Nat) : Nat := uid * 8 + tile

/-- Are all packets of a MACE op sent (R430)? Those that a limit of R415 holds back are not. -/
def maSent (s : State) (tile uid : Nat) : Bool :=
  match findEntry s tile uid with
  | some e => e.ended && !s.fabric.chans.any (fun c => c.2.retained.any (fun r => r.owner == opOwner tile uid && !r.sentOut))
  | none => true

/-- Is the instance taken? A MACE instance is free again once its op's last packet has been sent. -/
def instTaken (s : State) (tile cls inst : Nat) : Bool :=
  (getEngine s tile cls inst).busy && !(cls == 7 && maSent s tile (getEngine s tile cls inst).uid)

/-- Has the instance an op, whether it is free for the next or not? -/
def engineHasOp (s : State) (tile cls inst : Nat) : Bool :=
  instTaken s tile cls inst
    || (getTile s tile).window.any (fun e => e.state = .issued && !e.ended && opClass e.op == cls && e.inst == inst)

/-- The instance that ran an op is free again. -/
def freeInstance (tile : Nat) (e : Entry) (s : State) : State :=
  if classInstances (opClass e.op) = 0 then s
  else if (getEngine s tile (opClass e.op) e.inst).uid == e.uid then
    modEngine s tile (opClass e.op) e.inst (fun g => { g with busy := false, uid := 0 })
  else s

/-- Tags as an op completes (R76, R77): all outputs marked together, then each consumed granule counted down once. -/
def completeTags (tile : Nat) (e : Entry) (s : State) : State :=
  let outs := granulesOf (entryOuts s tile e)
  let ins := consumedOf e (entryIns s tile e)
  let tag := if opHold e.op then tagHeld else tagFull (opCons e.op)
  let s1 := forAll outs (fun a g => setTag g.1 g.2 tag a) s
  forAll ins (fun a g => setTag g.1 g.2 (tagConsume (getTag a g.1 g.2)) a) s1

/-- Count the slot lines that an op moved between tiles (R86, R627): an input's tile sends each of its lines once. -/
def countCross (tile : Nat) (e : Entry) (s : State) : State :=
  let far := fun (xs : List Ext) => xs.filter (fun x => x.tile != tile)
  let move := fun (u v n : Nat) (a : State) => evCount u 0x23 v 0 n (moveLines u v n a)
  forAll (far (entryOuts s tile e)) (fun a x => move tile x.tile x.lines a)
    (forAll (far (entryIns s tile e)) (fun a x => move x.tile tile x.lines a) s)

/-- An op ends without completing: it consumes nothing and marks nothing (R77); with a fault code its task faults. -/
def failOp (tile uid code : Nat) (s : State) : State :=
  match findEntry s tile uid with
  | none => s
  | some e =>
    let s1 := dropEntry tile uid (freeInstance tile e (releaseClaims tile e s))
    if code = 0 then settleTask tile e.task s1
    else settleTask tile e.task (faultTask tile e.task code e.opIndex s1)

/-- Is an input granule of the op POISONED? -/
def inputBad (s : State) (tile : Nat) (e : Entry) : Bool :=
  (granulesOf (entryIns s tile e)).any (fun g => tagState (getTag s g.1 g.2) = .poisoned)

/-- An op completes with its status: its tags change, its claims and instance are released, and its task may end. One whose
input another reader or the scrubber has poisoned since its issue faults instead: nothing poisoned is marked FULL or HELD
(R82). -/
def completeOp (tile uid : Nat) (st : EngStatus) (s : State) : State :=
  match findEntry s tile uid with
  | none => s
  | some e =>
    if inputBad s tile e then failOp tile uid fPoison s
    else
      let s1 := freeInstance tile e (releaseClaims tile e (completeTags tile e (countCross tile e s)))
      let s2 := modTask (dropEntry tile uid s1) tile e.task (fun x => { x with status := engMerge x.status st })
      settleTask tile e.task s2

/-- Cancel the issued and unissued ops of a task without reporting a fault (R133, R551, R556). -/
def cancelOps (tile k : Nat) (s : State) : State :=
  forAll ((getTile s tile).window.filter (fun e => e.task == k)) (fun a e =>
    let b := if e.state = .issued then freeInstance tile e (releaseClaims tile e a) else a
    dropEntry tile e.uid b) s

/-! ### Packets of ops -/

/-- An op's packets go out: count them against the entry. -/
def sendForOp (k tile uid : Nat) (b : PktBody) (s : State) : State :=
  sendPacket k (opOwner tile uid) b (modEntry tile uid (fun e => { e with sent := e.sent + 1 }) s)

/-- One packet of an op is settled: acknowledged, refused or discarded, with a fault code or 0. An op whose engine has
ended completes, or faults, once all its packets are settled (R412). -/
def settlePacket (own code : Nat) (s : State) : State :=
  if own = 0 then s
  else
    let tile := own % 8
    let uid := own / 8
    let s1 := modEntry tile uid (fun e => { e with
      sent := e.sent - 1, fault := if e.fault = 0 then code else e.fault }) s
    match findEntry s1 tile uid with
    | none => s1
    | some e =>
      if e.ended && e.sent = 0 then
        (if e.fault = 0 then completeOp tile uid {} s1 else failOp tile uid e.fault s1)
      else s1

/-! ### Windows at a step's edges (R423, R424, R444 to R446) -/

/-- A slot window claims every granule of its bound that is EMPTY and unclaimed (R423). -/
def winClaim (w : Nat) (s : State) : State :=
  let x := getWin s w
  match x.params with
  | some p =>
    if p.kind == 0 then
      let g0 := p.base / 4096
      forAll ((List.range (p.bound / 4096)).map (· + g0)) (fun a g =>
        if (getWin a w).claimed.contains g then a
        else if getTag a p.tile g == tagEmpty && outClaim a p.tile g == 0 then
          modWin (claimOut (ownerWin w) p.tile g a) w (fun y => { y with claimed := y.claimed ++ [g] })
        else a) s
    else s
  | none => s

/-- Begin an epoch: counts and touch bits clear; a slot window claims its granules. -/
def winBegin (w : Nat) (s : State) : State :=
  winClaim w (modWin s w (fun x => { x with
    lasts := 0, accepted := 0, begun := false, poisoned := false, touched := [], lastsWait := [] }))

/-- Windows with an expected count have epochs (R422). -/
def hasEpochs (x : Window) : Bool :=
  match x.params with
  | some p => p.expected != 0
  | none => false

/-- The epoch in progress of a window is discarded (R424, R446): claims stay, counts and touch bits clear, and what its
adders still hold is dropped. -/
def winDiscard (w : Nat) (s : State) : State :=
  let s1 := modWin s w (fun x => { x with lasts := 0, accepted := 0, begun := false, k := 0, touched := [], poisoned := false,
                                          shardDone := false, lastsWait := [] })
  { s1 with fabric := { s1.fabric with accums := mapVals [] (fun l => l.filter (fun a => !(a.isWindow && a.window == w))) s1.fabric.accums } }

def winStaging (x : Window) : Option Nat := match x.params with | some p => p.staging | none => none

/-- A run begins at every step-bound window (R445): its tag, k = 0, epoch 0; an epoch that a commit left incomplete in a staging
buffer is discarded (R446). -/
def windowsBind (tag : Nat) (s : State) : State :=
  forAll (s.fabric.windows.map (·.1)) (fun a w =>
    let x := getWin a w
    if x.isOpen && x.stepBound then
      winBegin w (modWin (if (winStaging x).isSome then winDiscard w a else a) w
        (fun y => { y with runTag := tag, k := 0, shardDone := false }))
    else a) s

/-! ### Binding a step (R122, R123, R146, R147) -/

/-- Byte of the token list in the step buffer (R122). -/
def tokenListAt (p : StepSetParams) : Nat := 64 * ceilDiv (256 + 32 * p.seqsPerStep) 64

/-- Run tag of a header (R437). -/
def runTagOf (h : StepHeader) : Nat := 16 * (h.step % 16) + h.rerunCount % 16

/-- Step tasks of a tile, in the order of registration. -/
def stepTasks (s : State) (tile : Nat) : List Nat :=
  ((getTile s tile).tasks.filter (fun kv => isStepTask kv.2)).map (·.1)

/-- Bind header and token list: bases recorded, windows begin the run, pending increments applied, step tasks bound. -/
def bindStep (h : StepHeader) (toks : List Nat) (s : State) : State :=
  match s.stepSet with
  | none => s
  | some ss =>
    let bases := ss.params.counters.foldl (fun m c => mapSet 0 m c (fenceVal s c)) []
    let s1 := { s with
      cond := { s.cond with
        hdrSeen := none, toksSeen := none, bound := some h, boundToks := toks,
        lastRun := some (h.step, h.rerunCount),
        ownStatus := { reIncomplete := s.cond.lateEpochs }, ownReports := [], resultSent := false, abortedStep := none, doneOwed := none, lostSeen := [] }
      fences := { s.fences with bases := bases } }
    let s2 := if h.rerun then evHub 0xA2 0 1 s1 else s1
    let s3 := drainPending (windowsBind (runTagOf h) s2)
    forAll tileList (fun a t => forAll (stepTasks a t) (fun b k => bindTask t k b) a) s3

/-- Bind once both parts are in; a token list of the wrong length fails the step with `FORMAT` (R122). -/
def tryBind (s : State) : State :=
  match s.cond.hdrSeen, s.cond.toksSeen with
  | some h, some toks =>
    if toks.length == h.tokenCount then bindStep h toks s
    else
      let s1 := { s with cond := { s.cond with hdrSeen := none, toksSeen := none } }
      (match s.job with
       | some j => stepSend j.manager 0x12 [h.step, fFormat, 0, 0] (esFault fFormat 0 s1)
       | none => s1)
  | _, _ => s

/-! ### Cancelling tasks (R556) and entering FAILED (R520, R522, R523) -/

/-- A task that a cancel ended: its ring, descriptor, `TASK_ID` and tile. -/
structure Ended where
  ring : Nat
  index : Nat
  taskId : Nat
  tile : Nat
  status : EngStatus
deriving DecidableEq, Repr

def insertEnded (e : Ended) : List Ended → List Ended
  | [] => [e]
  | x :: xs => if e.index < x.index then e :: x :: xs else x :: insertEnded e xs

/-- Cancel one resident task: a step task faults with `ABORTED`, any other ends (R556 actions 1 and 2). -/
def cancelTask (tile k : Nat) (acc : List Ended × State) : List Ended × State :=
  let x := getTask acc.2 tile k
  let s1 := cancelOps tile k acc.2
  match x.source with
  | .stepSet => (acc.1, faultTask tile k fAborted 0 s1)
  | .ring r i => (insertEnded ⟨r, i, dTaskId x.desc, tile, x.status⟩ acc.1, freeTask tile k s1)
  | .residency => (acc.1, freeTask tile k s1)

/-- Cancel the selected resident and queued tasks of one tile. A queued task's class is read from its descriptor. -/
def cancelTile (q : EngineSel) (tile : Nat) (acc : List Ended × State) : List Ended × State :=
  let s := acc.2
  let hit := (getTile s tile).tasks.filter (fun kv => selects q s.job (isStepTask kv.2) (dPrio kv.2.desc))
  let a1 := (hit.map (·.1)).foldl (fun a k => cancelTask tile k a) acc
  let s1 := a1.2
  (getTile s1 tile).queue.foldl (fun a w =>
    let (d, u) := headWord w.addr a.2
    if selects q u.job false (dPrio d) then
      let s2 := modTile u tile (fun x => { x with queue := x.queue.erase w })
      match w.source with
      | .ring r i => (insertEnded ⟨r, i, dTaskId d, tile, {}⟩ a.1, s2)
      | _ => (a.1, s2)
    else (a.1, u)) a1

/-- Cancel the selected tasks on the named tiles and write the records of those that ended, in submission order; answer
how many ended. -/
def cancelTasks (q : EngineSel) (s : State) : Nat × State :=
  let r := (maskBits 8 q.tiles).foldl (fun a t => cancelTile q t a) ([], s)
  (r.1.length, r.1.foldl (fun a e => taskRecord e.ring e.index fAborted e.taskId 0 e.tile e.status a) r.2)

/-- Every tile, every task. -/
def selAll : EngineSel := ⟨255, 0, 0, 0⟩

/-- Enter FAILED (R523). Health becomes FAILED with it: R523 sends the change of health (DEDUCED). -/
def enterFailed (s : State) : State :=
  if s.life.state = .failed then s
  else
    let s1 := (cancelTasks selAll s).2
    let s2 := match s1.cond.current with
      | some r => if isManager s1 && !s1.cond.stopped then jobFaultRecord r.step fAborted s1.cond.aborts s1 else s1
      | none => if isManager s1 && s1.stepSet.isSome && !s1.cond.stopped
          then jobFaultRecord s1.cond.nextStep fAborted s1.cond.aborts s1 else s1
    esRaise 19 (worsen .failed (setModState .failed { s2 with cond := { s2.cond with stopped := true } }))

/-- A location cannot hold data (R520, R522). -/
def cannotHold (s : State) : State := enterFailed (worsen .failed s)

end Sys2Proof.Machine
end

