-- ==== Sys2Proof/Machine/Io.lean ====
section
/-!
DEFINITION. How engines read operands and write results: rows of packed elements, block scales, poison by byte, and the
end of an op that has its data (R70, R74, R82, R163, R168 to R171, R184, R185, R279, R344, R514).
-/
namespace Sys2Proof.Machine

/-! ### Packing (R163) -/

/-- Cut a list into pieces of `k` (the last may be shorter); the fuel is the list's length. -/
def chunkGo {α : Type} (k : Nat) : Nat → List α → List (List α)
  | 0, _ => []
  | n + 1, l => if l.isEmpty then [] else l.take k :: chunkGo k n (l.drop k)

def chunk {α : Type} (k : Nat) (l : List α) : List (List α) := chunkGo k l.length l

/-- Elements in a packing group, by element width: the group fills whole bytes. -/
def groupLen : Nat → Nat
  | 4 => 2 | 6 => 4 | _ => 1

/-- The first `n` element codes of `w` bits in a run of bytes. -/
def codesOf (w n : Nat) (bs : List Byte) : List Nat :=
  let g := groupLen w
  ((chunk (g * w / 8) bs).flatMap (fun b =>
    let x := ofBytes b
    (List.range g).map (fun i => x / 2 ^ (w * i) % 2 ^ w))).take n

/-- The bytes of a run of element codes. -/
def packCodes (w : Nat) (cs : List Nat) : List Byte :=
  let g := groupLen w
  (chunk g cs).flatMap (fun c =>
    le (g * w / 8) ((c.zipIdx).foldl (fun a x => a + x.1 % 2 ^ w * 2 ^ (w * x.2)) 0))

/-- Bytes that hold the first `n` elements of `w` bits of a row: whole packing groups (R163). -/
def rowBytes (w n : Nat) : Nat := ceilDiv n (groupLen w) * (groupLen w * w / 8)

/-! ### Bytes with poison -/

/-- A byte and whether it was read poisoned. -/
abbrev PByte := Byte × Bool

def bytesOf (l : List PByte) : List Byte := l.map (·.1)
def anyBad (l : List PByte) : Bool := l.any (·.2)

/-- Each half line's outcome for the halves from `h` up. -/
def halfFlags (tile h : Nat) : Nat → State → List Bool × State
  | 0, s => ([], s)
  | n + 1, s =>
    let (b, s1) := halfRead tile h s
    let (r, s2) := halfFlags tile (h + 1) n s1
    (b :: r, s2)

/-- Read slot bytes with the outcome of each half. -/
def slotReadP (who tile a n : Nat) (s : State) : List PByte × State :=
  if n = 0 then ([], s)
  else
    let h0 := a / 32
    let (fs, s1) := halfFlags tile h0 ((a + n - 1) / 32 - h0 + 1) s
    let s2 := evCount tile 0x20 who 0 ((a + n - 1) / 64 - a / 64 + 1) s1
    ((List.range n).map (fun i => (memGet (getSlot s2 tile).bytes (a + i), fs.getD ((a + i) / 32 - h0) false)), s2)

/-- Flags of codewords, by byte. -/
def flatCws (l : List (List Byte × Bool)) : List PByte := l.flatMap (fun c => c.1.map (fun b => (b, c.2)))

/-- Read package bytes with the poison of each codeword. -/
def pkgReadP (cls hint dpa n : Nat) (s : State) : List PByte × State :=
  let (rs, s1) := readCws cls hint (dpa / 64) (cwSpan dpa n) s
  (((flatCws rs).drop (dpa % 64)).take n, s1)

/-- Bytes and poison of a package codeword whose request has been served. -/
def peekCw (s : State) (dpa : Nat) : List Byte × Bool :=
  let c := cwOf s dpa
  (memRead s.pkg.bytes (c * 64) 64, mapGet false s.pkg.poison c || reloadingAt s dpa)

def pkgPeekP (s : State) (dpa n : Nat) : List PByte :=
  let w := dpa / 64
  ((flatCws ((List.range (cwSpan dpa n)).map (fun i => peekCw s ((w + i) * 64)))).drop (dpa % 64)).take n

/-- Write bytes inside one 128-byte line, each codeword poisoned if a byte of it is. -/
def writeLineP (cls hint dpa : Nat) (bs : List PByte) (s : State) : State :=
  let room := 64 - dpa % 64
  let lo := bs.take room
  let hi := bs.drop room
  if hi.isEmpty || anyBad lo == anyBad hi then writeLine cls hint dpa (bytesOf bs) (anyBad bs) s
  else writeLine cls hint (dpa + room) (bytesOf hi) (anyBad hi) (writeLine cls hint dpa (bytesOf lo) (anyBad lo) s)

def writeLinesP (cls hint dpa : Nat) (bs : List PByte) : Nat → State → State
  | 0, s => s
  | n + 1, s =>
    let room := 128 - dpa % 128
    let s1 := if bs.isEmpty then s else writeLineP cls hint dpa (bs.take room) s
    writeLinesP cls hint (dpa + room) (bs.drop room) n s1

/-- Write bytes to package memory, keeping poison by codeword (R344, R368). -/
def pkgWriteP (cls hint dpa : Nat) (bs : List PByte) (s : State) : State :=
  writeLinesP cls hint dpa bs (bs.length / 128 + 2) s

/-! ### Elements -/

/-- Decode for use as FP32 (R279): overflow to infinity, magnitudes below 2⁻¹²⁶ to zero. FP6 and FP4 grid values lie
inside the range. -/
def toFp32 : FVal → FVal
  | .fin n m e => if m = 0 then .fin n 0 0
    else if magLt m e 1 (-126) then fzero n
    else if magLt (maxFinite fp32).1 (maxFinite fp32).2 m e then .inf n
    else .fin n m e
  | v => v

/-- Element `i` of a row, unscaled or under its block's scale code. -/
def decodeAt (fmt : Nat) (scaled : Bool) (blk : Nat) (scs : List Nat) (i c : Nat) : FVal :=
  if scaled then decodeScaled fmt c (scs.getD (i / blk) 0) else decodeElem fmt c

/-- Decode a row. -/
def decodeRow (fmt : Nat) (scaled : Bool) (blk : Nat) (scs cs : List Nat) : List FVal :=
  cs.zipIdx.map (fun x => decodeAt fmt scaled blk scs x.2 x.1)

/-- The integer that an exact value is. -/
def intOf : FVal → Int
  | .fin n m e => toIntRNE n m e
  | _ => 0

/-- Element (i, j) of rows of codes. -/
def cell (rows : List (List Nat)) (i j : Nat) : Nat := (rows.getD i []).getD j 0

/-- A converted row: its element codes, its scale codes and its events. -/
structure OutRow where
  codes : List Nat
  scales : List Nat
  ev : Ev
deriving DecidableEq, Repr

/-- How an op converts its results. -/
structure OutFmt where
  fmt : Nat
  scaled : Bool
  blk : Nat
  nanOvf : Bool
  sr : Bool
  key : SrKey
deriving DecidableEq, Repr

/-- A value with whether everything it was computed from was finite (R180). -/
abbrev OutVal := FVal × Bool

/-- Convert a row of results; `i0` is the index of its first element in the output (R183). -/
def convRow (f : OutFmt) (i0 : Nat) (vs : List OutVal) : OutRow :=
  let idx := vs.zipIdx
  if f.scaled then
    let bs := (chunk f.blk idx).map (fun b =>
      convBlock f.fmt { nanOvf := f.nanOvf } (b.map (fun x => (x.1, srRounding f.sr f.key (i0 + x.2)))))
    ⟨bs.flatMap (·.2.1), bs.map (·.1), bs.foldl (fun a b => evOr a b.2.2) {}⟩
  else
    let es := idx.map (fun x =>
      convElem f.fmt { nanOvf := f.nanOvf, srcFinite := x.1.2 } (srRounding f.sr f.key (i0 + x.2)) x.1.1)
    ⟨es.map (·.1), [], es.foldl (fun a e => evOr a e.2) {}⟩

/-- The random draws of an op (R183). -/
def srKeyOf (s : State) (tile : Nat) (e : Entry) : SrKey :=
  let k := getTask s tile e.task
  { seed := dSeed k.desc, opIndex := e.opIndex, iter0 := e.iter0, iter1 := e.iter1,
    stepLow := if isStepTask k then e.bind.step % 2 ^ 32 else 0 }

/-! ### Operand rows in slot memory -/

/-- First slot byte of an operand: its tile and byte. -/
structure SlotAt where
  tile : Nat
  byte : Nat
deriving DecidableEq, Repr

def atLine (p : SlotAt) (l : Nat) : SlotAt := { p with byte := p.byte + 64 * l }

/-- Where operand `k` of an entry begins. -/
def opndAt (s : State) (tile : Nat) (e : Entry) (k : Nat) : SlotAt :=
  ⟨refTile tile (opRef (entryOp s e) k), 64 * (entryBase s tile e + refLine (opRef e.op k) + advOf e.advLines k)⟩

/-- Read bytes, noting an uncorrectable half. An op that has met one has stopped (R82, R211): it reads and writes
nothing more. -/
def rd (who : Nat) (p : SlotAt) (n : Nat) (acc : Bool × State) : List Byte × (Bool × State) :=
  if acc.1 then (List.replicate n 0, acc)
  else
    let (r, s1) := slotRead who p.tile p.byte n acc.2
    (r.1, (r.2, s1))

/-- Read rows of element codes at a pitch in lines. -/
def rdRows (who fmt n rowPitch : Nat) (p : SlotAt) : Nat → Bool × State → List (List Nat) × (Bool × State)
  | 0, a => ([], a)
  | r + 1, a =>
    let (bs, a1) := rd who p (rowBytes (fmtBits fmt) n) a
    let (rs, a2) := rdRows who fmt n rowPitch (atLine p rowPitch) r a1
    (codesOf (fmtBits fmt) n bs :: rs, a2)

/-- Read a dense array of scale codes, `per` for each of `rows` rows. -/
def rdScales (who : Nat) (p : SlotAt) (rows per : Nat) (a : Bool × State) : List (List Nat) × (Bool × State) :=
  let (bs, a1) := rd who p (rows * per) a
  (chunk per (bs.map BitVec.toNat), a1)

/-- Write bytes; true is added when a partly written half was uncorrectable. -/
def wr (who : Nat) (p : SlotAt) (bs : List Byte) (acc : Bool × State) : Bool × State :=
  if acc.1 then acc else slotWrite who p.tile p.byte bs acc.2

/-- Write rows of element codes at a pitch in lines. -/
def wrRows (who fmt rowPitch : Nat) (p : SlotAt) : List (List Nat) → Bool × State → Bool × State
  | [], a => a
  | r :: rs, a => wrRows who fmt rowPitch (atLine p rowPitch) rs (wr who p (packCodes (fmtBits fmt) r) a)

/-! ### The end of an engine op -/

/-- The clock in which an entry may complete: it is issued to its engine and its group has started. -/
def running (s : State) (tile uid cls code : Nat) : Option Entry :=
  match findEntry s tile uid with
  | some e =>
    if e.state = .issued && opClass e.op == cls && opCode e.op == code && !e.group && !e.ended then some e else none
  | none => none

/-- Source code of an engine's internal error (R535): the table names one for CUMIN, SAFFRON, SUMAC and ANISE; for the
others it is an open value. -/
def internalKind (cls : Nat) (s : State) : Nat × State :=
  if 1 ≤ cls && cls ≤ 4 then (cls + 7, s) else takeFree 8 s

/-- An internal error of an engine (R512, R514): the op stops and its task faults with `POISON`; an instance with eight
errors within one second cannot hold data. -/
def engineError (tile uid : Nat) (e : Entry) (s : State) : State :=
  let cls := opClass e.op
  let recent := (getEngine s tile cls e.inst).errTimes.filter (fun t => decide (s.life.aonNs < t + 10 ^ 9))
  let s1 := modEngine s tile cls e.inst (fun g => { g with errTimes := recent ++ [s.life.aonNs] })
  let k := internalKind cls s1
  let s2 := failOp tile uid fPoison (log3Add k.1 tile e.inst (evCount tile 0x62 cls 0 1 k.2))
  if 7 ≤ recent.length then cannotHold s2 else s2

/-- An op whose engine reports a parity error stops with it (R512, R514); else it goes on as given. -/
def withParity (tile uid cls code : Nat) (parity : Bool) (f : State → State) (s : State) : State :=
  if parity then
    (match running s tile uid cls code with
     | some e => engineError tile uid e s
     | none => s)
  else f s

/-- End an op: `bad` says that a read or a partial write met poison. -/
def endOp (tile uid : Nat) (bad : Bool) (st : EngStatus) (s : State) : State :=
  if bad then failOp tile uid fPoison s else completeOp tile uid st s

/-- What an op leaves when its data has gone through: its status, whether a read or a partial write met poison, and the
state. -/
abbrev EngRun := EngStatus × (Bool × State)

/-- End an op whose data has gone through. -/
def endRun (tile uid : Nat) (r : EngRun) : State := endOp tile uid r.2.1 r.1 r.2.2

end Sys2Proof.Machine
end

