-- ==== Sys2Proof/Machine/CloveOps.lean ====
section
/-!
DEFINITION. CLOVE's transfers: records and index lists, where rows lie, conversion, key-value lists, and the requests a
transfer makes (spec/12_clove.md, R327 to R347, R633).
-/
namespace Sys2Proof.Machine

/-! ### Transfer records (R334, R335, R633) -/

def clParse (b : List Byte) (idx : List Nat) : ClRec :=
  let f := fun off n => ofBytes ((b.drop off).take n)
  { planes := f 0 2, nidx := f 4 4, srow := f 8 4, drow := f 12 4, splane := f 16 4, dplane := f 20 4,
    channel := f 24 2, window := f 26 1, pos := f 27 1, rsvZero := f 2 2 == 0 && f 28 36 == 0, idx := idx }

/-- Does the record break R334 or R335? -/
def clRecBad (op : OpWord) (r : ClRec) : Bool :=
  let o := opCode op
  let ix := o == 2 || o == 3
  let side := if o == 2 then clSrcSide op (some r) else clDstSide op (some r)
  !r.rsvZero || r.planes == 0 || decide (2 ^ 20 < r.nidx) || decide (4096 ≤ r.channel) || decide (4 ≤ r.pos)
    || (!ix && r.nidx != 0) || (ix && r.planes != 1) || (ix && side.rs != 0 && decide (side.rs < sideStep side))

/-- Is the board position of a kind 2 endpoint this module's own (R401)? -/
def ownBoard (s : State) (r : Option ClRec) : Bool :=
  match r with
  | some x => x.pos == s.life.pos
  | none => false

/-- Do the extents that the record sets leave the task's windows, or does the op need more indices than the list holds
(R633)? -/
def clExtBad (s : State) (tile : Nat) (e : Entry) (r : ClRec) : Bool :=
  let op := entryOp s e
  let d := (getTask s tile e.task).desc
  let ix := bindIdx e.op e.bind
  let o := opCode op
  let sp := clSpans op ix (some r)
  let short := (o == 2 || o == 3) && clRows op != 0 && decide (r.nidx < ix + clRows op)
  let slotOut := fun (field adv : Nat) (x : Nat × Nat) => decide (dBound d < refLine field + adv + x.1 + max x.2 1)
  let pkgOut := fun (field adv : Nat) (x : Nat × Nat) => decide (dPkgBound d < 64 * (field + adv + x.1 + x.2))
  let srcBad := if o == 5 then false
    else if clSrc op == 0 then slotOut (opA op) (advOf e.advLines 0) sp.1
    else if clSrc op == 3 then false else pkgOut (opA op) (advOf e.advLines 0) sp.1
  let dstBad := if clDst op == 0 then slotOut (opOut op) (advOf e.advLines 3) sp.2
    else if clDst op == 3 then false else pkgOut (opOut op) (advOf e.advLines 3) sp.2
  let listBad := slotOut (opB op) (advOf e.advLines 1) (0, clLenB op (some r))
  short || srcBad || dstBad || listBad

/-! ### Where bytes lie -/

/-- An endpoint: slot memory, package memory, or a peer behind a channel. -/
inductive Place where
  | slot (tile byte : Nat)
  | pkg (dpa : Nat)
  | board (key dpa : Nat)
  | window (key number byte : Nat)
deriving DecidableEq, Repr

/-- Key of the channel of a far endpoint, if the peer is known. -/
def farKey (s : State) (kind : Nat) (r : Option ClRec) : Option Nat :=
  match r with
  | none => none
  | some x => if kind == 2 then (peerAt s x.pos).map (fun p => chanKey p 2) else generalKey s x.channel

/-- The endpoint of operand field `k` (0 source, 3 destination) of kind `kind`. -/
def clPlace (s : State) (tile : Nat) (e : Entry) (k kind : Nat) : Place :=
  let op := entryOp s e
  let d := (getTask s tile e.task).desc
  let line := opRef op k + advOf e.advLines k
  if kind == 0 then
    let p := opndAt s tile e k
    .slot p.tile p.byte
  else if kind == 1 || (kind == 2 && ownBoard s e.record) then .pkg (dPkgBase d + 64 * line)
  else if kind == 2 then .board ((farKey s 2 e.record).getD 0) (dPkgBase d + 64 * line)
  else .window ((farKey s 3 e.record).getD 0) ((e.record.map (·.window)).getD 0) (64 * line)

/-- Byte offset of row `r` of plane `p` of a side, from its operand; `ix` is the row's index on an indexed side. -/
def rowAt (x : Side) (p r : Nat) (ix : Option Nat) : Nat :=
  64 * (p * sidePs x + (match ix with | some i => i | none => r) * sideRs x)

/-- Byte offset of the scales of row `r` of plane `p`. -/
def scaleAt (x : Side) (p r : Nat) (ix : Option Nat) : Nat :=
  if x.own then rowAt x p r ix + 64 * sidePitch x
  else 64 * (p * sidePs x + sideScAt x) + r * x.scBytes

/-- The rows of a transfer in order: plane, row and index. -/
def rowList (planes rows : Nat) (ixs : Option (List Nat)) : List (Nat × Nat × Option Nat) :=
  (List.range planes).flatMap (fun p => (List.range rows).map (fun r =>
    (p, r, match ixs with | some l => some (l.getD r 0) | none => none)))

def srcIdx (op : OpWord) (s : Nat) (r : Option ClRec) : Option (List Nat) :=
  if opCode op == 2 then r.map (usedIdx op s) else none
def dstIdx (op : OpWord) (s : Nat) (r : Option ClRec) : Option (List Nat) :=
  if opCode op == 3 then r.map (usedIdx op s) else none

/-- Byte ranges (offset, length) that an op reads on its source side: each row's elements, then its scales. -/
def srcPieces (op : OpWord) (s : Nat) (r : Option ClRec) : List (Nat × Nat) :=
  if opCode op == 5 then []
  else
    let x := clSrcSide op r
    (rowList x.planes x.rows (srcIdx op s r)).flatMap (fun t =>
      (rowAt x t.1 t.2.1 t.2.2, rowBytes (fmtBits x.fmt) x.n)
        :: (if x.scBytes = 0 then [] else [(scaleAt x t.1 t.2.1 t.2.2, x.scBytes)]))

/-- Byte ranges that an op writes. -/
def dstPieces (op : OpWord) (s : Nat) (r : Option ClRec) : List (Nat × Nat) :=
  let x := clDstSide op r
  (rowList x.planes x.rows (dstIdx op s r)).flatMap (fun t =>
    (rowAt x t.1 t.2.1 t.2.2, rowBytes (fmtBits x.fmt) x.n)
      :: (if x.scBytes = 0 then [] else [(scaleAt x t.1 t.2.1 t.2.2, x.scBytes)]))

/-- Codeword addresses that a byte range touches. -/
def cwAddrs (dpa n : Nat) : List Nat := (List.range (cwSpan dpa n)).map (fun i => (dpa / 64 + i) * 64)

/-- Lines that byte ranges touch, for the counters. -/
def linesTouched (base : Nat) (ps : List (Nat × Nat)) : Nat := (ps.map (fun p => cwSpan (base + p.1) p.2)).sum

/-! ### Key-value lists (R251, R256, R338 to R341) -/

/-- A list entry. -/
structure KvEntry where
  pte : Nat
  first : Nat
  count : Nat
  layer : Nat
  kind : Nat
deriving DecidableEq, Repr

def pteValid (p : Nat) : Bool := bit p 31
def ptePage (p : Nat) : Nat := p % 2 ^ 22
def pteShared (p : Nat) : Bool := bit p 30

def listAddr (p : PoolParams) (tile n : Nat) : Nat := p.work + (256 * tile + n) * p.listBytes

def kvParse : Nat → List Byte → List KvEntry
  | 0, _ => []
  | n + 1, b =>
    { pte := ofBytes (b.take 4), first := ofBytes ((b.drop 4).take 1) % 32, count := ofBytes ((b.drop 5).take 1),
      layer := ofBytes ((b.drop 6).take 1), kind := ofBytes ((b.drop 7).take 1) } :: kvParse n (b.drop 8)

/-- The tile whose list a key-value op reads: that of the token its operand B names (R338). -/
def kvListTile (tile : Nat) (op : OpWord) : Nat := refTile tile (opB op)

/-- Entries that a list of `bytes` can hold. -/
def listMax (bytes : Nat) : Nat := (bytes - 16) / 8

/-- The entries of a list as the package memory holds them now, without reading it, cut at the list's size. -/
def kvPeek (s : State) (p : PoolParams) (tile n : Nat) : List KvEntry × Bool :=
  let a := listAddr p tile n
  let hd := pkgPeekP s a 16
  let cnt := min (ofBytes ((bytesOf hd).take 4)) (listMax p.listBytes)
  let body := pkgPeekP s (a + 16) (8 * cnt)
  (kvParse cnt (bytesOf body), anyBad hd || anyBad body)

/-- The tile whose page range holds a page id (R244). -/
def pageTile (p : PoolParams) (page : Nat) : Option Nat :=
  tileList.find? (fun t => decide (p.first.getD t 0 ≤ page) && decide (page < p.first.getD t 0 + p.count.getD t 0))

/-- Address of a page (R245). The spec gives none to an id that no tile's range holds: it is a free value. -/
def pageAddr (s : State) (p : PoolParams) (page : Nat) : Nat :=
  match pageTile p page with
  | some t => (p.base.getD t 0 + (page - p.first.getD t 0) * pageBytes p) % 2 ^ 39
  | none => (Config.freeValue (s.freeUsed + page) % 2 ^ 25) * 16384

/-- Byte range within a page for plane `pl`: of positions from `first`, or of the plane's per-page field. -/
def kvRange (op : OpWord) (pl first count : Nat) : Nat × Nat :=
  if kvPerPage op then (64 * kvPageOff op + pl * kvRb op, kvRb op)
  else (64 * kvPageOff op + (32 * pl + first) * kvRb op, count * kvRb op)

/-- Entries of a layer and kind with the slot-side byte offset of each in its plane. -/
def kvPlaced (op : OpWord) (kind : Nat) (es : List KvEntry) : List (KvEntry × Nat) :=
  let mine := es.filter (fun e => e.layer == kvLayer op && e.kind == kind)
  (mine.foldl (fun (a : List (KvEntry × Nat) × Nat) e =>
    (a.1 ++ [(e, a.2)], a.2 + (if kvPerPage op then kvRb op else e.count * kvRb op))) ([], 0)).1

/-- Bytes per plane that the entries need on the slot side. -/
def kvNeed (op : OpWord) (kind : Nat) (es : List KvEntry) : Nat :=
  ((es.filter (fun e => e.layer == kvLayer op && e.kind == kind)).map
    (fun e => if kvPerPage op then kvRb op else e.count * kvRb op)).sum

/-- Copy pairs of a layer, source before destination (R256). -/
def kvPairs (op : OpWord) (es : List KvEntry) : List (KvEntry × KvEntry) :=
  let ks := es.filter (fun e => e.layer == kvLayer op && (e.kind == 2 || e.kind == 3))
  (chunk 2 ks).filterMap (fun c => match c with
    | [a, b] => some (a, b)
    | _ => none)

/-! ### Requests of a transfer (R103, R342) -/

/-- Memory class of a task's CLOVE requests (R103). -/
def memClass (prio : Nat) : Nat := min prio 2

/-- Hint of an op's accesses to a side: an access of kind 2 uses DEFAULT, also where it names this module's own position
(R342). -/
def sideHint (op : OpWord) (kind : Nat) : Nat := if 6 ≤ opCode op then kvHint op else if kind == 2 then 0 else clHint op

/-- Package codewords of this module that an op reads and writes. -/
def clCodewords (s : State) (tile : Nat) (e : Entry) : List Nat × List Nat :=
  let op := entryOp s e
  let ix := bindIdx e.op e.bind
  if opCode op ≤ 5 then
    let rdl := match clPlace s tile e 0 (clSrc op) with
      | .pkg dpa => (srcPieces op ix e.record).flatMap (fun p => cwAddrs (dpa + p.1) p.2)
      | _ => []
    let wrl := match clPlace s tile e 3 (clDst op) with
      | .pkg dpa => (dstPieces op ix e.record).flatMap (fun p => cwAddrs (dpa + p.1) p.2)
      | _ => []
    (rdl, wrl)
  else match s.fennel.pool with
    | none => ([], [])
    | some p =>
      let es := (kvPeek s p (kvListTile tile op) (kvList op)).1
      let a := listAddr p (kvListTile tile op) (kvList op)
      let own := cwAddrs a (16 + 8 * es.length)
      let page := fun (k : KvEntry) => (List.range (kvPlanes op)).flatMap (fun pl =>
        let r := kvRange op pl k.first k.count
        cwAddrs (pageAddr s p (ptePage k.pte) + r.1) r.2)
      let ofKind := fun kind => es.filter (fun k => k.layer == kvLayer op && k.kind == kind && pteValid k.pte)
      if opCode op == 6 then (own ++ (ofKind 0).flatMap page, [])
      else (own ++ (ofKind 2).flatMap page, (ofKind 3).flatMap page ++ (ofKind 1).flatMap page)

/-- Queue one request at the controller of its codeword (R361, R362). -/
def queueReq (cls tile hint owner : Nat) (write : Bool) (dpa : Nat) (s : State) : State :=
  let c := cwOf s dpa
  modMc s (cwTile c) (cwChan c) (fun x => { x with queue := x.queue ++
    [⟨cls, (getTile s tile).timeNs, tile, hint, dpa, write, owner, false⟩] })

/-- Queue the requests of an issued CLOVE op. -/
def queueClove (tile : Nat) (e : Entry) (s : State) : State :=
  let cw := clCodewords s tile e
  let cls := memClass (entryPrio s tile e)
  let op := entryOp s e
  let own := opOwner tile e.uid
  let s1 := forAll cw.1 (fun a d => queueReq cls tile (sideHint op (clSrc op)) own false d a) s
  forAll cw.2 (fun a d => queueReq cls tile (sideHint op (clDst op)) own true d a) s1

/-- Does any controller still hold a request of this op? -/
def reqsPending (s : State) (tile uid : Nat) : Bool :=
  s.pkg.chans.any (fun c => c.2.queue.any (fun r => r.owner == opOwner tile uid))

/-! ### READs of a far source (R426) -/

/-- Cut a byte range into packets of at most 4,096 bytes. -/
def pktCuts (at0 n : Nat) : List (Nat × Nat) :=
  (List.range (ceilDiv n 4096)).map (fun i => (at0 + 4096 * i, min 4096 (n - 4096 * i)))

/-- Ask a peer for the source of an issued op. -/
def sendReads (tile : Nat) (e : Entry) (s : State) : State :=
  let op := entryOp s e
  let ps := (srcPieces op (bindIdx e.op e.bind) e.record).flatMap (fun p => pktCuts p.1 p.2)
  let s1 := modEntry tile e.uid (fun x => { x with lines := (ps.map (·.2)).sum }) s
  match clPlace s tile e 0 (clSrc op) with
  | .board k dpa => forAll ps (fun a p =>
      sendForOp k tile e.uid { op := 0x02, offset := dpa + p.1, aux := 2 ^ 32 * p.2 } a) s1
  | .window k w b => forAll ps (fun a p =>
      sendForOp k tile e.uid
        { op := 0x02, window := w, offset := b + p.1, aux := stampEpoch a (keyPeer k) w + 2 ^ 32 * p.2 } a) s1
  | _ => s1

/-- Channels that an op names: a far source or destination, or a MACE contribution to a peer. -/
def opChannels (s : State) (tile : Nat) (e : Entry) : List (Option Nat) :=
  let op := entryOp s e
  if opClass op == 5 && decide (opCode op ≤ 5) then
    [0, 3].filterMap (fun k =>
      match clPlace s tile e k (if k == 0 then (if opCode op == 5 then 0 else clSrc op) else clDst op) with
      | .board _ _ => some (farKey s 2 e.record)
      | .window _ _ _ => some (farKey s 3 e.record)
      | _ => none)
  else if opClass op == 7 then
    (if maDest op == 1 then [generalKey s (maChannel op)]
     else if maDest op == 2 && maPos op != s.life.pos then [(peerAt s (maPos op)).map (fun p => chanKey p 2)]
     else [])
  else []

/-! ### Moving the data -/

/-- A source piece with its bytes. -/
abbrev Data := List PByte

/-- Read the source pieces of an op whose requests have been served. -/
def readPieces (pl : Place) (ps : List (Nat × Nat)) (s : State) : List Data × State :=
  match pl with
  | .slot t b => ps.foldl (fun (a : List Data × State) p =>
      let (d, s1) := slotReadP 0 t (b + p.1) p.2 a.2
      (a.1 ++ [d], s1)) ([], s)
  | .pkg dpa => (ps.map (fun p => pkgPeekP s (dpa + p.1) p.2), s)
  | _ => ([], s)

/-- Cut returned data into the pieces asked for. -/
def cutPieces : List (Nat × Nat) → Data → List Data
  | [], _ => []
  | p :: ps, d => d.take p.2 :: cutPieces ps (d.drop p.2)

/-- Data that came back from a peer, with its poison. -/
def gotPieces (e : Entry) (ps : List (Nat × Nat)) : List Data :=
  cutPieces ps (e.gotData.zipIdx.map (fun x => (x.1, e.bads.any (fun r => decide (r.1 ≤ x.2) && decide (x.2 < r.1 + r.2)))))

/-- Poison flags of the elements of a row: that of any byte of the element's packing group. -/
def elemFlags (w n : Nat) (d : Data) : List Bool :=
  let g := groupLen w
  ((chunk (g * w / 8) d).flatMap (fun c => List.replicate g (anyBad c))).take n

/-- Pair packed bytes with the flags of the elements they hold. -/
def packFlags (w : Nat) (cs : List Nat) (fl : List Bool) : Data :=
  let g := groupLen w
  (chunk g (cs.zip fl)).flatMap (fun c => (packCodes w (c.map (·.1))).map (fun b => (b, c.any (·.2))))

/-- Spread flags over whole blocks. -/
def blockFlags (blk : Nat) (fl : List Bool) : List Bool := (chunk blk fl).flatMap (fun c => c.map (fun _ => c.any id))

/-- One converted row: its bytes, its scale bytes and what it raised. -/
structure ClRow where
  data : Data
  scales : Data
  fl : OpFlags
deriving DecidableEq, Repr

/-- Convert one row (R333): decode by R279, round by the destination's rules; poison follows the values. -/
def clConvRow (op : OpWord) (key : SrKey) (i0 : Nat) (row scs : Data) : ClRow :=
  let ws := fmtBits (clFs op)
  let n := clE op
  let sc := scs.map (fun b => b.1.toNat)
  let codes := codesOf ws n (bytesOf row)
  let vals := (decodeRow (clFs op) (clScS op) (clBlk op) sc codes).map toFp32
  let f0 := elemFlags ws n row
  let f1 := if clScS op then f0.zipIdx.map (fun x => x.1 || ((scs[x.2 / clBlk op]?).map (·.2)).getD false) else f0
  let f2 := if clScS op then blockFlags (clBlk op) f1 else f1
  let f3 := if clScD op then blockFlags (clBlk op) f2 else f2
  let f : OutFmt := ⟨clFd op, clScD op, clBlk op, clsFlag op 13, clsFlag op 14, key⟩
  let r := convRow f i0 (vals.map (fun v => (v, isFinite v)))
  { data := packFlags (fmtBits (clFd op)) r.codes f3
    scales := (r.scales.zip (chunk (clBlk op) f3)).map (fun x => (BitVec.ofNat 8 x.1, x.2.any id))
    fl := { ev := r.ev, nanScale := clScS op && sc.any (· == 0xFF) } }

/-- The transposed rows of one plane (R337). -/
def clTransposed (op : OpWord) (rows : List Data) : List Data :=
  let b := fmtBits (clFs op) / 8
  (List.range (clE op)).map (fun j => rows.flatMap (fun r => (r.drop (j * b)).take b))

/-- Rows of the destination, in its order, with their scales. -/
def clRowsOut (op : OpWord) (key : SrKey) (src : List Data) : List ClRow :=
  if opCode op == 5 then
    let per := (clDstSide op none).scBytes
    [{ data := List.replicate (rowBytes (fmtBits (clFd op)) (clE op)) (0, false)
       scales := List.replicate per (0x7F, false), fl := {} }]
  else if opCode op == 4 then
    (chunk (clRows op) src).flatMap (fun p => (clTransposed op p).map (fun d => ⟨d, [], {}⟩))
  else if clRaw op then src.map (fun d => ⟨d, [], {}⟩)
  else
    let rows := if clScS op then chunk 2 src else src.map (fun d => [d])
    rows.zipIdx.map (fun x => match x.1 with
      | [d, sc] => clConvRow op key (x.2 * clE op) d sc
      | [d] => clConvRow op key (x.2 * clE op) d []
      | _ => ⟨[], [], {}⟩)

/-- The writes of an op: byte offsets from the destination operand, with their bytes. -/
def clWrites (op : OpWord) (s : Nat) (r : Option ClRec) (rows : List ClRow) : List (Nat × Data) :=
  let x := clDstSide op r
  (rowList x.planes x.rows (dstIdx op s r)).zipIdx.flatMap (fun t =>
    match (if opCode op == 5 then rows[0]? else rows[t.2]?) with
    | some d => (rowAt x t.1.1 t.1.2.1 t.1.2.2, d.data)
        :: (if x.scBytes = 0 then [] else [(scaleAt x t.1.1 t.1.2.1 t.1.2.2, d.scales)])
    | none => [])

/-- Cut data at the codeword edges of its target where the poison flag changes, into packets of at most 4,096 bytes. -/
def pktRuns (at0 : Nat) (d : Data) : List (Nat × Data) :=
  let step := fun (a : List (Nat × Data)) (c : Nat × Data) =>
    match a with
    | (p, x) :: rest => if anyBad x == anyBad c.2 && p + x.length == c.1 && decide (x.length + c.2.length ≤ 4096)
        then (p, x ++ c.2) :: rest else c :: a
    | [] => [c]
  let head := d.take (64 - at0 % 64)
  let cws := head :: chunk 64 (d.drop (64 - at0 % 64))
  let placed := (cws.foldl (fun (a : List (Nat × Data) × Nat) c =>
    if c.isEmpty then a else (a.1 ++ [(a.2, c)], a.2 + c.length)) ([], at0)).1
  (placed.foldl step []).reverse

/-- Write to a local destination; true is added when a partly written slot half was uncorrectable (R70). -/
def writeLocal (cls hint : Nat) (pl : Place) (ws : List (Nat × Data)) (a : Bool × State) : Bool × State :=
  ws.foldl (fun acc w => match pl with
    | .slot t b => wr 0 ⟨t, b + w.1⟩ (bytesOf w.2) acc
    | .pkg dpa => (acc.1, pkgWriteP cls hint (dpa + w.1) w.2 acc.2)
    | _ => acc) a

/-- Packets of a far destination; the last to a window carries LAST (R422). -/
def farPackets (pl : Place) (ws : List (Nat × Data)) : List PktBody :=
  let runs := ws.flatMap (fun w => pktRuns (match pl with
    | .board _ dpa => dpa + w.1
    | .window _ _ b => b + w.1
    | _ => w.1) w.2)
  let bs := runs.map (fun r => ({ op := 0x01, offset := r.1, poison := anyBad r.2, payload := bytesOf r.2 } : PktBody))
  match pl with
  | .window _ w b =>
    let l := if bs.isEmpty then [({ op := 0x01, offset := b } : PktBody)] else bs
    l.zipIdx.map (fun x => { x.1 with window := w, last := decide (x.2 + 1 = l.length) })
  | _ => bs

def placeKey : Place → Option Nat
  | .board k _ => some k
  | .window k _ _ => some k
  | _ => none

/-- Send the packets of a far destination; the entry then waits for them (R412). -/
def sendFar (tile uid : Nat) (pl : Place) (ws : List (Nat × Data)) (s : State) : State :=
  match placeKey pl with
  | none => s
  | some k => forAll (farPackets pl ws) (fun a b =>
      sendForOp k tile uid (match pl with
        | .window _ w _ => { b with aux := stampEpoch a (keyPeer k) w }
        | _ => b) a) s

/-- Hint of a write: LAST acts as STREAM (R342). -/
def writeHint (h : Nat) : Nat := if h == 3 then 1 else h

/-- An op whose engine is done waits for its packets, or completes at once when it has none left. -/
def awaitPackets (tile uid : Nat) (s : State) : State :=
  match findEntry s tile uid with
  | none => s
  | some e =>
    let s1 := freeInstance tile e (modEntry tile uid (fun x => { x with ended := true }) s)
    if e.sent = 0 then (if e.fault = 0 then completeOp tile uid {} s1 else failOp tile uid e.fault s1) else s1

/-- Count the lines an op read and wrote (R345). -/
def clCount (tile : Nat) (e : Entry) (rdn wrn : Nat) (s : State) : State :=
  let p := entryPrio s tile e
  evCount tile 0x49 e.inst p wrn (evCount tile 0x48 e.inst p rdn s)

def addStatus (tile k : Nat) (st : EngStatus) (s : State) : State :=
  modTask s tile k (fun x => { x with status := engMerge x.status st })

/-- Where the source and the destination of a transfer lie. -/
def clSrcPlace (s : State) (tile : Nat) (e : Entry) : Place :=
  clPlace s tile e 0 (if opCode (entryOp s e) == 5 then 0 else clSrc (entryOp s e))
def clDstPlace (s : State) (tile : Nat) (e : Entry) : Place := clPlace s tile e 3 (clDst (entryOp s e))

/-- The source data of a transfer. -/
def clRead (tile : Nat) (e : Entry) (s : State) : List Data × State :=
  let ps := srcPieces (entryOp s e) (bindIdx e.op e.bind) e.record
  match placeKey (clSrcPlace s tile e) with
  | some _ => (gotPieces e ps, s)
  | none => readPieces (clSrcPlace s tile e) ps s

/-- The converted rows of a transfer. -/
def clRows_ (tile : Nat) (e : Entry) (s : State) : List ClRow :=
  clRowsOut (entryOp s e) (srKeyOf s tile e) (clRead tile e s).1

/-- What a transfer writes, by byte offset from its destination. -/
def clOuts (tile : Nat) (e : Entry) (s : State) : List (Nat × Data) :=
  clWrites (entryOp s e) (bindIdx e.op e.bind) e.record (clRows_ tile e s)

/-- A transfer with its data read: its status and its counts. -/
def clReady (tile : Nat) (e : Entry) (s : State) : State :=
  let op := entryOp s e
  let ix := bindIdx e.op e.bind
  let fl := (clRows_ tile e s).foldl (fun a r => flagsOr a r.fl) {}
  addStatus tile e.task { clove := cloveByte fl }
    (clCount tile e (linesTouched 0 (srcPieces op ix e.record)) (linesTouched 0 (dstPieces op ix e.record)) (clRead tile e s).2)

/-- A transfer to this module's own memory: whether poison was met, and the state after its writes. -/
def clLocal (tile : Nat) (e : Entry) (s : State) : Bool × State :=
  let r := writeLocal (memClass (entryPrio s tile e)) (writeHint (sideHint (entryOp s e) (clDst (entryOp s e)))) (clDstPlace s tile e)
    (clOuts tile e s) (false, clReady tile e s)
  ((clRead tile e s).1.any anyBad || r.1, r.2)

/-- The transfer of `CL_COPY` to `CL_FILL`, its data at hand. -/
def clTransfer (tile : Nat) (e : Entry) (s : State) : State :=
  match placeKey (clDstPlace s tile e) with
  | some _ =>
    let s3 := sendFar tile e.uid (clDstPlace s tile e) (clOuts tile e s) (clReady tile e s)
    if (clRead tile e s).1.any anyBad then failOp tile e.uid fPoison s3 else awaitPackets tile e.uid s3
  | none => endRun tile e.uid ({}, clLocal tile e s)

/-- Is the op's source data there: its requests served, and every byte that it asked a peer for returned? -/
def clDataReady (s : State) (tile : Nat) (e : Entry) : Bool :=
  !reqsPending s tile e.uid && e.gotData.length == e.lines

/-- The end of an op of CL_COPY to CL_FILL. A refused or reset READ ends the op with its fault. -/
def clFinish (tile uid code : Nat) (s : State) : State :=
  match running s tile uid 5 code with
  | none => s
  | some e =>
    if e.fault != 0 then failOp tile uid e.fault s
    else if clDataReady s tile e then clTransfer tile e s else s

/-! ### Key-value transfers (R338 to R341) -/

/-- Bytes that one page gives a gather, plane by plane: zeros where the entry has no page. -/
def kvReadPage (s : State) (op : OpWord) (p : PoolParams) (k : KvEntry) (pl : Nat) : Data :=
  let r := kvRange op pl k.first k.count
  if pteValid k.pte then pkgPeekP s (pageAddr s p (ptePage k.pte) + r.1) r.2 else List.replicate r.2 (0, false)

/-- `CL_KV_GATHER` with its list at hand. -/
def kvGather (tile : Nat) (e : Entry) (p : PoolParams) (es : List KvEntry) (s : State) : EngRun :=
  let op := entryOp s e
  let out := opndAt s tile e 3
  let ws := (List.range (kvPlanes op)).flatMap (fun pl =>
    (kvPlaced op 0 es).map (fun k => (64 * pl * kvPstride op + k.2, kvReadPage s op p k.1 pl)))
  let r := writeLocal 0 0 (.slot out.tile out.byte) ws (false, s)
  let s1 := clCount tile e (linesTouched 0 (ws.map (fun w => (0, w.2.length)))) (linesTouched 0 (ws.map (fun w => (w.1, w.2.length)))) r.2
  ({}, (ws.any (fun w => anyBad w.2) || r.1, s1))

/-- `CL_KV_APPEND`: every copy pair of the layer, then every append entry. -/
def kvAppend (tile : Nat) (e : Entry) (p : PoolParams) (es : List KvEntry) (s : State) : EngRun :=
  let op := entryOp s e
  let cls := memClass (entryPrio s tile e)
  let h := writeHint (kvHint op)
  let planes := List.range (kvPlanes op)
  let copied := (kvPairs op es).foldl (fun (a : Bool × State) c =>
    planes.foldl (fun (b : Bool × State) pl =>
      let r := kvRange op pl c.1.first c.1.count
      let d := pkgPeekP b.2 (pageAddr s p (ptePage c.1.pte) + r.1) r.2
      (b.1 || anyBad d, pkgWriteP cls h (pageAddr s p (ptePage c.2.pte) + r.1) d b.2)) a) (false, s)
  let src := opndAt s tile e 0
  let fin := (kvPlaced op 1 es).foldl (fun (a : Bool × State) k =>
    planes.foldl (fun (b : Bool × State) pl =>
      let r := kvRange op pl k.1.first k.1.count
      let (d, s1) := slotReadP 0 src.tile (src.byte + 64 * pl * kvPstride op + k.2) r.2 b.2
      (b.1 || anyBad d, pkgWriteP cls h (pageAddr s p (ptePage k.1.pte) + r.1) d s1)) a) copied
  let n := kvNeed op 1 es * kvPlanes op / 64
  ({}, (fin.1, clCount tile e n n fin.2))

/-- The end of a key-value op (R59, R339 to R341). -/
def kvFinish (tile uid code : Nat) (s : State) : State :=
  match running s tile uid 5 code with
  | none => s
  | some e =>
    if reqsPending s tile uid then s
    else
      let op := entryOp s e
      match s.fennel.pool with
      | none => failOp tile uid fFormat s
      | some p =>
        if !kvFits p op then failOp tile uid fFormat s
        else
          let l := kvPeek s p (kvListTile tile op) (kvList op)
          if l.2 then failOp tile uid fPoison s
          else if 64 * kvPstride op < kvNeed op (if opCode op == 6 then 0 else 1) l.1 then failOp tile uid fBound s
          else endRun tile uid (if opCode op == 6 then kvGather tile e p l.1 s else kvAppend tile e p l.1 s)

end Sys2Proof.Machine
end

