-- ==== Sys2Proof/Machine/PepperOps.lean ====
section
/-!
DEFINITION. PEPPER: admission of waiting tasks, the issue window, readiness and issue (R53, R57 to R61, R73, R93 to
R108, R124 to R128, R143 to R152, R436, R633).
-/
namespace Sys2Proof.Machine

/-! ### Admission (R57 to R61, R93) -/

/-- The registration that a task's checks use. -/
def setOf (s : State) (k : Task) : Option StepSetParams :=
  if isStepTask k then s.stepSet.map (·.params) else none

/-- Turn a tile's PLL on for a task that arrives (R106). -/
def pllOn (tile : Nat) (s : State) : State :=
  if (getTile s tile).pll then s else evCount tile 0x19 0 0 1 (modTile s tile (fun x => { x with pll := true }))

/-- Make an admitted task resident. -/
def addTask (tile : Nat) (k : Task) (s : State) : State :=
  let n := (getTile s tile).nextTask
  let s1 := evCount tile 0x1A 0 (dPrio k.desc) 1 (pllOn tile s)
  modTile s1 tile (fun x => { x with tasks := mapSet {} x.tasks n { k with order := n }, nextTask := n + 1 })

/-- Priority class of a task that waits, from its descriptor in package memory. -/
def waitingPrio (w : Waiting) (s : State) : Nat × State :=
  let (d, s1) := headWord w.addr s
  (dPrio d, s1)

/-- The first waiting task that no drain holds back; without a drain no descriptor need be read for it. -/
def nextAdmit (s : State) (tile : Nat) : Option Waiting × State :=
  if s.life.state = .recovering then (none, s)
  else if (getTile s tile).drains.isEmpty then ((getTile s tile).queue.head?, s)
  else (getTile s tile).queue.foldl (fun (a : Option Waiting × State) w =>
    match a.1 with
    | some _ => a
    | none =>
      let (p, s1) := waitingPrio w a.2
      (if drained s1 tile false p then none else some w, s1)) (none, s)

/-- A refused task: its record and the error summary (R58). -/
def refuseTask (tile : Nat) (src : TaskSource) (d : DescWord) (code index : Nat) (s : State) : State :=
  let s1 := esTaskRefused s
  match src with
  | .ring r i => taskRecord r i code (dTaskId d) index tile {} s1
  | _ => s1

/-- Admit or refuse the next task of a tile. -/
def admitNext (tile : Nat) (s : State) : State :=
  if 64 ≤ (getTile s tile).tasks.length then s
  else match nextAdmit s tile with
  | (none, s0) => s0
  | (some w, s0) =>
    let s1 := modTile s0 tile (fun x => { x with queue := x.queue.erase w })
    let r := admission tile w.addr none s1
    match r.1.2 with
    | .refuse code index => refuseTask tile w.source r.1.1 code index (pllOn tile r.2)
    | .accepted ops compat =>
      addTask tile { desc := r.1.1, addr := w.addr, source := w.source, ops := ops, compat := compat } r.2

/-! ### Loops and bound values (R124 to R128, R183) -/

/-- The step number of the bound header. -/
def boundStep (s : State) : Nat := match s.cond.bound with | some h => h.step | none => 0

def kindIn (kinds : Nat) (r : SeqRec) : Bool := bit kinds r.kind

/-- Values of a whole record (unit 0). -/
def recBind (step ix : Nat) (r : SeqRec) : BoundRec :=
  { record := ix, slot := r.slot, start := r.start, new := r.new, kind := r.kind, drafts := r.drafts,
    sample := r.sample, tokOff := r.tokOff, pageList := r.pageList, hostId := r.hostId, step := step }

/-- A token: its record's index, the record, and the token's index in the record. -/
abbrev TokAt := Nat × SeqRec × Nat

/-- Values of a row group (unit 1). -/
def groupBind (step : Nat) (g : List TokAt) : List BoundRec :=
  match g with
  | [] => []
  | (ix, r, i) :: _ =>
    [{ recBind step ix r with start := r.start + i, new := g.length, tokOff := r.tokOff + i }]

def tokensOf (rs : List (SeqRec × Nat)) : List TokAt :=
  rs.flatMap (fun x => (List.range x.1.new).map (fun i => (x.2, x.1, i)))

/-- Iterations of a loop: `outer` is the unit 0 loop's record if it stands inside one. -/
def loopItems (s : State) (l : LoopInfo) (outer : Option BoundRec) : List BoundRec :=
  let step := boundStep s
  let recs := match s.cond.bound with
    | some h => h.recs.zipIdx
    | none => []
  let mine := recs.filter (fun x => kindIn l.kinds x.1)
  let items :=
    if l.unit = 0 then mine.map (fun x => recBind step x.2 x.1)
    else
      let rs := match outer with
        | some b => mine.filter (fun x => x.2 == b.record && b.new != 0)
        | none => mine
      (chunk l.rows (tokensOf rs)).flatMap (groupBind step)
  if items.isEmpty then [{ step := step }] else items

def loopItem (l : Loop) : BoundRec := l.items.getD l.iter {}
def loopLast (l : Loop) : Bool := decide (l.items.length ≤ l.iter + 1)

/-- The values that an op takes from its innermost loop. -/
def curBind (s : State) (k : Task) : BoundRec :=
  match k.loops with
  | [] => { step := if isStepTask k then boundStep s else 0 }
  | l :: _ => loopItem l

/-- Lines that the open loops add to operand `i`. -/
def curAdv (ls : List Loop) (i : Nat) : Nat :=
  (ls.map (fun l => if bit l.advance i then l.iter * l.stride else 0)).sum

/-- Does this iteration consume the granules of operand `i` (R128)? The frequency table has no reference to advance. Of two
open loops, the rule holds for each: an operand that advances in only one of them is consumed only in the last iteration of the
other (DESIGN CHOICE, log entry 119: R128 speaks of one loop). -/
def curConsume (ls : List Loop) (i : Nat) : Bool :=
  ls.all (fun l => (decide (i < 4) && bit l.advance i) || loopLast l)

def unitIter (ls : List Loop) (u : Nat) : Nat :=
  match ls.find? (fun l => l.unit == u) with
  | some l => l.iter
  | none => 0

/-! ### Filling the window (R53, R96, R97) -/

/-- May an open loop still send the task back? -/
def loopEndHolds (x : Task) : Bool :=
  x.holdBy.isSome && (match x.ops.getLast? with
    | some op => opClass op == 8 && opCode op == 0x11
    | none => false)

/-- An ACTIVE task whose last op has entered the window is FINISHING, be that op a wait that is still unmet (R94). -/
def advanceTask (tile k : Nat) (s : State) : State :=
  modTask s tile k (fun x =>
    if x.phase = .active && !loopEndHolds x && decide (x.ops.length ≤ x.pos) then { x with phase := .finishing } else x)

def entryCount (s : State) (tile k : Nat) : Nat := ((getTile s tile).window.filter (fun e => e.task == k)).length

/-- Can this task put an op into the window now? -/
def canFill (s : State) (tile : Nat) (kv : Nat × Task) : Bool :=
  kv.2.phase = .active && kv.2.holdBy.isNone && decide (kv.2.pos < kv.2.ops.length)
    && decide (entryCount s tile kv.1 < 128)

/-- The task whose turn it is: by class, then by order (R96). -/
def fillTask (s : State) (tile : Nat) : Option (Nat × Task) :=
  ((getTile s tile).tasks.filter (canFill s tile)).foldl (fun a kv =>
    match a with
    | none => some kv
    | some b =>
      if dPrio kv.2.desc < dPrio b.2.desc || (dPrio kv.2.desc == dPrio b.2.desc && decide (kv.2.order < b.2.order))
      then some kv else some b) none

/-- Is op `i` in the block of its list that the task has read again? -/
def opInBlock (k : Task) (i : Nat) : Bool := decide (k.blockAt ≤ i) && decide (i < k.blockAt + k.block.length)

/-- Read the block that holds the task's next op again: 256 ops, or as many as are left (R53, R96; blocks begin at multiples of
256: DESIGN CHOICE, log entry 22). Of a contract 1.x task PEPPER holds the translated list, which nothing can change (R64, log
entry 12). -/
def readBlock (tile k : Nat) (s : State) : State :=
  let x := getTask s tile k
  if x.compat || opInBlock x x.pos then s
  else
    let at0 := x.pos / 256 * 256
    let r := readOps (dOpList x.desc + 32 * at0) (min 256 (x.ops.length - at0)) s
    modTask r.2 tile k (fun y => { y with block := r.1, blockAt := at0 })

/-- What op `i` read again gives: the op, and a fault code at an op index (0 for none). A contract 1.x list is not read again
(DEDUCED, log entries 12 and 22). -/
def rereadOp (tile : Nat) (k : Task) (i : Nat) (s : State) : OpWord × Nat × Nat :=
  let old := k.ops.getD i 0
  let (op, bad) := if k.compat then (old, false) else k.block.getD (i - k.blockAt) (old, false)
  let first := if (dOpList k.desc + 32 * i) % 64 = 32 && i != 0 then i - 1 else i
  let fixed := fun (o : OpWord) => opClass o == 8 && (opCode o == 0x10 || opCode o == 0x11 || opCode o == 0x20)
  if bad then (old, fPoison, first)
  else if op == old then (op, 0, i)
  else if opClass op != opClass old || (opClass op == 8 && opCode op != opCode old) || fixed op || fixed old
  then (old, fFormat, i)
  else if checkOp s (admOf s tile k.desc (setOf s k)) ((k.ops.take i).foldl walkNext {}) [] op != 0 then (old, fFormat, i)
  else (op, 0, i)

/-- Ops after which nothing of the task enters until they are done: waits (R97) and loop ops, which decide what enters
next. -/
def holdsTask (op : OpWord) : Bool :=
  opClass op == 8 && (opCode op == 1 || opCode op == 5 || opCode op == 0x10 || opCode op == 0x11)

/-- Put the next op of a task into the window, or skip a capability test. -/
def fillOp (tile k : Nat) (s0 : State) : State :=
  let s := readBlock tile k s0
  let x := getTask s tile k
  let r := rereadOp tile x x.pos s
  if r.2.1 != 0 then faultTask tile k r.2.1 r.2.2 s
  else if opClass r.1 == 8 && opCode r.1 == 0x20 then
    settleTask tile k (advanceTask tile k (modTask s tile k (fun y => { y with pos := y.pos + 1 })))
  else
    let uid := (getTile s tile).nextUid
    let adv := (List.range 4).map (curAdv x.loops)
    let mask := (List.range 5).foldl (fun m i => setBit m i (curConsume x.loops i)) 31
    let e : Entry :=
      { uid := uid, task := k, opIndex := x.pos, op := r.1, bind := curBind s x, advLines := adv, consume := mask,
        iter0 := unitIter x.loops 0, iter1 := unitIter x.loops 1 }
    let s1 := modTile s tile (fun y => { y with window := y.window ++ [e], nextUid := uid + 1 })
    advanceTask tile k (modTask s1 tile k (fun y =>
      { y with pos := y.pos + 1, holdBy := if holdsTask r.1 then some uid else none }))

/-- Fill while a place and an op are there; the fuel bounds one filling. -/
def fillLoop (tile : Nat) : Nat → State → State
  | 0, s => s
  | n + 1, s =>
    if 256 ≤ (getTile s tile).window.length then s
    else match fillTask s tile with
      | some kv => fillLoop tile n (fillOp tile kv.1 s)
      | none => s

/-! ### Control ops and no-ops -/

/-- Does a collection of the dump hold issue on every tile (R539)? -/
def collecting (s : State) : Bool :=
  match s.mgmt.executing with
  | .collect _ _ => true
  | _ => false

/-- A hold of every op of the tile: temperature, a failed latch, or a dump (R108, R513, R539). -/
def tileHeld (s : State) (tile : Nat) : Bool := (getTile s tile).tempHold || (getTile s tile).latchHold || collecting s

/-- A control op or no-op with this opcode that stands in the window; an unissued one issues only without a hold. -/
def ctlEntry (s : State) (tile uid cls code : Nat) : Option Entry :=
  match findEntry s tile uid with
  | some e => if opClass e.op == cls && opCode e.op == code && (e.state = .issued || !tileHeld s tile)
      then some e else none
  | none => none

/-- Count an issue (R101). -/
def countIssue (tile : Nat) (e : Entry) (s : State) : State :=
  if e.state = .issued then s else evCount tile 0x08 0 (entryPrio s tile e) 1 s

/-- A control op is done: what it held enters again, and the task may end. -/
def completeCtl (tile : Nat) (e : Entry) (s : State) : State :=
  let s1 := modTask s tile e.task (fun x => { x with holdBy := (if x.holdBy = some e.uid then none else x.holdBy) })
  completeOp tile e.uid {} (advanceTask tile e.task s1)

/-- An op that waits is issued and keeps its entry. -/
def markIssued (tile uid : Nat) (s : State) : State := modEntry tile uid (fun e => { e with state := .issued }) s

/-- Has every earlier op of the entry's task completed (R144)? -/
def earlierDone (s : State) (tile : Nat) (e : Entry) : Bool :=
  !(getTile s tile).window.any (fun x => x.task == e.task && decide (x.uid < e.uid))

/-- Is an earlier arrival of the task at the op's barrier still to be counted? Its generation is then not known yet. -/
def arrivalOpen (s : State) (tile : Nat) (e : Entry) : Bool :=
  (getTile s tile).window.any (fun x => x.task == e.task && decide (x.uid < e.uid) && opClass x.op == 8 && opCode x.op == 4
    && oF x.op 20 1 == oF e.op 20 1)

/-- A `CTL_BARRIER_WAIT` as its generation stands: done, failed, or still waiting (R152). -/
def barWait (tile : Nat) (e : Entry) (s : State) : State :=
  let b := oF e.op 20 1
  let g := mapGet 0 (getTask s tile e.task).arrived b - 1
  let x := getBarrier s b
  if x.configured && decide (g < x.done) then
    let code := mapGet 0 x.fails g
    if code = 0 then completeCtl tile e s else failOp tile e.uid code s
  else markIssued tile e.uid s

/-- Test the barrier waits of every tile again (R97, R152). -/
def releaseWaits (s : State) : State :=
  forAll tileList (fun a t =>
    forAll ((getTile a t).window.filter (fun e => opClass e.op == 8 && opCode e.op == 5 && e.state = .issued))
      (fun b e => barWait t e b) a) s

/-- Status of this module's step tasks so far, over all of them (R473). -/
def memberStatus (s : State) : EngStatus :=
  tileList.foldl (fun a t => (stepTasks s t).foldl (fun b k =>
    if (getTask s t k).phase = .parked then b else engMerge b (getTask s t k).status) a) s.cond.ownStatus

/-- Send this member's results for the bound step, before its last arrival (R113, R321). -/
def sendResults (s : State) : State :=
  match s.job, s.cond.bound with
  | some j, some h =>
    if s.cond.resultSent then s
    else stepSendOut j.manager 0x11 (.result j.manager h.step s.cond.ownReports (memberStatus s))
      { s with cond := { s.cond with resultSent := true } }
  | _, _ => s

/-- Count a local arrival of an op, its results first where it closes the step barrier's generation. -/
def arriveOp (tile : Nat) (e : Entry) (b : Nat) (s : State) : State :=
  let x := getBarrier s b
  let s1 := modTask s tile e.task (fun y => { y with arrived := mapSet 0 y.arrived b (x.cur + 1) })
  let s2 := if b == 0 && s.stepSet.isSome && decide (x.localCount ≤ x.arrivals + 1) then sendResults s1 else s1
  releaseWaits (completeCtl tile e (arriveLocal b s2))

/-! ### Engine ops: readiness (R73, R98, R99) -/

/-- Entries of one class that are not issued, in order of entry. -/
def unissuedOf (s : State) (tile cls : Nat) : List Entry :=
  (getTile s tile).window.filter (fun e => e.state = .unissued && opClass e.op == cls)

def granState (s : State) (g : Nat × Nat) : TagState := tagState (getTag s g.1 g.2)

def inReady (s : State) (g : Nat × Nat) : Bool := granState s g = .full || granState s g = .held
def outReady (s : State) (g : Nat × Nat) : Bool :=
  granState s g = .empty && outClaim s g.1 g.2 == 0 && inClaim s g.1 g.2 == 0

/-- A transfer record that is still to be read (R633). -/
def needsRecord (e : Entry) : Bool := opClass e.op == 5 && clHasRec e.op && e.record.isNone

/-- The granules that an op names. -/
def namedGranules (s : State) (tile : Nat) (e : Entry) : List (Nat × Nat) :=
  granulesOf (entryIns s tile e ++ entryOuts s tile e)

/-- R98: an earlier unissued op of the task names one of the granules. The granules of a record that is still to be
read are not known, so such an op holds back the task's later ops. -/
def granulesHeld (s : State) (tile : Nat) (e : Entry) (gs : List (Nat × Nat)) : Bool :=
  (getTile s tile).window.any (fun x => x.task == e.task && decide (x.uid < e.uid) && x.state = .unissued
    && classInstances (opClass x.op) != 0
    && (needsRecord x || (namedGranules s tile x).any gs.contains))

def orderHeld (s : State) (tile : Nat) (e : Entry) : Bool := granulesHeld s tile e (namedGranules s tile e)

/-- A free instance: one whose clock runs, else the lowest (R102). -/
def freeInst (s : State) (tile cls : Nat) : Option Nat :=
  let free := (List.range (classInstances cls)).filter (fun i => !instTaken s tile cls i)
  match free.find? (fun i => (getEngine s tile cls i).running) with
  | some i => some i
  | none => free.head?

/-- Has a MACE op on this channel still to send its LAST (R436)? -/
def lastOpen (s : State) (k : Nat) : Bool :=
  match (getChan s k).openLast with
  | some o => !maSent s (o % 8) (o / 8)
  | none => false

/-- Holds of one op: the tile's, the budget (R107), a table being loaded (R296), a channel that another MACE op still
uses (R436) or that is opening (R409). -/
def opHeld (s : State) (tile : Nat) (e : Entry) : Bool :=
  let op := e.op
  let table := match s.mgmt.executing with
    | .tableLoad _ slot => opClass op == 3 && (opCode op == 8 || opCode op == 9) && !smCompat op && smSlot op == slot
    | _ => false
  let chans := (opChannels s tile e).any (fun c => match c with
    | some k => (getChan s k).state = .opening || (opClass op == 7 && lastOpen s k)
    | none => false)
  tileHeld s tile || (getTile s tile).budget == some 0 || table || chans

/-- Every condition of R99. -/
def opReady (s : State) (tile : Nat) (e : Entry) : Bool :=
  !needsRecord e && (granulesOf (entryIns s tile e)).all (inReady s) && (granulesOf (entryOuts s tile e)).all (outReady s)
    && !orderHeld s tile e && (freeInst s tile (opClass e.op)).isSome && !opHeld s tile e

/-- Class in which a ready op competes (R100). -/
def issueClass (s : State) (tile : Nat) (e : Entry) : Nat := if e.promoted then 0 else entryPrio s tile e

/-- The ready op that goes first. -/
def pickOp (s : State) (tile cls : Nat) : Option Entry :=
  ((unissuedOf s tile cls).filter (opReady s tile)).foldl (fun a e =>
    match a with
    | none => some e
    | some b => if issueClass s tile e < issueClass s tile b then some e else some b) none

/-- The first op whose input is POISONED (R82). -/
def poisonedOp (s : State) (tile cls : Nat) : Option Entry :=
  (unissuedOf s tile cls).find? (fun e =>
    (granulesOf (entryIns s tile e)).any (fun g => granState s g = .poisoned))

/-! ### Transfer records (R633) -/

/-- Granules of the record and of `n` list entries. -/
def recGranules (s : State) (tile : Nat) (e : Entry) (n : Nat) : List (Nat × Nat) :=
  let p := opndAt s tile e 1
  granulesOf [⟨p.tile, p.byte / 64, 1 + linesOf (4 * n), 1⟩]

/-- List length that the record in slot memory declares, as it stands. -/
def recPeek (s : State) (tile : Nat) (e : Entry) : Nat :=
  let p := opndAt s tile e 1
  ofBytes (memRead (getSlot s p.tile).bytes (p.byte + 4) 4)

/-- Does the list leave the task's slot window? -/
def listOut (s : State) (tile : Nat) (e : Entry) (n : Nat) : Bool :=
  decide (dBound (getTask s tile e.task).desc < refLine (opB e.op) + advOf e.advLines 1 + 1 + linesOf (4 * n))

/-- The list that the record and its list need: a gather's or a scatter's (R335); nothing of a list that breaks R334 or leaves
the window is read. -/
def recList (s : State) (tile : Nat) (e : Entry) : Nat :=
  let n := recPeek s tile e
  if !(opCode e.op == 2 || opCode e.op == 3) || 2 ^ 20 < n || listOut s tile e n then 0 else n

/-- The first op whose record can be read. -/
def recordOp (s : State) (tile : Nat) : Option Entry :=
  (unissuedOf s tile 5).find? (fun e => needsRecord e && !tileHeld s tile && !orderHeld s tile e
    && !granulesHeld s tile e (recGranules s tile e (recList s tile e))
    && (recGranules s tile e (recList s tile e)).all (inReady s))

def recordPoisoned (s : State) (tile : Nat) : Option Entry :=
  (unissuedOf s tile 5).find? (fun e => needsRecord e
    && (recGranules s tile e (recList s tile e)).any (fun g => granState s g = .poisoned))

/-- Read a transfer record and its list, and judge them. -/
def readRecord (tile : Nat) (e : Entry) (s : State) : State :=
  let p := opndAt s tile e 1
  let n := recList s tile e
  let (h, a) := rd 0 p 64 (false, s)
  let (l, a1) := if n = 0 then (([] : List Byte), a) else rd 0 (atLine p 1) (4 * n) a
  let r := clParse h ((chunk 4 l).map ofBytes)
  let fault := fun c => faultTask tile e.task c e.opIndex a1.2
  if a1.1 then fault fPoison
  else if clRecBad (entryOp s e) r then fault fFormat
  else if listOut s tile e r.nidx || clExtBad s tile e r then fault fBound
  else modEntry tile e.uid (fun x => { x with record := some r }) a1.2

/-! ### Issue (R73, R99 to R105) -/

/-- Fault of an op that names a channel which takes no packets (R409), or 0. -/
def opChanFault (s : State) (tile : Nat) (e : Entry) : Nat :=
  (opChannels s tile e).foldl (fun a c => if a != 0 then a else match c with
    | some k => chanFault s k
    | none => fAborted) 0

/-- Start an engine's clock for an op (R104); a fourth CUMIN array within 8 ns waits for its group (R105). -/
def startEngine (tile cls inst uid : Nat) (s : State) : State :=
  let was := (getEngine s tile cls inst).running
  let s1 := modEngine s tile cls inst (fun g => { g with running := true, busy := true, uid := uid })
  if was then s1
  else
    let s2 := evCount tile 0x18 cls 0 1 s1
    if cls = 1 then
      (if (getTile s2 tile).groups < 3 then modTile s2 tile (fun x => { x with groups := x.groups + 1 })
       else modEntry tile uid (fun e => { e with group := true }) s2)
    else s2

/-- Charge an op's energy to the tile's budget (R107, R586). -/
def charge (tile : Nat) (op : OpWord) (s : State) : State :=
  modTile s tile (fun x => { x with budget := x.budget.map (fun b => b - Config.opEnergy op) })

/-- Issue a ready op: claims, clock, counters, and the requests of a transfer. -/
def issueOp (tile : Nat) (e : Entry) (inst : Nat) (s : State) : State :=
  let cls := opClass e.op
  let prio := entryPrio s tile e
  let s1 := forAll (granulesOf (entryIns s tile e)) (fun a g => claimIn g.1 g.2 a) s
  let s2 := forAll (granulesOf (entryOuts s tile e)) (fun a g => claimOut (ownerOp tile e.uid) g.1 g.2 a) s1
  let s3 := startEngine tile cls inst e.uid (modEntry tile e.uid (fun x => { x with state := .issued, inst := inst }) s2)
  let s4 := evCount tile (8 + cls) inst prio 1 (evCount tile 0x08 0 prio 1 (charge tile e.op s3))
  let s5 := if cls = 7 then
      forAll (opChannels s4 tile e) (fun a c => match c with
        | some k => modChan a k (fun x => { x with openLast := some (opOwner tile e.uid) })
        | none => a) s4
    else s4
  if cls = 5 then sendReads tile e (queueClove tile e s5) else s5

/-- One issue decision for a class: a poisoned input faults its task; a readable record is read; else the first ready
op issues, or faults on its channel. -/
def issueNext (tile cls : Nat) (s : State) : State :=
  match poisonedOp s tile cls with
  | some e => faultTask tile e.task fPoison e.opIndex s
  | none =>
    match (if cls = 5 then recordPoisoned s tile else none) with
    | some e => faultTask tile e.task fPoison e.opIndex s
    | none =>
      match (if cls = 5 then recordOp s tile else none) with
      | some e => readRecord tile e s
      | none =>
        match pickOp s tile cls with
        | none => s
        | some e =>
          let f := opChanFault s tile e
          if f != 0 then faultTask tile e.task f e.opIndex s
          else match freeInst s tile cls with
            | some i => issueOp tile e i s
            | none => s

/-- Start up to three CUMIN arrays that wait for their group (R105). -/
def startGroup (tile : Nat) (s : State) : State :=
  let wait := ((getTile s tile).window.filter (·.group)).take 3
  forAll wait (fun a e => modEntry tile e.uid (fun x => { x with group := false }) a)
    (modTile s tile (fun x => { x with groups := wait.length }))

end Sys2Proof.Machine
end

