-- ==== Sys2Proof/Machine/SaffronOps.lean ====
section
/-!
DEFINITION. SAFFRON: operands, visibility, rotary encoding, running row statistics, merging and the backward pass
(spec/08_saffron.md, R214 to R241).
-/
namespace Sys2Proof.Machine

/-! ### Sums with the outcome of their last rounding -/

def mulR (a b : FVal) : Rounded := rnd32 (mulExact a b)
def addR (a b : Rounded) : Rounded := rnd32 (addExact a.val b.val)
def exactR (v : FVal) : Rounded := ⟨v, false, false⟩

/-- FP32 sum in list order, starting from the first term; +0 of nothing. -/
def sumR : List Rounded → Rounded
  | [] => exactR (fzero false)
  | x :: xs => xs.foldl addR x

/-- Sum of products in ascending order (R172, R173). -/
def dotR (xs ys : List FVal) : Rounded := sumR ((xs.zip ys).map (fun p => mulR p.1 p.2))

/-! ### Rows of values -/

/-- Rows of values read at a pitch, with the scale codes used. -/
structure SfRows where
  vals : List (List FVal)
  nanScale : Bool
deriving DecidableEq, Repr

/-- Read `r` rows of `d` elements at `p`, their scales (if any) at `ps`. -/
def sfRead (fmt d : Nat) (scaled : Bool) (blk : Nat) (p ps : SlotAt) (r : Nat) (a : Bool × State) :
    SfRows × (Bool × State) :=
  let (rows, a1) := rdRows 2 fmt d (pitch (fmtBits fmt) d) p r a
  if scaled then
    let (scs, a2) := rdScales 2 ps r (ceilDiv d blk) a1
    (⟨(rows.zip scs).map (fun x => decodeRow fmt true blk x.2 x.1), scs.any (fun x => x.any (· == 0xFF))⟩, a2)
  else (⟨rows.map (fun x => decodeRow fmt false blk [] x), false⟩, a1)

/-- Read `n` FP32 values. -/
def sfFloats (p : SlotAt) (n : Nat) (a : Bool × State) : List FVal × (Bool × State) :=
  let (b, a1) := rd 2 p (4 * n) a
  ((codesOf 32 n b).map fp32Val, a1)

/-- Write FP32 values. -/
def sfPut (p : SlotAt) (vs : List FVal) (a : Bool × State) : Bool × State :=
  wr 2 p (packCodes 32 (vs.map fp32Code)) a

/-! ### Rotary encoding (R224) -/

/-- Rotate one pair by θ; `back` negates sin θ. -/
def rotPair (x y th : FVal) (back : Bool) : Rounded × Rounded :=
  let c := cosF th
  let sn := if back then negF (sinF th) else sinF th
  (rnd32 (addExact (mulF x c) (negF (mulF y sn))), rnd32 (addExact (mulF x sn) (mulF y c)))

/-- The pair that element `i` belongs to and its place in it: pair number, partner index, and whether it is first. -/
def rotPlace (halves : Bool) (r i : Nat) : Nat × Nat × Bool :=
  if halves then (if i < r / 2 then (i, i + r / 2, true) else (i - r / 2, i - r / 2, false))
  else (if i % 2 = 0 then (i / 2, i + 1, true) else (i / 2, i - 1, false))

/-- Rotate the first `r` elements of a row at position `pos` with the frequency table. -/
def rotRow (halves : Bool) (r pos : Nat) (freq : List FVal) (back : Bool) (row : List Rounded) : List Rounded :=
  row.zipIdx.map (fun x =>
    if x.2 < r then
      let p := rotPlace halves r x.2
      let other := ((row[p.2.1]?).map (·.val)).getD .nan
      let th := mulF (.fin false pos 0) (freq.getD p.1 .nan)
      if p.2.2 then (rotPair x.1.val other th back).1 else (rotPair other x.1.val th back).2
    else x.1)

/-- A rotated operand row, rounded to its own format (R224). -/
def rotOperand (c : List Byte) (fmt pos : Nat) (freq row : List FVal) : List FVal :=
  let r := rotRow (sfHalves c) (sfRotDims c) pos freq false (row.map exactR)
  (r.zip row).zipIdx.map (fun x =>
    if x.2 < sfRotDims c then decodeElem fmt (convElem fmt {} .nearest x.1.1.val).1 else x.1.2)

/-! ### Visibility (R223, R236) -/

/-- Everything that an attention op reads. -/
structure SfIn where
  q : List (List FVal)
  k : List (List FVal)
  v : List (List FVal)
  kps : List FVal
  vps : List FVal
  glob : List Nat
  mask : List (List Byte)
  nanScale : Bool
deriving DecidableEq, Repr

/-- What `CAUSAL`, `WINDOW` and `GLOBAL` say of a pair of positions. -/
def geoVis (c : List Byte) (glob : List Nat) (q k : Nat) : Bool :=
  (!sfCausal c || decide (k ≤ q))
    && (!sfWindow c || (sfGlobal c && glob.contains k)
      || (if sfCausal c then decide (q - k < sfW c) else decide (q - k + (k - q) < sfW c)))

def maskBit (row : List Byte) (i : Nat) : Bool := bit (row.getD (i / 512 * 64 + i % 512 / 8) 0).toNat (i % 8)

/-- Is key index `i` visible to token `t`? -/
def sfVisible (c : List Byte) (op : OpWord) (x : SfIn) (t i : Nat) : Bool :=
  geoVis c x.glob (sfQpos op + t) (sfKpos0 op + i) && (!sfExplicit c || maskBit (x.mask.getD t []) i)

/-- Tokens that the rows of query block `b` belong to. -/
def blockTokens (c : List Byte) (op : OpWord) (b : Nat) : List Nat :=
  let r := sfTokens op * sfG c
  ((List.range (min 64 (r - 64 * b))).map (fun i => (64 * b + i) / sfG c)).eraseDups

/-- Key indices of key block `j`. -/
def blockKeys (op : OpWord) (j : Nat) : List Nat := (List.range (min 128 (sfKeys op - 128 * j))).map (· + 128 * j)

/-- Key blocks that query block `b` does not skip. -/
def neededBlocks (c : List Byte) (op : OpWord) (x : SfIn) (b : Nat) : List Nat :=
  (List.range (ceilDiv (sfKeys op) 128)).filter (fun j =>
    (blockTokens c op b).any (fun t => (blockKeys op j).any (fun i =>
      geoVis c x.glob (sfQpos op + t) (sfKpos0 op + i))))

/-! ### Reading the operands (R222) -/

/-- Line of the page scales or block scales within operand B. -/
def sfScAt (c : List Byte) : Nat := 2 * sfCap c * sfPitchKv c

/-- Page index, from the first entry, of key index `i`. -/
def pageIx (op : OpWord) (i : Nat) : Nat := (sfKpos0 op + i) / 32 - sfKpos0 op / 32

def globList (b : List Byte) : List Nat :=
  ((chunk 4 b).map ofBytes).filterMap (fun w => if bit w 31 then some (w % 2 ^ 22) else none)

def rdMask (p : SlotAt) (lines : Nat) : Nat → Bool × State → List (List Byte) × (Bool × State)
  | 0, a => ([], a)
  | n + 1, a =>
    let (r, a1) := rd 2 p (64 * lines) a
    let (rs, a2) := rdMask (atLine p lines) lines n a1
    (r :: rs, a2)

/-- Read operand B: keys, values, their scales, the global list and the mask. -/
def sfReadKv (c : List Byte) (op : OpWord) (q : SfRows) (p : SlotAt) (a : Bool × State) : SfIn × (Bool × State) :=
  let d := sfD c
  let lk := sfKeys op
  let f := sfFkv c
  let fp4 := f == 7
  let sc := atLine p (sfScAt c)
  let half := linesOf (sfCap c * ceilDiv d (sfBlkKv c))
  let (k, a1) := sfRead f d fp4 (sfBlkKv c) p sc lk a
  let (v, a2) := sfRead f d fp4 (sfBlkKv c) (atLine p (sfCap c * sfPitchKv c)) (atLine sc half) lk a1
  let pages := if sfPaged c && lk != 0 then pageIx op (lk - 1) + 1 else 0
  let (kp, a3) := sfFloats sc pages a2
  let (vp, a4) := sfFloats (atLine sc (linesOf (4 * (sfCap c / 32 + 1)))) pages a3
  let (g, a5) := if sfGlobal c then rd 2 (atLine p (sfGlobalAt c)) 256 a4 else (([] : List Byte), a4)
  let (m, a6) := if sfExplicit c
    then rdMask (atLine p (sfMaskAt c)) (ceilDiv (sfCap c) 512) (sfTokens op) a5
    else (([] : List (List Byte)), a5)
  (⟨q.vals, k.vals, v.vals, kp, vp, globList g, m, q.nanScale || k.nanScale || v.nanScale⟩, a6)

/-- The frequency table. -/
def sfFreq (c : List Byte) (own base : Nat) (used : Bool) (a : Bool × State) : List FVal × (Bool × State) :=
  if used then sfFloats ⟨own, 64 * (base + sfRotLine c)⟩ (sfRotDims c / 2) a else ([], a)

/-- Rotate queries and keys as the configuration asks. -/
def sfRotate (c : List Byte) (op : OpWord) (freq : List FVal) (x : SfIn) : SfIn :=
  { x with
    q := if sfRotQ c
      then x.q.zipIdx.map (fun r => rotOperand c (sfFq c) (sfQpos op + r.2 / sfG c) freq r.1) else x.q
    k := if sfRotK c
      then x.k.zipIdx.map (fun r => rotOperand c (sfFkv c) (sfKpos0 op + r.2) freq r.1) else x.k }

/-! ### Forward (R225 to R229) -/

/-- MASK_NEG = −2¹²⁰. -/
def maskNeg : FVal := .fin true 1 120

/-- State of a row: maximum, sum and accumulators. -/
structure SfState where
  m : FVal
  l : Rounded
  o : List Rounded
deriving DecidableEq, Repr

/-- The score of a pair (R225). -/
def sfScore (c : List Byte) (op : OpWord) (x : SfIn) (q : List FVal) (i : Nat) : FVal :=
  let s1 := (dotR q (x.k.getD i [])).val
  let s2 := if sfPaged c then mulF s1 (x.kps.getD (pageIx op i) .nan) else s1
  mulF s2 (fp32Val (sfScale c))

def isNegInf : FVal → Bool
  | .inf true => true
  | _ => false

/-- Scores of the unmasked pairs of a row and key block: index and score. -/
def sfScores (c : List Byte) (op : OpWord) (x : SfIn) (t : Nat) (q : List FVal) (j : Nat) : List (Nat × FVal) :=
  ((blockKeys op j).filter (sfVisible c op x t)).filterMap (fun i =>
    let s := sfScore c op x q i
    if isNegInf s then none else some (i, s))

/-- round_p of R226. -/
def roundP (bf : Bool) (p : FVal) : FVal :=
  if bf then decodeElem 1 (convElem 1 {} .nearest p).1
  else scaleF (-8) (decodeElem 3 (convElem 3 {} .nearest (mulF p (.fin false 1 8))).1)

/-- pv of R226 for one column: masked pairs are left out. -/
def sfPv (c : List Byte) (op : OpWord) (x : SfIn) (ps : List (Nat × FVal)) (col : Nat) : Rounded :=
  let term := fun (p : Nat × FVal) => mulR p.2 ((x.v.getD p.1 []).getD col .nan)
  if sfPaged c then
    sumR (((ps.map (fun p => pageIx op p.1)).eraseDups).map (fun g =>
      mulR (sumR ((ps.filter (fun p => pageIx op p.1 == g)).map term)).val (x.vps.getD g .nan)))
  else sumR (ps.map term)

/-- One key block of a row. -/
def sfBlock (c : List Byte) (op : OpWord) (x : SfIn) (t : Nat) (q : List FVal) (r : SfState) (j : Nat) : SfState :=
  let xs := (sfScores c op x t q j).map (fun p => (p.1, maxF p.2 maskNeg))
  let mn := maxF r.m (xs.foldl (fun a p => maxF a p.2) maskNeg)
  let a := expF (subF r.m mn)
  let ps := xs.map (fun p => (p.1, roundP (sfFkv c == 1) (expF (subF p.2 mn))))
  { m := mn
    l := addR (mulR r.l.val a) (sumR (ps.map (fun p => exactR p.2)))
    o := r.o.zipIdx.map (fun y => addR (mulR y.1.val a) (sfPv c op x ps y.2)) }

def emptyState (d : Nat) : SfState := ⟨maskNeg, exactR (fzero false), List.replicate d (exactR (fzero false))⟩

/-- Read `r` partial states at `p` (R222). -/
def sfStates (c : List Byte) (p : SlotAt) (r : Nat) (a : Bool × State) : List SfState × (Bool × State) :=
  let d := sfD c
  let (rows, a1) := rdRows 2 0 d (pitch 32 d) p r a
  let (ml, a2) := sfFloats (atLine p (r * pitch 32 d)) (2 * r) a1
  (rows.zipIdx.map (fun x =>
    ⟨ml.getD (2 * x.2) .nan, exactR (ml.getD (2 * x.2 + 1) .nan), x.1.map (fun n => exactR (fp32Val n))⟩), a2)

/-- A finished row: its elements with their events, its log-sum-exp and how it counts. -/
structure SfOut where
  codes : List Nat
  lse : FVal
  ev : Ev
  masked : Bool
  nanRow : Bool
deriving DecidableEq, Repr

/-- Was every value finite that a row's maximum, its sum, and each of its accumulators is computed from (R180)? -/
structure SfFin where
  m : Bool
  l : Bool
  o : List Bool
deriving DecidableEq, Repr

/-- Complete a row (R227, R228). -/
def sfComplete (c : List Byte) (nanOvf : Bool) (fin : SfFin) (r : SfState) : SfOut :=
  let f := sfFo c
  let n := r.o.length
  if isZero r.l.val then ⟨List.replicate n 0, .inf true, {}, true, false⟩
  else if isNan r.l.val || r.o.any (fun v => isNan v.val) then
    ⟨List.replicate n (nanCode f), .nan, { nanOut := true }, false, true⟩
  else
    let qs := r.o.map (fun v => rnd32 (divExact v.val r.l.val))
    let es := qs.zipIdx.map (fun v =>
      convElem f { nanOvf := nanOvf, srcFinite := fin.l && fin.o.getD v.2 false } .nearest v.1.val)
    let lse := rnd32 (addExact r.m (lnF r.l.val))
    let ev := evOr (es.foldl (fun a e => evOr a e.2) {})
      { flush := qs.any (·.flush) || lse.flush, nanOut := isNan lse.val, sat := isInfinite lse.val && fin.l }
    ⟨es.map (·.1), lse.val, ev, false, false⟩

/-- Events of FP32 values written as they are. -/
def ev32 (fin : Bool) (r : Rounded) : Ev := { sat := isInfinite r.val && fin, nanOut := isNan r.val, flush := r.flush }

/-- Write rows: the unnormalised states, or the results with their log-sum-exp. -/
def sfWrite (c : List Byte) (op : OpWord) (p : SlotAt) (rs : List (SfState × SfFin)) (a : Bool × State) :
    (OpFlags × Nat × Nat) × (Bool × State) :=
  let n := rs.length
  if sfPartial op then
    let norm := rs.map (fun r => if isZero r.1.l.val then (emptyState r.1.o.length, r.2) else r)
    let w := pitch 32 (sfD c)
    let a1 := wrRows 2 0 w p (norm.map (fun r => r.1.o.map (fun v => fp32Code v.val))) a
    let a2 := sfPut (atLine p (n * w)) (norm.flatMap (fun r => [r.1.m, r.1.l.val])) a1
    let ev := norm.foldl (fun e r => ((exactR r.1.m, r.2.m) :: (r.1.l, r.2.l) :: r.1.o.zip r.2.o).foldl
      (fun g v => evOr g (ev32 v.2 v.1)) e) {}
    (({ ev := ev }, 0, 0), a2)
  else
    let outs := rs.map (fun r => sfComplete c (clsFlag op 14) r.2 r.1)
    let w := pitch (fmtBits (sfFo c)) (sfD c)
    let a1 := wrRows 2 (sfFo c) w p (outs.map (·.codes)) a
    let a2 := sfPut (atLine p (n * w)) (outs.map (·.lse)) a1
    (({ ev := outs.foldl (fun e o => evOr e o.ev) {} }, outs.countP (·.masked), outs.countP (·.nanRow)), a2)

def allFin (l : List FVal) : Bool := l.all isFinite

/-- What a row of token `t` is computed from: `x` and `q` as read, the frequency table, and the state it starts at. -/
def sfFinite (c : List Byte) (op : OpWord) (x : SfIn) (freq : List FVal) (t : Nat) (q : List FVal) (s0 : SfState) : SfFin :=
  let seen := (List.range (sfKeys op)).filter (sfVisible c op x t)
  let m := allFin q && allFin freq && isFinite s0.m && seen.all (fun i => allFin (x.k.getD i [])
    && (!sfPaged c || isFinite (x.kps.getD (pageIx op i) .nan)))
  { m := m, l := m && isFinite s0.l.val
    o := s0.o.zipIdx.map (fun v => m && isFinite v.1.val && seen.all (fun i =>
      isFinite ((x.v.getD i []).getD v.2 .nan) && (!sfPaged c || isFinite (x.vps.getD (pageIx op i) .nan)))) }

/-- `SF_ATTN_FWD` (R223 to R229). -/
def sfForward (tile : Nat) (e : Entry) (s : State) : EngRun :=
  let op := entryOp s e
  let c := opCfg s e.op
  let d := sfD c
  let r := sfTokens op * sfG c
  let pa := opndAt s tile e 0
  let scAt := atLine pa (r * pitch (fmtBits (sfFq c)) d)
  let (q, a1) := sfRead (sfFq c) d (sfScQ c) (sfBlkQ c) pa scAt r (false, s)
  let (x0, a2) := sfReadKv c op q (opndAt s tile e 1) a1
  let (fr, a3) := sfFreq c tile (entryBase s tile e) (sfUsesTable c op) a2
  let (st, a4) := if opAccum op then sfStates c (opndAt s tile e 2) r a3
    else ((List.replicate r (emptyState d) : List SfState), a3)
  let x := sfRotate c op fr x0
  let need := (List.range (ceilDiv r 64)).map (neededBlocks c op x)
  let rows := ((x.q.zip x0.q).zip st).zipIdx.map (fun y =>
    let t := y.2 / sfG c
    let js := need.getD (y.2 / 64) []
    (js.foldl (fun g j => sfBlock c op x t y.1.1.1 g j) y.1.2, sfFinite c op x0 fr t y.1.1.2 y.1.2))
  let (w, a5) := sfWrite c op (opndAt s tile e 3) rows a4
  let pairs := (need.map List.length).sum
  let total := ceilDiv r 64 * ceilDiv (sfKeys op) 128
  let prio := entryPrio s tile e
  let s1 := evCount tile 0x5A e.inst prio w.2.1 (evCount tile 0x59 e.inst prio (total - pairs)
    (evCount tile 0x58 e.inst prio pairs a5.2))
  let trunc := opBound e.op && decide (sfCap c < e.bind.start + e.bind.new)
  let fl := { w.1 with nanScale := x0.nanScale }
  ({ saffron := saffronByte fl trunc, sfMasked := w.2.1, sfNan := w.2.2 }, (a5.1, s1))

/-! ### Merge (R230) -/

/-- A fully masked state, as `PARTIAL` writes it (R229). -/
def fullyMasked (x : SfState) : Bool := eqF x.m maskNeg && isZero x.l.val && x.o.all (fun v => isZero v.val)

/-- One row: merging with a fully masked state returns the other. -/
def sfMergeRow (a b : SfState) : SfState :=
  if fullyMasked a then b
  else if fullyMasked b then a
  else
    let mn := maxF a.m b.m
    let x := expF (subF a.m mn)
    let y := expF (subF b.m mn)
    let mix := fun (u v : Rounded) => addR (mulR u.val x) (mulR v.val y)
    ⟨mn, mix a.l b.l, (a.o.zip b.o).map (fun p => mix p.1 p.2)⟩

def stateFinite (a b : SfState) : SfFin :=
  let m := isFinite a.m && isFinite b.m
  { m := m, l := m && isFinite a.l.val && isFinite b.l.val
    o := (a.o.zip b.o).map (fun p => m && isFinite p.1.val && isFinite p.2.val) }

/-- `SF_MERGE`. -/
def sfMergeOp (tile : Nat) (e : Entry) (s : State) : EngRun :=
  let op := entryOp s e
  let c := opCfg s e.op
  let r := sfTokens op * sfG c
  let (a, a1) := sfStates c (opndAt s tile e 0) r (false, s)
  let (b, a2) := sfStates c (opndAt s tile e 1) r a1
  let rows := (a.zip b).map (fun p => (sfMergeRow p.1 p.2, stateFinite p.1 p.2))
  let (w, a3) := sfWrite c op (opndAt s tile e 3) rows a2
  let s1 := evCount tile 0x5A e.inst (entryPrio s tile e) w.2.1 a3.2
  ({ saffron := saffronByte w.1 false, sfMasked := w.2.1, sfNan := w.2.2 }, (a3.1, s1))

/-! ### Backward (R231, R232) -/

/-- Terms of one pair. -/
structure SfPair where
  row : Nat
  key : Nat
  p : FVal
  ds : FVal
deriving DecidableEq, Repr

/-- p and ds of a visible pair. -/
def sfPairOf (c : List Byte) (x : SfIn) (dO : List (List FVal)) (lse dd : List FVal) (r i : Nat)
    (s : FVal) : SfPair :=
  let p := roundP true (expF (subF s (lse.getD r .nan)))
  let dp := (dotR (dO.getD r []) (x.v.getD i [])).val
  let z := mulF (mulF p (subF dp (dd.getD r .nan))) (fp32Val (sfScale c))
  ⟨r, i, p, decodeElem 1 (convElem 1 {} .nearest z).1⟩

/-- Every unmasked pair of a row, in ascending order of key; a row whose log-sum-exp is −∞ has none. -/
def sfRowPairs (c : List Byte) (op : OpWord) (x : SfIn) (dO : List (List FVal)) (lse dd : List FVal) (r : Nat) :
    List SfPair :=
  if isNegInf (lse.getD r .nan) then []
  else (List.range (ceilDiv (sfKeys op) 128)).flatMap (fun j =>
    (sfScores c op x (r / sfG c) (x.q.getD r []) j).map (fun y => sfPairOf c x dO lse dd r y.1 y.2))

/-- Sum terms block by block: `blk` gives a pair's block. -/
def sumBlocks (blk : SfPair → Nat) (term : SfPair → Rounded) (ps : List SfPair) : Rounded :=
  sumR (((ps.map blk).eraseDups).map (fun b => sumR ((ps.filter (fun p => blk p == b)).map term)))

def at2 (l : List (List FVal)) (i j : Nat) : FVal := (l.getD i []).getD j .nan

/-- The three gradients: dQ rows, dK rows and dV rows. -/
def sfGrads (c : List Byte) (op : OpWord) (x : SfIn) (dO : List (List FVal)) (freq : List FVal)
    (ps : List SfPair) : List (List Rounded) :=
  let d := sfD c
  let r := sfTokens op * sfG c
  let back := fun (on : Bool) (pos : Nat) (row : List Rounded) =>
    if on then rotRow (sfHalves c) (sfRotDims c) pos freq true row else row
  let cols := List.range d
  let dq := (List.range r).map (fun i =>
    let mine := ps.filter (fun p => p.row == i)
    back (sfRotQ c) (sfQpos op + i / sfG c)
      (cols.map (fun j => sumBlocks (fun p => p.key / 128) (fun p => mulR p.ds (at2 x.k p.key j)) mine)))
  let perKey := fun (i : Nat) => ps.filter (fun p => p.key == i)
  let dk := (List.range (sfCap c)).map (fun i =>
    back (sfRotK c) (sfKpos0 op + i)
      (cols.map (fun j => sumBlocks (fun p => p.row / 64) (fun p => mulR p.ds (at2 x.q p.row j)) (perKey i))))
  let dv := (List.range (sfCap c)).map (fun i =>
    cols.map (fun j => sumBlocks (fun p => p.row / 64) (fun p => mulR p.p (at2 dO p.row j)) (perKey i)))
  dq ++ dk ++ dv

/-- Was every value finite that each gradient is computed from (R180)? The rows are those of `sfGrads`; `x` is as read. -/
def gradFinite (c : List Byte) (op : OpWord) (x : SfIn) (dO : List (List FVal)) (lse dd freq : List FVal) :
    List (List Bool) :=
  let cols := List.range (sfD c)
  let rows := List.range (sfTokens op * sfG c)
  let sees := fun (r i : Nat) => !isNegInf (lse.getD r .nan) && sfVisible c op x (r / sfG c) i
  let rowQ := fun (r : Nat) => allFin freq && allFin (x.q.getD r []) && isFinite (lse.getD r .nan)
  let rowD := fun (r : Nat) => rowQ r && allFin (dO.getD r []) && isFinite (dd.getD r .nan)
  let key := fun (i : Nat) => allFin (x.k.getD i [])
  let dq := rows.map (fun r =>
    let ok := isNegInf (lse.getD r .nan) || (rowD r && ((List.range (sfKeys op)).filter (sees r)).all (fun i =>
      key i && allFin (x.v.getD i [])))
    cols.map (fun _ => ok))
  let dk := (List.range (sfCap c)).map (fun i =>
    let ok := (rows.filter (fun r => sees r i)).all (fun r => rowD r && key i && allFin (x.v.getD i []))
    cols.map (fun _ => ok))
  let dv := (List.range (sfCap c)).map (fun i =>
    let seen := rows.filter (fun r => sees r i)
    let ok := seen.all (fun r => rowQ r && key i)
    cols.map (fun j => ok && seen.all (fun r => isFinite (at2 dO r j))))
  dq ++ dk ++ dv

/-- `SF_ATTN_BWD`. -/
def sfBackward (tile : Nat) (e : Entry) (s : State) : EngRun :=
  let op := entryOp s e
  let c := opCfg s e.op
  let d := sfD c
  let r := sfTokens op * sfG c
  let w := pitch 16 d
  let pa := opndAt s tile e 0
  let (q, a1) := sfRead 1 d false 32 pa pa r (false, s)
  let (dO, a2) := sfRead 1 d false 32 (atLine pa (r * w)) pa r a1
  let (lse, a3) := sfFloats (atLine pa (2 * r * w)) r a2
  let (dd, a4) := sfFloats (atLine pa (2 * r * w + linesOf (4 * r))) r a3
  let (x0, a5) := sfReadKv c op q (opndAt s tile e 1) a4
  let (fr, a6) := sfFreq c tile (entryBase s tile e) (sfUsesTable c op) a5
  let x := sfRotate c op fr x0
  let ps := (List.range r).flatMap (sfRowPairs c op x dO.vals lse dd)
  let g := sfGrads c op x dO.vals fr ps
  let pw := pitch 32 d
  let (old, a7) := if opAccum op then rdRows 2 0 d pw (opndAt s tile e 2) (r + 2 * sfCap c) a6
    else (([] : List (List Nat)), a6)
  let outs := if opAccum op
    then (g.zip old).map (fun y => (y.1.zip y.2).map (fun z => addR (exactR (fp32Val z.2)) z.1)) else g
  let a8 := wrRows 2 0 pw (opndAt s tile e 3) (outs.map (fun y => y.map (fun v => fp32Code v.val))) a7
  let fin := (gradFinite c op x0 dO.vals lse dd fr).zipIdx.map (fun y => y.1.zipIdx.map (fun z =>
    z.1 && (!opAccum op || isFinite (fp32Val (cell old y.2 z.2)))))
  let ev := (outs.zip fin).foldl (fun a y => (y.1.zip y.2).foldl (fun b v => evOr b (ev32 v.2 v.1)) a) {}
  let masked := lse.countP isNegInf
  let trunc := opBound e.op && decide (sfCap c < e.bind.start + e.bind.new)
  let need := (List.range (ceilDiv r 64)).map (neededBlocks c op x)
  let pairs := (need.map List.length).sum
  let prio := entryPrio s tile e
  let s1 := evCount tile 0x5A e.inst prio masked (evCount tile 0x59 e.inst prio
    (ceilDiv r 64 * ceilDiv (sfKeys op) 128 - pairs) (evCount tile 0x58 e.inst prio pairs a8.2))
  ({ saffron := saffronByte { ev := ev } trunc, sfMasked := masked }, (a8.1, s1))

/-! ### Rotary op (R233) -/

/-- `SF_ROPE`. -/
def sfRopeOp (tile : Nat) (e : Entry) (s : State) : EngRun :=
  let op := entryOp s e
  let c := opCfg s e.op
  let d := sfD c
  let r := sfTokens op * sfG c
  let pa := opndAt s tile e 0
  let scAt := atLine pa (r * pitch (fmtBits (sfFq c)) d)
  let (q, a1) := sfRead (sfFq c) d (sfScQ c) (sfBlkQ c) pa scAt r (false, s)
  let (fr, a2) := sfFreq c tile (entryBase s tile e) true a1
  let rows := q.vals.zipIdx.map (fun y =>
    rotRow (sfHalves c) (sfRotDims c) (sfQpos op + y.2 / sfG c) fr false (y.1.map exactR))
  let es := (rows.zip q.vals).map (fun y => y.1.zipIdx.map (fun v =>
    let src := if v.2 < sfRotDims c
      then
        let p := rotPlace (sfHalves c) (sfRotDims c) v.2
        [y.2.getD v.2 .nan, y.2.getD p.2.1 .nan, fr.getD p.1 .nan]
      else [y.2.getD v.2 .nan]
    (convElem (sfFo c) { srcFinite := allFin src } .nearest v.1.val, v.1.flush)))
  let a3 := wrRows 2 (sfFo c) (pitch (fmtBits (sfFo c)) d) (opndAt s tile e 3) (es.map (fun y => y.map (·.1.1))) a2
  let ev := es.foldl (fun a y => y.foldl (fun b v => evOr b (evOr v.1.2 { flush := v.2 })) a) {}
  ({ saffron := saffronByte { ev := ev, nanScale := q.nanScale } false }, a3)

/-- What a SAFFRON op does: with no token it computes nothing (R235). -/
def sfWork (code tile : Nat) (e : Entry) (s : State) : EngRun :=
  if sfTokens (entryOp s e) = 0 then ({}, (false, s))
  else if code = 1 then sfForward tile e s
  else if code = 2 then sfBackward tile e s
  else if code = 3 then sfMergeOp tile e s
  else sfRopeOp tile e s

/-- The end of a SAFFRON op. -/
def sfFinish (tile uid code : Nat) (s : State) : State :=
  match running s tile uid 2 code with
  | none => s
  | some e => endRun tile uid (sfWork code tile e s)

end Sys2Proof.Machine
end

