-- ==== Sys2Proof/Machine/Images.lean ====
section
/-!
DEFINITION. The images of SUMAC's native and compatibility tables (R289, R292, R293, R299). Their bytes are not published.
Each coefficient is a free value that is held to what the spec says of it: c0 of a segment lies within the function's
bound, a segment ends where R293 and R299 say, and its curvature leaves it near the function; log 11 says what is not held.
-/
namespace Sys2Proof.Machine

/-- A field of an image. -/
def tbF (img : List Byte) (off size : Nat) : Nat := ofBytes ((img.drop off).take size)

/-- A quadratic of three FP32 values at `u` (R291). -/
def quadOf (c0 c1 c2 u : FVal) : FVal := addF (mulF (addF (mulF c2 u) c1) u) c0

/-- Mode of a native function. -/
def fnMode : Nat → Nat
  | 0 => 0 | 1 => 0 | 2 => 1 | 3 => 2 | 4 => 3 | _ => 4
def fnSym : Nat → Nat
  | 5 => 2 | 6 => 1 | 7 => 3 | 8 => 3 | 9 => 3 | 10 => 3 | _ => 0
def fnMono : Nat → Nat
  | 3 => 2 | 4 => 2 | 7 => 0 | 8 => 0 | 9 => 0 | _ => 1
/-- `TB_E0` of an OCT function. -/
def fnOct : Nat → Int
  | 6 => -5 | _ => -4
/-- FP32 log₂ e, 1, ln 2 and 1 where R292 sets them. -/
def fnK : Nat → Nat
  | 0 => 0x3FB8AA3B | 1 => 0x3F800000 | 2 => 0x3F317218 | 5 => 0x3F800000 | _ => 0

/-! ### The functions themselves, in fixed point of 96 fraction bits -/

def fixMul (a b : Nat) : Nat := a * b / fixOne
def fixDiv (a b : Nat) : Nat := a * fixOne / b

/-- exp(−x). -/
def expNeg (x : Nat) : Nat := expNegSmall (x % ln2Fix) / 2 ^ (x / ln2Fix)

/-- Newton's steps to the square root of `n`, from above. -/
def rootGo (n : Nat) : Nat → Nat → Nat
  | 0, x => x
  | k + 1, x => rootGo n k ((x + n / x) / 2)

/-- Σ x^(2n+1) / (2n+1)!! by Horner. -/
def normalSum (x2 : Nat) : Nat → Nat → Nat
  | 0, _ => fixOne
  | n + 1, k => fixOne + x2 * normalSum x2 n (k + 2) / (fixOne * k)

/-- The standard normal distribution at x ≥ 0; from 8 on it is 1 within 2⁻⁴⁹. -/
def normalCdf (x : Nat) : Nat :=
  if 8 * fixOne ≤ x then fixOne
  else fixOne / 2 + fixMul (fixMul 0x662114cf50d942343f2cf140 (expNeg (fixMul x x / 2)))
    (fixMul x (normalSum (fixMul x x) 140 3))

def sigmoidFix (x : Nat) : Nat := fixDiv fixOne (fixOne + expNeg x)

/-- A function at its reduced argument: 2^ρ, ln m, 1/m, 1/√m′, or the OCT function at a ≥ 0. -/
def fnTrue (f t : Nat) : Nat :=
  match f with
  | 0 => 2 * expNeg ((fixOne - t) * ln2Fix / fixOne)
  | 1 => 2 * expNeg ((fixOne - t) * ln2Fix / fixOne)
  | 2 => (lnApprox t (-96)).toNat
  | 3 => fixDiv fixOne t
  | 4 => rootGo (fixOne * fixOne * fixOne / t) 16 fixOne
  | 5 => sigmoidFix t
  | 6 => fixDiv (fixOne - expNeg (2 * t)) (fixOne + expNeg (2 * t))
  | 7 => fixMul t (sigmoidFix t)
  | 8 =>
    let cube := fixMul (fixMul t t) t
    fixMul t (sigmoidFix (fixMul 0x19884533d436508d0fcb3c500 (t + fixMul 0xb727136a400fba8826aa8eb cube)))
  | 9 => fixMul t (normalCdf t)
  | _ => t + (lnApprox (fixOne + expNeg t) (-96)).toNat

/-- The bound of R292 at a point where the function is `v`: native, or of the compatibility bank. -/
def fnBound (f : Nat) (compat : Bool) (t : Nat) (v : FVal) : FVal :=
  let u := fun (k : Nat) => mulExact (.fin false k 0) (ulp32 v)
  match f with
  | 0 => u (if compat then 8 else 3)
  | 1 => u (if compat then 6 else 2)
  | 2 => .fin false 1 (if compat then -21 else -23)
  | 3 => u (if compat then 2 else 1)
  | 4 => u (if compat then 4 else 2)
  | _ =>
    let b : Int := if compat then -13 else -15
    if f < 7 || t < fixOne then .fin false 1 b else .fin false t (b - 96)

/-! ### Segments -/

/-- Start of segment `i` of a mode in units of 2⁻ᵖ of the reduced argument, where `one` is 2ᵖ: i from 0 to 64; OCT
counts within 2^E0. -/
def segAt (one mode i : Nat) : Nat :=
  match mode with
  | 0 => i * (one / 64)
  | 3 => if i ≤ 32 then one + i * (one / 32) else 2 * one + (i - 32) * (one / 16)
  | 4 => 2 ^ (i / 8) * (one + i % 8 * (one / 8))
  | _ => one + i * (one / 64)

/-- Point `i` of a function's segments, with 96 fraction bits. -/
def fnPoint (f i : Nat) : Nat :=
  if fnMode f = 4 then segAt fixOne 4 i / 2 ^ (-fnOct f).toNat else segAt fixOne (fnMode f) i

/-- The seams of R299: where a compatibility table steps back by one ulp. -/
def backSeam (f i : Nat) : Bool := (f == 0 && [17, 33, 49].contains i) || (f == 6 && [12, 52].contains i)

/-- Three FP32 coefficients. -/
structure Seg where
  c0 : FVal
  c1 : FVal
  c2 : FVal
deriving DecidableEq, Repr

def fp32Bits (v : FVal) : Nat := fp32Code v
def sameVal (a b : FVal) : Bool := fp32Bits a == fp32Bits b

/-- The FP32 value `k` codes above one. -/
def codeStep (v : FVal) (k : Int) : FVal := fp32Val ((fp32Bits v : Int) + k).toNat

/-- A segment of length `h` (a power of two) from `c0` to `stop`: the free coefficients if they end there and their
curvature keeps the segment within four times its bound of the function, else the quadratic through the midpoint
value, its slope moved by a few codes so that it ends there, else the straight line. -/
def closeSeg (c0 stop h bound mid : FVal) (free1 free2 : Nat) : Seg :=
  let inv : FVal → FVal := fun v => match h with
    | .fin _ m e => divExact v (.fin false m e)
    | x => x
  let rise := addExact stop (negF c0)
  let bend := addExact (addExact c0 stop) (scaleF 1 (negF mid))
  let c2 := (rnd32 (inv (inv (scaleF 1 bend)))).val
  let c1 := (rnd32 (inv (addExact rise (negF (mulExact (mulExact c2 h) h))))).val
  let x1 := fp32Val free1
  let x2 := fp32Val free2
  let near := within (mulExact x2 (mulExact h h)) (mulExact c2 (mulExact h h)) (scaleF 4 bound)
  let ends := fun (g : Seg) => isFinite g.c1 && isFinite g.c2 && sameVal (quadOf g.c0 g.c1 g.c2 h) stop
  let tries := [(0 : Int), 1, -1, 2, -2, 3, -3, 4, -4].map (fun k => (⟨c0, codeStep c1 k, c2⟩ : Seg))
  if isFinite x1 && isFinite x2 && near && ends ⟨c0, x1, x2⟩ then ⟨c0, x1, x2⟩
  else (tries.find? ends).getD ⟨c0, (rnd32 (inv rise)).val, fzero false⟩

/-- A free FP32 value of an image's bytes. -/
def freeAt (src : Nat → Nat) (off : Nat) : Nat := ofBytes ((List.range 4).map (fun j => BitVec.ofNat 8 (src (off + j))))

/-- The value of the function at point `i`, within its bound. -/
def fnSeam (f : Nat) (compat : Bool) (src : Nat → Nat) (i : Nat) : FVal :=
  let v : FVal := .fin false (fnTrue f (fnPoint f i)) (-96)
  keepWithin (freeAt src (64 + 12 * i)) v (fnBound f compat (fnPoint f i) (rnd32 v).val)

/-- Where segment `i` ends (R293): the next seam's value, or at the last segment what the mode's wrap or large rule gives. -/
def fnEnd (f : Nat) (compat : Bool) (src : Nat → Nat) (i : Nat) : FVal :=
  if i < 63 then fnSeam f compat src (i + 1)
  else
    let c0 := fnSeam f compat src 0
    match fnMode f with
    | 0 => scaleF 1 c0
    | 1 => addF (fp32Val (fnK f)) c0
    | 2 => scaleF (-1) c0
    | 3 => scaleF (-1) c0
    | _ => if f < 7 then .fin false 1 0 else .fin false 1 (fnOct f + 8)

/-- Segment `i` of a function's image. -/
def fnSeg (f : Nat) (compat : Bool) (src : Nat → Nat) (i : Nat) : Seg :=
  let a := fnPoint f i
  let b := if f = 4 && i = 31 then 2 * fixOne else fnPoint f (i + 1)
  let m := (a + b) / 2
  let start := fnSeam f compat src i
  let c0 := if compat && backSeam f i then codeStep start (-1) else start
  let mid : FVal := .fin false (fnTrue f m) (-96)
  closeSeg c0 (fnEnd f compat src i) (.fin false (b - a) (-96)) (fnBound f compat m (rnd32 mid).val) mid
    (freeAt src (68 + 12 * i)) (freeAt src (72 + 12 * i))

/-- The small rule of an OCT function: from its value at 0 to segment 0. -/
def fnSmall (f : Nat) (compat : Bool) (src : Nat → Nat) : Seg :=
  let a := fnPoint f 0
  let at0 : FVal := .fin false (fnTrue f 0) (-96)
  let mid : FVal := .fin false (fnTrue f (a / 2)) (-96)
  let k0 := keepWithin (freeAt src 16) at0 (fnBound f compat 0 (rnd32 at0).val)
  closeSeg k0 (fnSeam f compat src 0) (.fin false a (-96)) (fnBound f compat 0 (rnd32 mid).val) mid
    (freeAt src 20) (freeAt src 24)

def segBytes (g : Seg) : List Byte := le 4 (fp32Bits g.c0) ++ le 4 (fp32Bits g.c1) ++ le 4 (fp32Bits g.c2)

/-- The image of function code `f`, its free bytes taken from `src`; the header settings are those of R292. -/
def fnImage (compat : Bool) (src : Nat → Nat) (f : Nat) : List Byte :=
  let oct := fnMode f == 4
  le 1 (fnMode f) ++ le 1 (fnSym f) ++ le 1 (fnMono f) ++ [if oct then BitVec.ofInt 8 (fnOct f) else 0] ++ le 4 (fnK f)
    ++ le 1 (if 7 ≤ f && oct then 1 else 0) ++ le 3 0
    ++ le 4 (if f == 5 || f == 6 then 0x3F800000 else 0)
    ++ (if oct then segBytes (fnSmall f compat src) else le 12 0)
    ++ le 4 (freeAt src 28) ++ le 32 0
    ++ (List.range 64).flatMap (fun i => segBytes (fnSeg f compat src i))

def nativeImage (f : Nat) : List Byte := fnImage false (Config.nativeTable f) f
def compatImage (f : Nat) : List Byte := fnImage true (Config.compatTable f) f

end Sys2Proof.Machine
end

