-- ==== Sys2Proof/Machine/Tables.lean ====
section
/-!
DEFINITION. SUMAC's segment tables: images, evaluation, and the checks of a load (R289 to R300).
-/
namespace Sys2Proof.Machine

/-! ### Tables of the slots -/

/-- A table as an op uses it: its image, and the native function that it is, if any (R300). -/
structure FnTable where
  img : List Byte
  fn : Option Nat
deriving DecidableEq, Repr

/-- Key of a slot of an engine. -/
def tableKey (tile engine slot : Nat) : Nat := (tile * 2 + engine) * 16 + slot

/-- The table of a slot's active bank: no bytes of its own means the native function of the slot. -/
def slotTable (s : State) (tile engine slot : Nat) : FnTable :=
  let t := mapGet {} s.cfg.tables (tableKey tile engine slot)
  if t.active.isEmpty then ⟨nativeImage slot, some slot⟩ else ⟨t.active, none⟩

def compatFn (f : Nat) : FnTable := ⟨compatImage f, some f⟩
def nativeFn (f : Nat) : FnTable := ⟨nativeImage f, some f⟩

/-! ### Evaluation (R290, R291, R300) -/

/-- A function's result: its value, whether it is out of its domain, and whether it overflowed. -/
structure FnRes where
  val : FVal
  domain : Bool := false
  sat : Bool := false
deriving DecidableEq, Repr

/-- A quadratic of three FP32 coefficients at image offset `off` (R291). -/
def quad (img : List Byte) (off : Nat) (u : FVal) : FVal :=
  let c := fun i => fp32Val (tbF img (off + 4 * i) 4)
  quadOf (c 0) (c 1) (c 2) u

def segQuad (img : List Byte) (i : Nat) (u : FVal) : FVal := quad img (64 + 12 * i) u

/-- An exact value times 2ⁿ, back in FP32 range; far out of range it is decided without computing the power. -/
def scaleFn (v : FVal) (n : Int) : FVal :=
  match v with
  | .fin neg m e =>
    if m = 0 then v else if 400 < n then .inf neg else if n < -400 then fzero neg
    else (rnd32 (.fin neg m (e + n))).val
  | x => x

/-- m·2^e as a mantissa with 200 fraction bits: exact for FP32 values scaled into [1, 4). -/
def fixed (m : Nat) (e : Int) : Nat := alignTo .nearest m e (-200)
def fixVal2 (x : Nat) : FVal := .fin false x (-200)
def fixBit : Nat := 2 ^ 200

/-- EXP: r × K is taken exactly; n is its floor. -/
def evalExp (img : List Byte) (r : FVal) : FVal :=
  match mulExact r (fp32Val (tbF img 4 4)) with
  | .fin neg m e =>
    let x : Int := (alignTo .nearest m e (-300) : Nat)
    let y := if neg then -x else x
    let one : Int := (2 ^ 300 : Nat)
    let n := y / one
    let rho := (y % one).toNat
    let i := rho * 64 / 2 ^ 300
    let u := (rnd32 (.fin false (rho - i * 2 ^ 294) (-300))).val
    scaleFn (segQuad img i u) n
  | _ => .nan

/-- Segment and u for a mantissa in [1, 2) (LOG, RCP). -/
def evalUnit (img : List Byte) (mant : Nat) : FVal :=
  let i := (mant - fixBit) * 64 / fixBit
  segQuad img i (rnd32 (fixVal2 (mant - fixBit - i * (fixBit / 64)))).val

def evalLog (img : List Byte) (m : Nat) (e : Int) : FVal :=
  let k := floorLog2 m e
  addF (mulF (fvalOfInt k) (fp32Val (tbF img 4 4))) (evalUnit img (fixed m (e - k)))

def evalRcp (img : List Byte) (neg : Bool) (m : Nat) (e : Int) : FVal :=
  let k := floorLog2 m e
  let v := scaleFn (evalUnit img (fixed m (e - k))) (-k)
  if neg then negF v else v

def evalRsq (img : List Byte) (m : Nat) (e : Int) : FVal :=
  let k := floorLog2 m e / 2
  let x := fixed m (e - 2 * k)
  let i := if x < 2 * fixBit then (x - fixBit) * 32 / fixBit else 32 + (x - 2 * fixBit) * 16 / fixBit
  let t := if i < 32 then fixBit + i * (fixBit / 32) else 2 * fixBit + (i - 32) * (fixBit / 16)
  scaleFn (segQuad img i (rnd32 (fixVal2 (x - t))).val) (-k)

def octE0 (img : List Byte) : Int := signedOf 8 (tbF img 3 1)

/-- Value of OCT mode at a magnitude. -/
def evalOctAbs (img : List Byte) (m : Nat) (e : Int) : FVal :=
  let e0 := octE0 img
  if m = 0 || magLt m e 1 e0 then quad img 16 (if m = 0 then fzero false else .fin false m e)
  else if !magLt m e 1 (e0 + 8) then (if tbF img 8 1 = 1 then .fin false m e else fp32Val (tbF img 12 4))
  else
    let k := floorLog2 m e
    let mant := fixed m (e - k)
    let s := (mant - fixBit) * 8 / fixBit
    let i := 8 * (k - e0).toNat + s
    segQuad img i (rnd32 (.fin false (mant - fixBit - s * (fixBit / 8)) (k - 200))).val

/-- Symmetry of OCT mode for an argument whose sign bit is set; ∞ − ∞ gives +0. -/
def octSym (img : List Byte) (y a : FVal) : FVal :=
  match tbF img 1 1 with
  | 0 => y
  | 1 => negF y
  | 2 => addF (fp32Val (tbF img 4 4)) (negF y)
  | _ => if isInfinite y && isInfinite a then fzero false else subF y a

/-- Results of a function for NaN, infinite, zero and out-of-domain arguments (R300). -/
def fnEdge (f : Nat) (r : FVal) : Option FnRes :=
  let one : FVal := .fin false 1 0
  match r with
  | .nan => some { val := .nan }
  | .inf neg =>
    some (match f with
      | 0 => { val := if neg then fzero false else r }
      | 1 => { val := if neg then fzero false else r }
      | 2 => if neg then { val := .nan, domain := true } else { val := r }
      | 3 => { val := fzero neg }
      | 4 => if neg then { val := .nan, domain := true } else { val := fzero false }
      | 5 => { val := if neg then fzero false else one }
      | 6 => { val := if neg then .fin true 1 0 else one }
      | 10 => { val := if neg then fzero false else r }
      | _ => { val := if neg then fzero true else r })
  | .fin neg m e =>
    if m = 0 then
      some (match f with
        | 0 => { val := one }
        | 1 => { val := one }
        | 2 => { val := .inf true }
        | 3 => { val := .inf neg }
        | 4 => { val := .inf neg }
        | 5 => { val := .fin false 1 (-1) }
        | 6 => { val := fzero neg }
        | 10 => { val := fp32Val 0x3F317218 }
        | _ => { val := fzero false })
    else if neg && (f == 2 || f == 4) then some { val := .nan, domain := true }
    else if f == 3 && magLt 1 126 m e then some { val := fzero neg }
    else if f < 2 && leF (.fin false 128 0) (mulExact r (fp32Val (fnK f))) then
      some { val := .inf false, sat := true }
    else none

/-- Results of a loaded table for arguments that its mode does not reduce: those of its mode's function, the limits of
R300 for an infinity. -/
def loadedEdge (img : List Byte) (r : FVal) : Option FnRes :=
  let k := fp32Val (tbF img 4 4)
  match r, tbF img 0 1 with
  | .nan, _ => some { val := .nan }
  | .inf neg, 0 =>
    some { val := if isZero k then segQuad img 0 (fzero false)
      else if neg != isNeg k then fzero false else .inf false }
  | .inf neg, 1 =>
    some (if neg then { val := .nan, domain := true }
      else { val := if isZero k then fp32Val (Config.lnFree (fp32Code r) % 2 ^ 32) else .inf (isNeg k) })
  | .inf neg, 2 => some { val := fzero neg }
  | .inf neg, 3 => some (if neg then { val := .nan, domain := true } else { val := fzero false })
  | .inf neg, _ =>
    let y := if tbF img 8 1 = 1 then .inf false else fp32Val (tbF img 12 4)
    some { val := if neg then octSym img y (.inf false) else y }
  | .fin neg m _, 1 => if m = 0 then some { val := .inf true } else if neg then some { val := .nan, domain := true } else none
  | .fin neg m _, 2 => if m = 0 then some { val := .inf neg } else none
  | .fin neg m _, 3 => if m = 0 then some { val := .inf neg } else if neg then some { val := .nan, domain := true } else none
  | _, _ => none

/-- The table's value at a finite argument that its mode reduces. -/
def evalTable (img : List Byte) (r : FVal) : FVal :=
  match r with
  | .fin neg m e =>
    match tbF img 0 1 with
    | 0 => evalExp img r
    | 1 => evalLog img m e
    | 2 => evalRcp img neg m e
    | 3 => evalRsq img m e
    | _ =>
      let y := evalOctAbs img m e
      if neg then octSym img y (.fin false m e) else y
  | _ => .nan

/-- A function at an argument (R290, R291, R300). -/
def evalFn (t : FnTable) (r : FVal) : FnRes :=
  match (match t.fn with | some f => fnEdge f r | none => loadedEdge t.img r) with
  | some v => v
  | none =>
    let v := evalTable t.img r
    { val := v, sat := isInfinite v }

/-! ### Checks of a load (R289, R293, R295) -/

def fin32At (img : List Byte) (off : Nat) : Bool := fin32 (tbF img off 4)

/-- Reserved fields, mode, symmetry, E0 and finite constants (R295). The codes of `TB_MONO` and `TB_BIG` that R289 does not
define are refused as reserved (log 11); a field that the table's mode does not use is not looked at. -/
def tableFields (img : List Byte) : Bool :=
  let mode := tbF img 0 1
  let e0 := octE0 img
  img.length == 832 && decide (mode ≤ 4) && (if mode = 4 then decide (tbF img 1 1 ≤ 3) else tbF img 1 1 == 0)
    && decide (tbF img 2 1 ≤ 2) && (mode != 4 || (decide (-100 ≤ e0) && decide (e0 ≤ 100)))
    && decide (tbF img 8 1 ≤ 1) && tbF img 9 3 == 0 && tbF img 32 32 == 0
    && ([4, 12, 16, 20, 24].all (fin32At img)) && ((List.range 192).all (fun i => fin32At img (64 + 4 * i)))

/-- Length of segment i as an exact value. -/
def segLen (img : List Byte) (i : Nat) : FVal :=
  let mode := tbF img 0 1
  .fin false (segAt fixBit mode (i + 1) - segAt fixBit mode i) (if mode = 4 then octE0 img - 200 else -200)

/-- Value of segment i at its end, and coefficient c0 of segment i. -/
def segEnd (img : List Byte) (i : Nat) : FVal := segQuad img i (rnd32 (segLen img i)).val
def segC0 (img : List Byte) (i : Nat) : FVal := fp32Val (tbF img (64 + 12 * i) 4)

/-- The seams of R293. In LOG and RCP modes the two sides of a binade are compared after the result
step, at the step from binade 0 to binade 1: for RCP the step is an exact scale, and for LOG with `TB_K` = ln 2 no table
could meet it at every binade, because fl(e × `TB_K`) is itself rounded (log 11). -/
def tableSeams (img : List Byte) : Bool :=
  let mode := tbF img 0 1
  let inner := (List.range 63).all (fun i =>
    if mode = 3 && i = 31 then true else sameVal (segEnd img i) (segC0 img (i + 1)))
  let two := fun v => (rnd32 (scaleF 1 v)).val
  let k := fp32Val (tbF img 4 4)
  let edge := match mode with
    | 0 => sameVal (segEnd img 63) (two (segC0 img 0))
    | 1 => sameVal (segEnd img 63) (addF k (segC0 img 0))
    | 2 => sameVal (two (segEnd img 63)) (segC0 img 0)
    | 3 => sameVal (segEnd img 31) (segC0 img 32) && sameVal (two (segEnd img 63)) (segC0 img 0)
    | _ =>
      let lo := octE0 img
      sameVal (quad img 16 (.fin false 1 lo)) (segC0 img 0)
        && sameVal (segEnd img 63)
          (if tbF img 8 1 = 1 then .fin false 1 (lo + 8) else fp32Val (tbF img 12 4))
  inner && edge

/-- Does a table not fall from one argument to another? An argument outside its domain makes no claim. -/
def notFalling (img : List Byte) (a b : Nat) : Bool :=
  let x := (evalFn ⟨img, none⟩ (fp32Val a)).val
  let y := (evalFn ⟨img, none⟩ (fp32Val b)).val
  isNan x || isNan y || leF x y

/-- The monotony that `TB_MONO` claims, over every pair of neighbouring finite FP32 arguments: non-decreasing
throughout (1), or non-increasing on each side of zero (2). -/
def tableMono (img : List Byte) : Bool :=
  let sgn := 2 ^ 31
  match tbF img 2 1 with
  | 0 => true
  | 1 => notFalling img sgn 0
      && (List.range 0x7F7FFFFF).all (fun c => notFalling img c (c + 1) && notFalling img (sgn + c + 1) (sgn + c))
  | _ => (List.range 0x7F7FFFFF).all (fun c => notFalling img (c + 1) c && notFalling img (sgn + c) (sgn + c + 1))

/-- The checks of `SM_TABLE_LOAD`. -/
def tableOk (img : List Byte) : Bool := tableFields img && tableSeams img && tableMono img

end Sys2Proof.Machine
end

