-- ==== Sys2Proof/Machine/SumacOps.lean ====
section
/-!
DEFINITION. SUMAC: operands, elementwise ops, row reductions, normalisations and the soft maximum (R272 to R288, R298,
R302, R304).
-/
namespace Sys2Proof.Machine

/-! ### Operands (R278, R279) -/

/-- An element as its op uses it: decoded to FP32 (R279), but exact in the products of R172 that `SM_MUL` and
`SM_ROWDOT` form, which apply the scales and round once (R280, R282). -/
def smUse (op : OpWord) (v : FVal) : FVal := if opCode op == 2 || opCode op == 12 then v else toFp32 v

/-- Rows of values as R279 decodes them. -/
def smRead (op : OpWord) (fmt : Nat) (scaled : Bool) (n : Nat) (p ps : SlotAt) (r : Nat) (a : Bool × State) :
    SfRows × (Bool × State) :=
  let (rows, a1) := rdRows 3 fmt n (pitch (fmtBits fmt) n) p r a
  if scaled then
    let (scs, a2) := rdScales 3 ps r (ceilDiv n (smBlk op)) a1
    (⟨(rows.zip scs).map (fun x => (decodeRow fmt true (smBlk op) x.2 x.1).map (smUse op)),
      scs.any (fun x => x.any (· == 0xFF))⟩, a2)
  else (⟨rows.map (fun x => (decodeRow fmt false 32 [] x).map (smUse op)), false⟩, a1)

/-- Mask rows, bit by bit. -/
def smMask (op : OpWord) (p : SlotAt) (r : Nat) (a : Bool × State) : List (List Bool) × (Bool × State) :=
  let (m, a1) := rdMask p (smMaskLines op) r a
  (m.map (fun row => (List.range (smCols op)).map (maskBit row)), a1)

/-- Repeat a row for every row. -/
def spread {α : Type} (n : Nat) (one : Bool) (l : List α) (d : α) : List α :=
  if one then List.replicate n (l.headD d) else l

/-- Operand B of a value op as M rows of N values. -/
def smReadB (op : OpWord) (p : SlotAt) (a : Bool × State) : SfRows × (Bool × State) :=
  let m := smRows op
  let n := smCols op
  let f := smFb op
  let w := pitch (fmtBits f) n
  match smBcast op with
  | 0 => smRead op f (smScB op) n p (atLine p (m * w)) m a
  | 1 =>
    let (x, a1) := smRead op f (smScB op) n p (atLine p w) 1 a
    (⟨spread m true x.vals [], x.nanScale⟩, a1)
  | 2 =>
    let (x, a1) := smRead op f false m p p 1 a
    (⟨(x.vals.headD []).map (fun v => List.replicate n v), false⟩, a1)
  | _ =>
    let (x, a1) := smRead op f false (fmtGroup f) p p 1 a
    (⟨List.replicate m (List.replicate n ((x.vals.headD []).headD .nan)), false⟩, a1)

/-- FP32 values of operand C in rows. -/
def smReadC (op : OpWord) (p : SlotAt) (a : Bool × State) : List (List Nat) × (Bool × State) :=
  if opAccum op then rdRows 3 0 (smCols op) (pitch 32 (smCols op)) p (smRows op) a else ([], a)

/-! ### Results -/

/-- One result before conversion: its value, whether its sources were finite, and what it raised. -/
structure SmVal where
  val : FVal
  fin : Bool
  fl : OpFlags := {}
deriving DecidableEq, Repr

def smOutFmtOf (s : State) (tile : Nat) (e : Entry) (op : OpWord) : OutFmt :=
  ⟨smOutFmt op, smScO op, smBlk op, clsFlag op 14, clsFlag op 15, srKeyOf s tile e⟩

def rFlags (r : Rounded) : OpFlags := { ev := { flush := r.flush } }
def ofR (fin : Bool) (r : Rounded) : SmVal := ⟨r.val, fin, rFlags r⟩

/-- Write M rows of results with their scales; the answer ORs every flag. -/
def smWrite (f : OutFmt) (n : Nat) (p : SlotAt) (rows : List (List SmVal)) (a : Bool × State) :
    OpFlags × (Bool × State) :=
  let out := rows.zipIdx.map (fun r => convRow f (r.2 * n) (r.1.map (fun v => (v.val, v.fin))))
  let w := pitch (fmtBits f.fmt) n
  let a1 := wrRows 3 f.fmt w p (out.map (·.codes)) a
  let a2 := if f.scaled
    then wr 3 (atLine p (rows.length * w)) (out.flatMap (fun r => r.scales.map (BitVec.ofNat 8))) a1 else a1
  let fl := rows.foldl (fun g r => r.foldl (fun h v => flagsOr h v.fl) g) {}
  (flagsOr fl { ev := out.foldl (fun g r => evOr g r.ev) {} }, a2)

/-! ### Elementwise (R280, R281) -/

/-- `SM_MAX` and `SM_MIN` with the zeros of R280. -/
def smMax (a b : FVal) : FVal := if isZero a && isZero b then fzero (isNeg a && isNeg b) else maxF a b
def smMin (a b : FVal) : FVal := if isZero a && isZero b then fzero (isNeg a || isNeg b) else minF a b

def smPredHolds (p : Nat) (a b : FVal) : Bool :=
  match p with
  | 0 => eqF a b
  | 1 => !eqF a b
  | 2 => ltF a b
  | 3 => leF a b
  | 4 => ltF b a
  | _ => leF b a

/-- The immediate as a number: R164 flushes elements, and a fill value (R280), but no immediate that an op computes with. -/
def smImmVal (op : OpWord) : FVal :=
  let c := smImm op
  if c / 2 ^ 23 % 256 = 0 then .fin (bit c 31) (c % 2 ^ 23) (-149) else fp32Val c

/-- The function argument a × `SM_IMM`, exact when `SM_IMM` is 1.0. -/
def smArg (op : OpWord) (a : FVal) : FVal :=
  if smImm op = 0x3F800000 then a else mulF a (smImmVal op)

/-- SAT of a sum (R304): it, or a partial sum of it, overflowed although every input was finite. -/
def sumSat (fin : Bool) (r : Rounded) : OpFlags := { ev := { sat := fin && !isFinite r.val } }

/-- A sum with its flags. -/
def ofSum (fin : Bool) (r : Rounded) : SmVal := ⟨r.val, fin, flagsOr (rFlags r) (sumSat fin r)⟩

/-- v of R280 for ops 1 to 4, 7, 8 and 9. -/
def smElem (op : OpWord) (t : FnTable) (a b : FVal) : SmVal :=
  let both := isFinite a && isFinite b
  match opCode op with
  | 1 => ofSum both (rnd32 (addExact a b))
  | 2 => if smIntProd op then ⟨mulExact a b, true, {}⟩ else ofR both (mulR a b)
  | 3 => ⟨smMax a b, both, {}⟩
  | 4 => ⟨smMin a b, both, {}⟩
  | 8 =>
    let r := evalFn t (smArg op a)
    ⟨r.val, isFinite a, { domain := r.domain, ev := { sat := r.sat && isFinite a } }⟩
  | 9 =>
    let r := evalFn t (smArg op b)
    let v := mulR a r.val
    ⟨v.val, both, { domain := r.domain, ev := { sat := r.sat && isFinite b, flush := v.flush } }⟩
  | _ => ⟨a, isFinite a, {}⟩

/-- Add operand C (R281); an integer product saturates once to INT32, with or without C. -/
def smAccum (op : OpWord) (c : Option Nat) (v : SmVal) : SmVal :=
  if smIntProd op then
    let r := satInt 32 (intOf v.val + (match c with | some x => signedOf 32 x | none => 0))
    ⟨fvalOfInt r.1, true, { v.fl with isat := r.2 }⟩
  else match c with
    | none => v
    | some x =>
      let r := rnd32 (addExact v.val (fp32Val x))
      let fin := v.fin && isFinite (fp32Val x)
      let fl := { v.fl with ev := { v.fl.ev with flush := r.flush } }
      ⟨r.val, fin, flagsOr fl (sumSat fin r)⟩

/-- Add the rows of C. -/
def smAccumRows (op : OpWord) (c : List (List Nat)) (rows : List (List SmVal)) : List (List SmVal) :=
  rows.zipIdx.map (fun r => r.1.zipIdx.map (fun v =>
    smAccum op (if opAccum op then some (cell c r.2 v.2) else none) v.1))

/-- The table of `SM_FUNC` and `SM_GATE`. -/
def smTable (s : State) (tile : Nat) (e : Entry) (op : OpWord) : FnTable :=
  if smCompat op then compatFn (smSlot op) else slotTable s tile e.inst (smSlot op)

/-- Read operand A. -/
def smReadA (op : OpWord) (p : SlotAt) (a : Bool × State) : SfRows × (Bool × State) :=
  let w := pitch (fmtBits (smFa op)) (smCols op)
  smRead op (smFa op) (smScA op) (smCols op) p (atLine p (smRows op * w)) (smRows op) a

/-- An op's flags and row counts as its status. -/
def smRun (nanScale : Bool) (masked nans : Nat) (r : OpFlags × (Bool × State)) : EngRun :=
  ({ sumac := sumacByte (flagsOr r.1 { nanScale := nanScale }), smMasked := masked, smNan := nans }, r.2)

/-- The elementwise ops that write elements. -/
def smMap (tile : Nat) (e : Entry) (s : State) : EngRun :=
  let op := entryOp s e
  let (x, a1) := smReadA op (opndAt s tile e 0) (false, s)
  let (y, a2) := if smValueB (opCode op) then smReadB op (opndAt s tile e 1) a1 else (x, a1)
  let (c, a3) := smReadC op (opndAt s tile e 2) a2
  let t := smTable s tile e op
  let rows := (x.vals.zip y.vals).map (fun r => (r.1.zip r.2).map (fun v => smElem op t v.1 v.2))
  smRun (x.nanScale || y.nanScale) 0 0
    (smWrite (smOutFmtOf s tile e op) (smCols op) (opndAt s tile e 3) (smAccumRows op c rows) a3)

/-- Pack bits into bytes, least significant first, into whole lines of 64. -/
def packBits (lines : Nat) (l : List Bool) : List Byte :=
  (List.range (64 * lines)).map (fun i =>
    BitVec.ofNat 8 ((List.range 8).foldl (fun a j => a + (l.getD (8 * i + j) false).toNat * 2 ^ j) 0))

/-- `SM_CMP`. -/
def smCmpOp (tile : Nat) (e : Entry) (s : State) : EngRun :=
  let op := entryOp s e
  let (x, a1) := smReadA op (opndAt s tile e 0) (false, s)
  let (y, a2) := smReadB op (opndAt s tile e 1) a1
  let bitsOf := (x.vals.zip y.vals).map (fun r => (r.1.zip r.2).map (fun v => smPredHolds (smPred op) v.1 v.2))
  let w := smMaskLines op
  let a3 := bitsOf.zipIdx.foldl (fun a r => wr 3 (atLine (opndAt s tile e 3) (r.2 * w)) (packBits w r.1) a) a2
  smRun (x.nanScale || y.nanScale) 0 0 ({}, a3)

/-- `SM_SELECT`. -/
def smSelectOp (tile : Nat) (e : Entry) (s : State) : EngRun :=
  let op := entryOp s e
  let (x, a1) := smReadA op (opndAt s tile e 0) (false, s)
  let (m, a2) := smMask op (opndAt s tile e 1) (if smBcast op = 0 then smRows op else 1) a1
  let ms := spread (smRows op) (smBcast op != 0) m []
  let fill := fp32Val (smImm op)
  let rows := (x.vals.zip ms).map (fun r => (r.1.zip r.2).map (fun v =>
    let y := if v.2 then v.1 else fill
    (⟨y, isFinite y, {}⟩ : SmVal)))
  smRun x.nanScale 0 0 (smWrite (smOutFmtOf s tile e op) (smCols op) (opndAt s tile e 3) rows a2)

/-! ### Row reductions (R282, R283) -/

def joinOpt {α : Type} (g : α → α → α) : Option α → Option α → Option α
  | some a, some b => some (g a b)
  | none, b => b
  | a, none => a

/-- One level of the tree: neighbours in pairs. -/
def pairUp {α : Type} (g : α → α → α) : List (Option α) → List (Option α)
  | a :: b :: l => joinOpt g a b :: pairUp g l
  | l => l

/-- The fixed order of R282: 128 lanes, then seven levels of a tree; absent terms are skipped. -/
def treeFold {α : Type} (g : α → α → α) (l : List (Option α)) : Option α :=
  let rows := chunk 128 l
  let lanes := (List.range 128).map (fun j => rows.foldl (fun a r => joinOpt g a (r.getD j none)) none)
  ((List.range 7).foldl (fun t _ => pairUp g t) lanes).headD none

/-- The R282 sum of terms. -/
def treeSum (l : List Rounded) : Rounded := (treeFold addR (l.map some)).getD (exactR (fzero false))

/-- One row's reduction, with C. -/
def smReduceRow (op : OpWord) (c : Option Nat) (a b : List FVal) : SmVal :=
  let fin := a.all isFinite && (opCode op != 12 || b.all isFinite)
  let v : SmVal :=
    if smIntProd op then ⟨fvalOfInt ((a.zip b).foldl (fun x p => x + intOf (mulExact p.1 p.2)) 0), true, {}⟩
    else if opCode op == 10 then ofR fin (treeSum (a.map exactR))
    else if opCode op == 11 then ⟨(treeFold smMax (a.map some)).getD .nan, fin, {}⟩
    else ofR fin (treeSum ((a.zip b).map (fun p => mulR p.1 p.2)))
  let w := smAccum op c v
  if smIntProd op then w else { w with fl := flagsOr w.fl (sumSat fin ⟨v.val, false, false⟩) }

/-- The row reductions: M FP32 (or INT32) values in one dense row. -/
def smReduce (tile : Nat) (e : Entry) (s : State) : EngRun :=
  let op := entryOp s e
  let m := smRows op
  let (x, a1) := smReadA op (opndAt s tile e 0) (false, s)
  let (y, a2) := if opCode op == 12 then smReadB op (opndAt s tile e 1) a1 else (x, a1)
  let (c, a3) := if opAccum op then rdRows 3 0 m (pitch 32 m) (opndAt s tile e 2) 1 a2
    else (([] : List (List Nat)), a2)
  let vals := (x.vals.zip y.vals).zipIdx.map (fun r =>
    smReduceRow op (if opAccum op then some (cell c 0 r.2) else none) r.1.1 r.1.2)
  smRun (x.nanScale || y.nanScale) 0 0
    (smWrite (smOutFmtOf s tile e op) m (opndAt s tile e 3) [vals] a3)

/-! ### Normalisations (R284 to R286, R298) -/

/-- Quotient by a count or a sum: correctly rounded, or by the compatibility reciprocal. -/
def smDiv (compat : Bool) (x d : FVal) : Rounded :=
  if compat then mulR x (evalFn (compatFn 3) d).val else rnd32 (divExact x d)

def smRsqrt (compat : Bool) (x : FVal) : FnRes := evalFn (if compat then compatFn 4 else nativeFn 4) x

/-- The scale ρ of a row from its mean square or variance, and what it raised. -/
def smRho (op : OpWord) (q : Rounded) (n : Nat) (fin : Bool) : FVal × OpFlags :=
  let ms := (smDiv (smCompat op) q.val (fvalOfInt n)).val
  let x := addF ms (smImmVal op)
  let r := smRsqrt (smCompat op) x
  (r.val, { domain := r.domain || isZero x, ev := { sat := fin && !isFinite q.val } })

/-- One row of `SM_RMSNORM`. -/
def smRmsRow (op : OpWord) (a g : List FVal) : List SmVal :=
  let fin := a.all isFinite
  let q := treeSum (a.map (fun v => mulR v v))
  let r := smRho op q a.length fin
  (a.zip g).map (fun v =>
    let y := mulR (mulF v.1 r.1) v.2
    ⟨y.val, fin && isFinite v.2, flagsOr r.2 (rFlags y)⟩)

/-- One row of `SM_LAYERNORM`. -/
def smLayerRow (op : OpWord) (a g : List FVal) (b : Option (List FVal)) : List SmVal :=
  let fin := a.all isFinite
  let n := fvalOfInt a.length
  let sum := treeSum (a.map exactR)
  let mu := (smDiv (smCompat op) sum.val n).val
  let ds := a.map (fun v => subF v mu)
  let q := treeSum (ds.map (fun v => mulR v v))
  let r := smRho op q a.length fin
  (ds.zip g).zipIdx.map (fun v =>
    let y := mulR (mulF v.1.1 r.1) v.1.2
    let bias := b.map (fun l => l.getD v.2 .nan)
    let z := match bias with
      | some x => addR y (exactR x)
      | none => y
    let whole := fin && isFinite v.1.2 && bias.all isFinite
    let more := if bias.isSome then sumSat whole z else {}
    ⟨z.val, whole, flagsOr (flagsOr r.2 (flagsOr more (sumSat fin sum))) (rFlags z)⟩)

/-- `SM_RMSNORM` and `SM_LAYERNORM`. -/
def smNorm (tile : Nat) (e : Entry) (s : State) : EngRun :=
  let op := entryOp s e
  let n := smCols op
  let w := pitch (fmtBits (smFb op)) n
  let pb := opndAt s tile e 1
  let next := atLine pb (w + smScLen op (smScB op) 1)
  let (x, a1) := smReadA op (opndAt s tile e 0) (false, s)
  let (g, a2) := smRead op (smFb op) (smScB op) n pb (atLine pb w) 1 a1
  let (b, a3) := if smBias op then smRead op (smFb op) (smScB op) n next (atLine next w) 1 a2 else (⟨[], false⟩, a2)
  let (c, a4) := smReadC op (opndAt s tile e 2) a3
  let gain := g.vals.headD []
  let rows := x.vals.map (fun r =>
    if opCode op == 13 then smRmsRow op r gain else smLayerRow op r gain b.vals.head?)
  smRun (x.nanScale || g.nanScale || b.nanScale) 0 0
    (smWrite (smOutFmtOf s tile e op) n (opndAt s tile e 3) (smAccumRows op c rows) a4)

/-! ### Soft maximum (R287, R288, R298) -/

/-- One row: its outputs, its log-sum-exp, and how it counts (0 plain, 1 fully masked, 2 NaN). -/
structure SmSoft where
  outs : List SmVal
  lse : SmVal
  kind : Nat
deriving DecidableEq, Repr

def smSoftRow (op : OpWord) (a : List FVal) (mask : List Bool) : SmSoft :=
  let cp := smCompat op
  let xs := (a.zip mask).map (fun v =>
    let x := smArg op v.1
    if v.2 && !isNegInf x then some x else none)
  let seen := xs.filterMap id
  let zero : SmVal := ⟨fzero false, true, {}⟩
  if seen.isEmpty then ⟨a.map (fun _ => zero), ⟨.inf true, false, {}⟩, 1⟩
  else if seen.any (fun x => !isFinite x) then
    ⟨a.map (fun _ => ⟨.nan, false, {}⟩), ⟨.nan, false, {}⟩, 2⟩
  else
    let fn := fun k => if cp then compatFn k else nativeFn k
    let m := (treeFold smMax xs).getD .nan
    let es := xs.map (fun x => match x with
      | some v => (evalFn (fn 0) (subF v m)).val
      | none => fzero false)
    let l := treeSum (es.map exactR)
    let outs := (xs.zip es).map (fun v => match v.1 with
      | some _ => ofR true (smDiv cp v.2 l.val)
      | none => zero)
    ⟨outs, ofR true (rnd32 (addExact m (evalFn (fn 2) l.val).val)), 0⟩

/-- `SM_SOFTMAX`. -/
def smSoftOp (tile : Nat) (e : Entry) (s : State) : EngRun :=
  let op := entryOp s e
  let m := smRows op
  let n := smCols op
  let (x, a1) := smReadA op (opndAt s tile e 0) (false, s)
  let (mk, a2) := if smMaskB op then smMask op (opndAt s tile e 1) (if smBcast op = 0 then m else 1) a1
    else ((List.replicate m (List.replicate n true) : List (List Bool)), a1)
  let ms := spread m (smMaskB op && smBcast op != 0) mk []
  let rows := (x.vals.zip ms).map (fun r => smSoftRow op r.1 r.2)
  let f := smOutFmtOf s tile e op
  let po := opndAt s tile e 3
  let w := smWrite f n po (rows.map (·.outs)) a2
  let at0 := m * pitch (fmtBits f.fmt) n + smScLen op (smScO op) m
  let lse := rows.map (·.lse)
  let a3 := if smLse op then wr 3 (atLine po at0) (packCodes 32 (lse.map (fun v => fp32Code v.val))) w.2 else w.2
  let lf := if smLse op then lse.foldl (fun g v => flagsOr g (flagsOr v.fl
    { ev := { sat := v.fin && isInfinite v.val } })) {} else {}
  let nans := rows.countP (fun r => r.kind == 2)
  smRun x.nanScale (rows.countP (fun r => r.kind == 1)) nans
    (flagsOr (flagsOr w.1 lf) { ev := { nanOut := nans != 0 } }, a3)

/-- What a SUMAC op does: with no row it reads and writes nothing (R302). -/
def smWork (code tile : Nat) (e : Entry) (s : State) : EngRun :=
  if smRows (entryOp s e) = 0 then ({}, (false, s))
  else if code = 5 then smCmpOp tile e s
  else if code = 6 then smSelectOp tile e s
  else if smIsReduce code then smReduce tile e s
  else if smIsNorm code then smNorm tile e s
  else if code = 15 then smSoftOp tile e s
  else smMap tile e s

/-- The end of a SUMAC op. -/
def smFinish (tile uid code : Nat) (s : State) : State :=
  match running s tile uid 3 code with
  | none => s
  | some e => endRun tile uid (smWork code tile e s)

end Sys2Proof.Machine
end

