-- ==== Sys2Proof/Machine/AniseOps.lean ====
section
/-!
DEFINITION. ANISE: sampling parameters, the processing of a row, selection, verification of drafts and reports
(spec/11_anise.md, R308 to R325).
-/
namespace Sys2Proof.Machine

/-! ### Sampling parameters (R313) -/

structure AnParams where
  temp : FVal
  topk : Nat
  topp : FVal
  minp : FVal
  rep_ : FVal
  freq : FVal
  pres : FVal
  window : Nat
  bias : List (Nat × FVal)
  ok : Bool
deriving DecidableEq, Repr

def fOne : FVal := .fin false 1 0

/-- Parse an entry for a vocabulary of `n` tokens, and check it. A reserved byte (7, 30 to 63) that is not zero breaks the table
(DESIGN CHOICE, log 128). -/
def anParse (n : Nat) (b : List Byte) : AnParams :=
  let f := fun off size => ofBytes ((b.drop off).take size)
  let v := fun off => fp32Val (f off 4)
  let nb := f 6 1
  let bias := (List.range (min nb 24)).map (fun i => (f (64 + 8 * i) 4, v (68 + 8 * i)))
  let zero := fzero false
  let ok := isFinite (v 0) && (isZero (v 0) || leF (.fin false 1 (-16)) (v 0)) && decide (f 4 2 ≤ 1024)
    && decide (nb ≤ 24) && f 7 1 == 0 && ltF zero (v 8) && leF (v 8) fOne && leF zero (v 12) && ltF (v 12) fOne
    && isFinite (v 16) && ltF zero (v 16) && isFinite (v 20) && isFinite (v 24) && decide (f 28 2 ≤ 4096)
    && f 30 34 == 0 && bias.all (fun x => decide (x.1 < n) && isFinite x.2)
  ⟨v 0, f 4 2, v 8, v 12, v 16, v 20, v 24, f 28 2, bias, ok⟩

/-! ### Processing a row (R314) -/

/-- A candidate: token id and a value. -/
abbrev Cand := Nat × FVal

/-- Insert by descending value, ties to the lower id; ids arrive in ascending order. -/
def insertCand (c : Cand) : List Cand → List Cand
  | [] => [c]
  | d :: l => if ltF d.2 c.2 then c :: d :: l else d :: insertCand c l

def sortCands (l : List Cand) : List Cand := l.foldl (fun a c => insertCand c a) []

/-- Steps 2 and 3: biases in order, then the penalties of tokens in the history. -/
def anAdjust (p : AnParams) (hist : Option (List Nat)) (zs : List FVal) : List FVal :=
  let z1 := p.bias.foldl (fun l b => l.zipIdx.map (fun x => if x.2 = b.1 then addF x.1 b.2 else x.1)) zs
  match hist with
  | none => z1
  | some h =>
    let recent := h.drop (h.length - p.window)
    z1.zipIdx.map (fun x =>
      let c := recent.countP (· == x.2)
      if c = 0 then x.1
      else
        let y := if ltF (fzero false) x.1 then divF x.1 p.rep_ else mulF x.1 p.rep_
        subF (subF y (mulF (fvalOfInt c) p.freq)) p.pres)

/-- Step 4: the tokens that are not excluded. -/
def anAlive (zs : List FVal) : List Cand :=
  (zs.zipIdx.map (fun x => (x.2, x.1))).filter (fun c => !isNan c.2 && !isNegInf c.2)

/-- The candidate with the largest value, ties to the lowest id. -/
def bestCand (l : List Cand) : Option Cand :=
  l.foldl (fun a c => match a with
    | none => some c
    | some b => if ltF b.2 c.2 then some c else a) none

def anExp (v : FVal) : FVal := (evalFn (nativeFn 0) v).val
def anLn (v : FVal) : FVal := (evalFn (nativeFn 2) v).val

/-- The R282 sum over tokens, the token id being the element index. -/
def candSum (n : Nat) (l : List Cand) : FVal :=
  ((treeFold addR ((List.range n).map (fun i => (l.find? (fun c => c.1 == i)).map (fun c => exactR c.2)))).getD
    (exactR (fzero false))).val

/-- A row's distribution: the token that step 6 selected, or the kept tokens in ascending id with their e, and what
log-probabilities need. -/
structure AnDist where
  inf : Option Nat := none
  kept : List Cand := []
  xs : List Cand := []
  m : FVal := fzero false
deriving DecidableEq, Repr

/-- The shortest prefix, by descending e, whose running sum reaches the threshold. -/
def prefixTo (thr : FVal) : Option FVal → List Cand → List Cand
  | _, [] => []
  | acc, c :: l =>
    let s := match acc with
      | some a => addF a c.2
      | none => c.2
    if leF thr s then [c] else c :: prefixTo thr (some s) l

/-- Steps 6 to 10. -/
def anDist (p : AnParams) (n : Nat) (alive : List Cand) : AnDist :=
  let xs := alive.map (fun c => (c.1, divF c.2 p.temp))
  match xs.find? (fun c => c.2 == .inf false) with
  | some c => { inf := some c.1 }
  | none =>
    let on := ltF p.topp fOne
    let k := if p.topk != 0 then p.topk else if on then 1024 else xs.length
    let top := (sortCands xs).take k
    let keep1 := xs.filter (fun c => top.contains c)
    let m := ((bestCand keep1).map (·.2)).getD (fzero false)
    let es := (keep1.map (fun c => (c.1, anExp (subF c.2 m)))).filter (fun c => !ltF c.2 p.minp)
    let kept :=
      if on then
        let pre := prefixTo (mulF p.topp (candSum n es)) none (sortCands es)
        es.filter (fun c => pre.contains c)
      else es
    { kept := kept, xs := xs, m := m }

/-- Running sums in ascending id (R316). -/
def runSums : Option FVal → List Cand → List Cand
  | _, [] => []
  | acc, c :: l =>
    let s := match acc with
      | some a => addF a c.2
      | none => c.2
    (c.1, s) :: runSums (some s) l

/-- L of R316. -/
def lastSum (l : List Cand) : FVal := match (runSums none l).getLast? with | some c => c.2 | none => fzero false

/-- Random selection by R316 with draw `u`. -/
def anPick (l : List Cand) (u : Nat) : Nat :=
  let rs := runSums none l
  let thr := mulF (.fin false (u / 256) (-24)) (lastSum l)
  match rs.find? (fun c => ltF thr c.2) with
  | some c => c.1
  | none => match l.getLast? with
    | some c => c.1
    | none => 0xFFFFFFFF

def candVal (l : List Cand) (t : Nat) : FVal := match l.find? (fun c => c.1 == t) with | some c => c.2 | none => fzero false

/-- Greedy log-probability of a token (R317). -/
def greedyLogp (n : Nat) (alive : List Cand) (t : Nat) : FVal :=
  let z := candVal alive t
  if z == .inf false then fzero false
  else
    let m := ((bestCand alive).map (·.2)).getD (fzero false)
    let l := candSum n (alive.map (fun c => (c.1, anExp (subF c.2 m))))
    subF (subF z m) (anLn l)

/-- A result: token and log-probability. -/
abbrev AnRes := Nat × FVal

def noToken : AnRes := (0xFFFFFFFF, .nan)

/-! ### Draws (R318) -/

/-- What the draws of an op share. -/
structure AnKey where
  seed : Nat
  host : Nat
deriving DecidableEq, Repr

def anDraw (k : AnKey) (pos dix purpose : Nat) : Nat :=
  (philox (k.seed % 2 ^ 32) (k.seed / 2 ^ 32 % 2 ^ 32) ⟨k.host, pos, dix, purpose⟩).c0

/-- Select one token from a row (R314 to R317). -/
def anSelect (p : AnParams) (n : Nat) (hist : Option (List Nat)) (u : Nat) (zs : List FVal) : AnRes × AnFlags :=
  let alive := anAlive (anAdjust p hist zs)
  if !p.ok then (noToken, { bad := true })
  else match bestCand alive with
  | none => (noToken, { empty := true })
  | some g =>
    if isZero p.temp then ((g.1, greedyLogp n alive g.1), {})
    else
      let d := anDist p n alive
      match d.inf with
      | some t => ((t, fzero false), { inf := true })
      | none =>
        let t := anPick d.kept u
        ((t, subF (subF (candVal d.xs t) d.m) (anLn (lastSum d.kept))), {})

/-! ### Verifying drafts (R319, R320) -/

/-- Probabilities of a row over its kept tokens. -/
def anProbs (d : AnDist) : List Cand :=
  match d.inf with
  | some t => [(t, fOne)]
  | none => d.kept.map (fun c => (c.1, divF c.2 (lastSum d.kept)))

/-- The inputs of a verification. -/
structure AnVer where
  p : AnParams
  n : Nat
  k : Nat
  rows : List (List FVal)
  drafts : List (List FVal)
  ids : List Nat
  hist : Option (List Nat)
  qgreedy : Bool
  key : AnKey
  pos : Nat
deriving DecidableEq, Repr

/-- The history at row `i`: the drafts before it appended, the oldest beyond 4,096 dropped. -/
def verHist (v : AnVer) (i : Nat) : Option (List Nat) :=
  v.hist.map (fun h => let l := h ++ v.ids.take i; l.drop (l.length - 4096))

/-- q of draft `i` (from 1), and its flags; a greedy entry ends at step 5 of R314 and needs no q. -/
def verQ (v : AnVer) (i : Nat) : List Cand × AnFlags :=
  if v.qgreedy then ([(v.ids.getD (i - 1) 0, fOne)], {})
  else
    let alive := anAlive (anAdjust v.p (verHist v (i - 1)) (v.drafts.getD (i - 1) []))
    if alive.isEmpty then ([], { empty := true })
    else if isZero v.p.temp then ([], {})
    else
      let d := anDist v.p v.n alive
      (anProbs d, { inf := d.inf.isSome })

/-- Selection after a rejection (step 2): from the residual, or from p when every r is zero. -/
def verResidual (v : AnVer) (i : Nat) (p q : List Cand) : AnRes :=
  let u := anDraw v.key (v.pos + i) i 0
  let r := p.map (fun c => (c.1, maxF (fzero false) (subF c.2 (candVal q c.1))))
  if r.any (fun c => !isZero c.2) then
    let t := anPick r u
    (t, anLn (divF (candVal r t) (lastSum r)))
  else
    let t := anPick p u
    (t, anLn (candVal p t))

/-- Judge from draft `i` on; the fuel is the number of rows left. -/
def verGo (v : AnVer) (i : Nat) : Nat → List AnRes → AnFlags → List AnRes × AnFlags
  | 0, acc, fl => (acc, fl)
  | fuel + 1, acc, fl0 =>
    let q := if v.k < i then ([], {}) else verQ v i
    let fl := anOr fl0 q.2
    let alive := anAlive (anAdjust v.p (verHist v (i - 1)) (v.rows.getD (i - 1) []))
    match bestCand alive with
    | none => (acc ++ [noToken], anOr fl { empty := true })
    | some g =>
      if isZero v.p.temp then
        let res := acc ++ [(g.1, greedyLogp v.n alive g.1)]
        if v.k < i || v.ids.getD (i - 1) 0 != g.1 then (res, fl) else verGo v (i + 1) fuel res fl
      else
        let d := anDist v.p v.n alive
        let f1 := anOr fl { inf := d.inf.isSome }
        let p := anProbs d
        if v.k < i then
          match d.inf with
          | some t => (acc ++ [(t, fzero false)], f1)
          | none =>
            let t := anPick d.kept (anDraw v.key (v.pos + i) i 0)
            (acc ++ [(t, anLn (candVal p t))], f1)
        else
          let t := v.ids.getD (i - 1) 0
          let pt := candVal p t
          let qt := candVal q.1 t
          let w : FVal := .fin false (anDraw v.key (v.pos + i) i 1 / 256) (-24)
          if !isZero pt && (leF qt pt || ltF (mulF w qt) pt) then verGo v (i + 1) fuel (acc ++ [(t, anLn pt)]) f1
          else (acc ++ [verResidual v i p q.1], f1)

/-! ### Reports (R321) -/

def putDraft (d : Nat × Nat) : List (Nat × Nat) → List (Nat × Nat)
  | [] => [d]
  | x :: l => if d.1 < x.1 then d :: x :: l else if d.1 = x.1 then d :: l else x :: putDraft d l

/-- Add to the report of a slot. -/
def putReport (slot : Nat) (f : TokenReport → TokenReport) (l : List TokenReport) : List TokenReport :=
  if l.any (fun r => r.slot == slot) then l.map (fun r => if r.slot == slot then f r else r)
  else l ++ [f ⟨slot, [], 0, 0, [], false⟩]

/-- Does a report hold a result that selected no token (R315)? -/
def reportFailed (r : TokenReport) : Bool := r.tokens.any (·.1 == 0xFFFFFFFF) || r.drafts.any (·.2 == 0xFFFFFFFF)

/-- Change the report of the op's slot, while the step that the op works for is the one bound. -/
def anReportTo (e : Entry) (f : TokenReport → TokenReport) (s : State) : State :=
  let add := fun x => { f x with failed := reportFailed (f x) }
  if s.cond.bound.any (fun h => h.step == e.bind.step) then
    { s with cond := { s.cond with ownReports := putReport e.bind.slot add s.cond.ownReports } }
  else s

def resPair (r : AnRes) : Nat × Nat := (r.1, fp32Code r.2)

/-! ### The ops -/

/-- The history of operand C: none without it; a count above 4,096 is bad. -/
def anHistory (op : OpWord) (p : SlotAt) (a : Bool × State) : (Option (List Nat) × Bool) × (Bool × State) :=
  if opAccum op then
    let (h, a1) := rd 4 p 4 a
    let n := ofBytes h
    if 4096 < n then ((some [], false), a1)
    else
      let (l, a2) := rd 4 (atLine p 1) (4 * n) a1
      ((some ((chunk 4 l).map ofBytes), true), a2)
  else ((none, true), a)

def anSeed (s : State) : Nat := match s.stepSet with | some x => x.params.seed | none => Config.noSeed

def anKey (s : State) (e : Entry) : AnKey := ⟨anSeed s, if opBound e.op then e.bind.hostId else 0⟩

def resBytes (r : AnRes) : List Byte := le 4 r.1 ++ le 4 (fp32Code r.2)

/-- Decode logit rows (R314 step 1). -/
def anRows_ (op : OpWord) (p : SlotAt) (r : Nat) (a : Bool × State) : List (List FVal) × (Bool × State) :=
  let (l, a1) := rdRows 4 (anFmt op) (anVocab op) (anPitch op) p r a
  (l.map (fun x => x.map (fun c => toFp32 (decodeElem (anFmt op) c))), a1)

def anyNan (rows : List (List FVal)) : Bool := rows.any (fun r => r.any isNan)

/-- The sampling-parameter entry of an op. -/
def anEntry (op : OpWord) (p : SlotAt) (a : Bool × State) : AnParams × (Bool × State) :=
  let (b, a1) := rd 4 (atLine p (4 * anSpix op)) 256 a
  (anParse (anVocab op) b, a1)

/-- Report the results of `AN_SAMPLE`: each row gives a report, a later one replacing an earlier one. -/
def sampleReport (op : OpWord) (e : Entry) (rs : List AnRes) (s : State) : State :=
  if anReport op then
    forAll rs (fun a r =>
      if anDrafts op then anReportTo e (fun x => { x with drafts := putDraft (anDraftIx op, r.1) x.drafts }) a
      else anReportTo e (fun x => { x with tokens := [resPair r], offered := 0, accepted := 0 }) a) s
  else s

/-- `AN_SAMPLE` (R314 to R317). -/
def anSampleOp (tile : Nat) (e : Entry) (s : State) : EngRun :=
  let op := entryOp s e
  let (rows, a1) := anRows_ op (opndAt s tile e 0) (anRows op) (false, s)
  let (p0, a2) := anEntry op (opndAt s tile e 1) a1
  let (h, a3) := anHistory op (opndAt s tile e 2) a2
  let p := { p0 with ok := p0.ok && h.2 }
  let key := anKey s e
  let res := rows.zipIdx.map (fun r =>
    let at0 := anPos op + r.2 + 1
    let u := if anDrafts op then anDraw key at0 (anDraftIx op) 2 else anDraw key at0 0 0
    anSelect p (anVocab op) h.1 u r.1)
  let rs := res.map (·.1)
  let a4 := wr 4 (opndAt s tile e 3) (rs.flatMap resBytes) a3
  let fl := anOr (res.foldl (fun g r => anOr g r.2) {}) { nanIn := anyNan rows }
  let s1 := evCount tile 0x5E 0 (entryPrio s tile e) rs.length a4.2
  ({ anise := aniseByte fl }, (a4.1, if a4.1 then s1 else sampleReport op e rs s1))

/-- `AN_VERIFY` (R319, R320). -/
def anVerifyOp (tile : Nat) (e : Entry) (s : State) : EngRun :=
  let op := entryOp s e
  let k := anRows op
  let pa := opndAt s tile e 0
  let (rows, a1) := anRows_ op pa (k + 1) (false, s)
  let (drafts, a2) := if anQgreedy op then (([] : List (List FVal)), a1)
    else anRows_ op (atLine pa ((k + 1) * anPitch op)) k a1
  let (ids, a3) := rd 4 (atLine pa (anIdsAt op)) (4 * k) a2
  let (p0, a4) := anEntry op (opndAt s tile e 1) a3
  let (h, a5) := anHistory op (opndAt s tile e 2) a4
  let p := { p0 with ok := p0.ok && h.2 }
  let v : AnVer :=
    ⟨p, anVocab op, k, rows, drafts, (chunk 4 ids).map ofBytes, h.1, anQgreedy op, anKey s e, anPos op⟩
  let r := if p.ok then verGo v 1 (k + 1) [] {} else ([noToken], { bad := true })
  let acc := r.1.length - 1
  let body := le 4 acc ++ le 4 (acc + 1) ++ le 8 0 ++ r.1.flatMap resBytes ++ le (8 * (17 - r.1.length)) 0
  let a6 := wr 4 (opndAt s tile e 3) body a5
  let fl := anOr r.2 { nanIn := anyNan rows || anyNan drafts }
  let prio := entryPrio s tile e
  let s1 := evCount tile 0x5E 0 prio 1 (evCount tile 0x5D 0 prio acc (evCount tile 0x5C 0 prio k a6.2))
  let s2 := if anReport op && !a6.1 then anReportTo e (fun x => { x with
      tokens := r.1.map resPair, offered := k, accepted := acc }) s1 else s1
  ({ anise := aniseByte fl, anOffered := k, anAccepted := acc }, (a6.1, s2))

/-- What an ANISE op does: with no rows, nothing (R320, R322). -/
def anWork (code tile : Nat) (e : Entry) (s : State) : EngRun :=
  if anRows (entryOp s e) = 0 then ({}, (false, s))
  else if code = 1 then anSampleOp tile e s
  else anVerifyOp tile e s

/-- The end of an ANISE op. -/
def anFinish (tile uid code : Nat) (s : State) : State :=
  match running s tile uid 4 code with
  | none => s
  | some e => endRun tile uid (anWork code tile e s)

end Sys2Proof.Machine
end

