-- ==== Sys2Proof/Machine/Anise.lean ====
section
/-!
DEFINITION. The end of each ANISE op.
-/
namespace Sys2Proof.Machine

/-- AN_SAMPLE (R314 to R317, R321). -/
def execAnSample (tile entry : Nat) (parity : Bool) (s : State) : Host.Outcome State Fault Refusal :=
  .next (withParity tile entry 4 1 parity (anFinish tile entry 1) s)

/-- AN_VERIFY (R319 to R321). -/
def execAnVerify (tile entry : Nat) (parity : Bool) (s : State) : Host.Outcome State Fault Refusal :=
  .next (withParity tile entry 4 2 parity (anFinish tile entry 2) s)

end Sys2Proof.Machine
end

