-- ==== Sys2Proof/Machine/FennelOps.lean ====
section
/-!
DEFINITION. FENNEL: page tables, descriptors, free lists, the step view, the lists of its two ops, and what a commit or
an abort does to pages (spec/09_fennel.md, R243 to R270).
-/
namespace Sys2Proof.Machine

/-! ### Tables in package memory (R245 to R249) -/

/-- Address of a page-table entry (R247). -/
def ptAddr (p : PoolParams) (slot layer block : Nat) : Nat := p.ptBase + slot * p.ptStride + 4 * (block * p.layers + layer)

/-- Address of a page descriptor (R248). -/
def pdAddr (p : PoolParams) (page : Nat) : Nat := p.desc + 16 * page

/-- FENNEL reads and writes with memory class 0 and hint DEFAULT (R260, R358). -/
def fnWord (addr n : Nat) (s : State) : (Nat × Bool) × State := pkgWord 0 addr n s
def fnPut (addr n v : Nat) (s : State) : State := pkgWrite 0 0 addr (le n v) false s

/-- Page states of `PD_STATE`. -/
def pdFree : Nat := 0
def pdLive : Nat := 1
def pdDead : Nat := 2
def pdNew : Nat := 4

/-- A whole descriptor. -/
def pdBytes (ref state link last : Nat) : List Byte := layout 16 [(0, 2, ref), (2, 1, state), (4, 4, link), (8, 8, last)]

/-- Blocks that a slot's table holds for each layer. -/
def maxBlocks (p : PoolParams) : Nat := ceilDiv p.maxLen 32

/-- Layers homed on a tile. -/
def homeLayers (p : PoolParams) (tile : Nat) : List Nat :=
  (List.range p.layers).filter (fun l => p.home.getD l 8 == tile)

/-- Bytes of one tile's overlay (R251). -/
def overlayOf (p : PoolParams) (f : StepSetParams) (t : Nat) : Nat :=
  16 * (homeLayers p t).length * (ceilDiv f.tokenBudget 32 + f.seqsPerStep)

/-- Where a tile's overlay lies: behind the lists, in tile order (DESIGN CHOICE, log 95). -/
def overlayAddr (s : State) (p : PoolParams) (t : Nat) : Nat :=
  match s.stepSet with
  | none => 0
  | some x => p.work + 2048 * p.listBytes + ((List.range t).map (overlayOf p x.params)).sum

/-- An overlay entry's 16 bytes: the spec gives its fields and its size, not their places (DESIGN CHOICE, log 95). -/
def overlayEntry (slot layer block pte src n : Nat) : List Byte :=
  layout 16 [(0, 2, slot), (2, 1, layer), (3, 1, n), (4, 4, block), (8, 4, pte), (12, 4, src)]
/-- New entry, copy source and copy count of an entry read as a number. -/
def overlayPte (w : Nat) : Nat := w / 2 ^ 64 % 2 ^ 32
def overlaySrc (w : Nat) : Nat := w / 2 ^ 96
def overlayCount (w : Nat) : Nat := w / 2 ^ 24 % 2 ^ 8

def freeHeadOf (s : State) (tile : Nat) : Nat := mapGet 0 s.fennel.freeHead tile
def setFreeHead (tile h : Nat) (s : State) : State :=
  { s with fennel := { s.fennel with freeHead := mapSet 0 s.fennel.freeHead tile h } }
def deadOf (s : State) (tile : Nat) : List Nat := mapGet [] s.fennel.dead tile
def setDead (tile : Nat) (l : List Nat) (s : State) : State :=
  { s with fennel := { s.fennel with dead := mapSet [] s.fennel.dead tile l } }
def workOf (s : State) (tile : Nat) : List FoldWork := mapGet [] s.fennel.work tile
def setWork (tile : Nat) (l : List FoldWork) (s : State) : State :=
  { s with fennel := { s.fennel with work := mapSet [] s.fennel.work tile l } }

/-- Push a page onto its tile's free list: it is FREE and links to the old head (R248, R249). -/
def pushFree (tile : Nat) (p : PoolParams) (page : Nat) (s : State) : State :=
  let old := freeHeadOf s tile
  setFreeHead tile (page + 1)
    (pkgWrite 0 0 (pdAddr p page) (layout 8 [(2, 1, pdFree), (4, 4, if old = 0 then 0xFFFFFFFF else old - 1)]) false s)

/-- Count one reference of a page down; at 0 the page becomes DEAD-PENDING (R249, R262). -/
def decPage (tile : Nat) (p : PoolParams) (page : Nat) (s : State) : State :=
  let (r, s1) := fnWord (pdAddr p page) 2 s
  let s2 := fnPut (pdAddr p page) 2 (r.1 - 1) s1
  if r.1 = 1 then setDead tile (deadOf s2 tile ++ [page]) (fnPut (pdAddr p page + 2) 1 pdDead s2) else s2

/-! ### Background work (R262, R263) -/

/-- One entry of background work; what is left of its item. An overlay entry that comes with poison leaves its
page-table entry poisoned (DESIGN CHOICE, log 95). -/
def workEntry (tile : Nat) (p : PoolParams) (w : FoldWork) (s : State) : List FoldWork × State :=
  match w with
  | .entry slot layer block addr =>
    let (r, s1) := fnWord addr 16 s
    ([], pkgWrite 0 0 (ptAddr p slot layer block) (le 4 (overlayPte r.1)) r.2 s1)
  | .settled page =>
    let (r, s1) := fnWord (pdAddr p page + 2) 1 s
    ([], fnPut (pdAddr p page + 2) 1 (r.1 % 4) s1)
  | .decrement page => ([], decPage tile p page s)
  | .fork child parent layer block left =>
    let (r, s1) := fnWord (ptAddr p parent layer block) 4 s
    let s2 := if pteValid r.1 then
        (let shared := setBit r.1 30 true
         let s3 := fnPut (ptAddr p child layer block) 4 shared (fnPut (ptAddr p parent layer block) 4 shared s1)
         let (n, s4) := fnWord (pdAddr p (ptePage r.1)) 2 s3
         fnPut (pdAddr p (ptePage r.1)) 2 (n.1 + 1) s4)
      else s1
    (if left ≤ 1 then [] else [.fork child parent layer (block + 1) (left - 1)], s2)
  | .drop slot layer block left =>
    let (r, s1) := fnWord (ptAddr p slot layer block) 4 s
    let s2 := if pteValid r.1 then decPage tile p (ptePage r.1) (fnPut (ptAddr p slot layer block) 4 0 s1) else s1
    (if left ≤ 1 then [] else [.drop slot layer (block + 1) (left - 1)], s2)

/-- Entries in an item. -/
def workSize : FoldWork → Nat
  | .fork _ _ _ _ n => max n 1
  | .drop _ _ _ n => max n 1
  | _ => 1

/-- Carry out one entry of a tile's pending fold and release work. -/
def foldStep (tile : Nat) (p : PoolParams) (s : State) : State :=
  match workOf s tile with
  | [] => s
  | w :: ws =>
    let r := workEntry tile p w s
    setWork tile (r.1 ++ ws) r.2

/-- Carry out all of it. -/
def foldMany (tile : Nat) (p : PoolParams) : Nat → State → State
  | 0, s => s
  | n + 1, s => foldMany tile p n (foldStep tile p s)

def foldAll (tile : Nat) (p : PoolParams) (s : State) : State :=
  foldMany tile p ((workOf s tile).map workSize).sum s

/-- Fold the work of every tile. -/
def foldTiles (s : State) : State :=
  match s.fennel.pool with
  | some p => forAll tileList (fun a t => foldAll t p a) s
  | none => s

/-- Reclaim the DEAD-PENDING page that has waited longest, once the committed step has reached its last use (R249). -/
def reclaim (tile : Nat) (p : PoolParams) (s : State) : State :=
  match deadOf s tile with
  | [] => s
  | g :: gs =>
    let (r, s1) := fnWord (pdAddr p g + 8) 8 s
    if r.1 < s.fennel.committed then
      evCount tile 0x52 0 0 1 (pushFree tile p g (setDead tile gs s1))
    else s1

/-- One unit of background work of an idle FENNEL: an entry of pending work, or a page to reclaim. -/
def background (tile : Nat) (s : State) : State :=
  match s.fennel.pool with
  | none => s
  | some p =>
    if (getEngine s tile 6 0).busy then s
    else if (workOf s tile).isEmpty then reclaim tile p s else foldStep tile p s

/-! ### Commit and abort (R261, R262, R264) -/

/-- Work that a page notice gives a tile. -/
def noticeWork (p : PoolParams) (tile : Nat) (n : PageNotice) : List FoldWork :=
  (homeLayers p tile).map (fun l =>
    if n.kind == 2 then .fork n.slot n.parent l 0 (ceilDiv n.prefixLen 32) else .drop n.slot l 0 (maxBlocks p))

/-- A commit at one tile: its overlay, its new pages and its decrements, then forks, then releases. -/
def commitTile (p : PoolParams) (ns : List PageNotice) (s : State) (tile : Nat) : State :=
  let f := s.fennel
  let w := (mapGet [] f.overlay tile).map (fun o => FoldWork.entry o.slot o.layer o.block o.addr)
    ++ (mapGet [] f.newPages tile).map FoldWork.settled
    ++ (mapGet [] f.pendingDec tile).map FoldWork.decrement
    ++ (ns.filter (fun n => n.kind == 2 && n.prefixLen != 0)).flatMap (noticeWork p tile)
    ++ (ns.filter (fun n => n.kind == 1)).flatMap (noticeWork p tile)
  let s1 := setWork tile (workOf s tile ++ w) s
  { s1 with fennel := { s1.fennel with
      overlay := mapSet [] s1.fennel.overlay tile []
      newPages := mapSet [] s1.fennel.newPages tile []
      pendingDec := mapSet [] s1.fennel.pendingDec tile [] } }

/-- FENNEL's part of a commit of step `n`. -/
def fennelCommit (n : Nat) (ns : List PageNotice) (s : State) : State :=
  let s1 := { s with fennel := { s.fennel with committed := n + 1 } }
  match s.fennel.pool with
  | some p => forAll tileList (commitTile p ns) s1
  | none => s1

/-- FENNEL's part of an abort: the overlay is discarded and the step's pages are FREE again, in reverse order of
allocation (DESIGN CHOICE: the order is not given). -/
def fennelAbort (s : State) : State :=
  let s1 := match s.fennel.pool with
    | some p => forAll tileList (fun a t => forAll (mapGet [] s.fennel.newPages t).reverse (fun b g => pushFree t p g b) a) s
    | none => s
  { s1 with fennel := { s1.fennel with overlay := [], newPages := [], pendingDec := [] } }

/-- A free list rebuilt from the descriptors in ascending page id (R245, R265). -/
def rebuildTile (p : PoolParams) (s : State) (tile : Nat) : State :=
  forAll ((List.range (p.count.getD tile 0)).reverse.map (· + p.first.getD tile 0)) (fun a g =>
    let (r, a1) := fnWord (pdAddr p g + 2) 1 a
    if r.1 % 4 == pdFree then pushFree tile p g a1 else a1) (setFreeHead tile 0 s)

/-- Restore after a core reset (R265): committed folds are finished, the overlay of an uncommitted step discarded, the
free lists rebuilt. -/
def fennelRestore (s : State) : State :=
  match s.fennel.pool with
  | some p => forAll tileList (rebuildTile p) (fennelAbort (foldTiles s))
  | none => s

/-! ### The two ops (R252 to R260) -/

/-- Progress of an op: the state, poison met, a page that could not be had, entries listed and pages used. -/
structure FnRun where
  s : State
  bad : Bool := false
  noPage : Bool := false
  copies : List KvEntry := []
  others : List KvEntry := []
  allocs : Nat := 0
  reused : Nat := 0

/-- What an op works for: its pool, tile, slot, step number, and the committed length that its record states. -/
structure FnJob where
  p : PoolParams
  tile : Nat
  slot : Nat
  step : Nat
  isStep : Bool
  jobId : Nat
  len : Nat

/-- Read for an op, noting poison. -/
def fnRead (addr n : Nat) (r : FnRun) : Nat × FnRun :=
  let (x, s1) := fnWord addr n r.s
  (x.1, { r with s := s1, bad := r.bad || x.2 })

/-- The step's overlay entry for a block, as memory holds it (R250). -/
def overlayAt (j : FnJob) (l b : Nat) (r : FnRun) : Option Nat × FnRun :=
  let hit := (mapGet [] r.s.fennel.overlay j.tile).find? (fun o => o.slot == j.slot && o.layer == l && o.block == b)
  match j.isStep, hit with
  | true, some o => let (w, r1) := fnRead o.addr 16 r; (some w, r1)
  | _, _ => (none, r)

/-- Record an entry in the step's overlay. -/
def addOverlay (j : FnJob) (l b pte src n : Nat) (s : State) : State :=
  let a := overlayAddr s j.p j.tile + 16 * (mapGet [] s.fennel.overlay j.tile).length
  let s1 := pkgWrite 0 0 a (overlayEntry j.slot l b pte src n) false s
  { s1 with fennel := { s1.fennel with
      overlay := mapMod [] s1.fennel.overlay j.tile (fun x => x ++ [⟨j.slot, l, b, a⟩]) } }

/-- The committed entry of a block; none beyond the slot's table (R258). -/
def committedAt (j : FnJob) (l b : Nat) (r : FnRun) : Nat × FnRun :=
  if b < maxBlocks j.p then fnRead (ptAddr j.p j.slot l b) 4 r else (0, r)

/-- Make a page LIVE for this step (R248, R249). -/
def takePage (j : FnJob) (g : Nat) (r : FnRun) : FnRun :=
  let s1 := pkgWrite 0 0 (pdAddr j.p g) (pdBytes 1 (pdLive + pdNew) j.jobId j.step) false r.s
  { r with
    s := { s1 with fennel := { s1.fennel with newPages := mapMod [] s1.fennel.newPages j.tile (fun l => l ++ [g]) } }
    allocs := r.allocs + 1 }

/-- Allocate: the head of the free list, else the DEAD-PENDING page that has waited longest (R249). Every allocation
in a step finds a page (R266 to R270); a run in which none is left makes no progress. -/
def allocPage (j : FnJob) (r : FnRun) : Nat × FnRun :=
  let h := freeHeadOf r.s j.tile
  if h = 0 then
    match deadOf r.s j.tile with
    | [] => (0, { r with noPage := true })
    | g :: gs => (2 ^ 31 + g, takePage j g { r with s := setDead j.tile gs r.s })
  else
    let (link, r1) := fnRead (pdAddr j.p (h - 1) + 4) 4 r
    if r1.bad then (0, r1)
    else
      (2 ^ 31 + (h - 1), takePage j (h - 1)
        { r1 with s := setFreeHead j.tile (if link = 0xFFFFFFFF then 0 else link + 1) r1.s })

/-- List a copy pair (R256, R257). -/
def listPair (l src dst n : Nat) (r : FnRun) : FnRun :=
  if n = 0 then r
  else { r with copies := r.copies ++ [⟨src, 0, n, l, 2⟩, ⟨dst, 0, n, l, 3⟩] }

/-- The page of one block of `FN_APPEND` (R257), `start` the op's first new position. -/
def appendPage (j : FnJob) (start l b : Nat) (r : FnRun) : Nat × FnRun :=
  match overlayAt j l b r with
  | (some w, r0) => if r0.bad then (0, r0) else (overlayPte w, listPair l (overlaySrc w) (overlayPte w) (overlayCount w) r0)
  | (none, r0) =>
    let (e, r1) := committedAt j l b r0
    if r1.bad then (0, r1)
    else if !pteValid e then
      let (g, r2) := allocPage j r1
      if r2.bad || r2.noPage then (0, r2)
      else (g, { r2 with s := addOverlay j l b g 0 0 r2.s })
    else if bit e 30 then
      let (n, r2) := fnRead (pdAddr j.p (ptePage e)) 2 r1
      if r2.bad then (0, r2)
      else if 2 ≤ n then
        let (g, r3) := allocPage j r2
        if r3.bad || r3.noPage then (0, r3)
        else
          let k := start - 32 * b
          let s1 := addOverlay j l b g (if k = 0 then 0 else e) k r3.s
          let s2 := { s1 with fennel := { s1.fennel with
            pendingDec := mapMod [] s1.fennel.pendingDec j.tile (fun x => x ++ [ptePage e]) } }
          (g, listPair l e g k { r3 with s := s2 })
      else
        let one := setBit e 30 false
        (one, { r2 with s := addOverlay j l b one 0 0 r2.s })
    else (e, { r1 with reused := r1.reused + (if j.len ≤ 32 * b then 1 else 0) })

/-- Positions of block `b` that lie from `lo` up to but not including `hi`: the first within the block, and how many. -/
def inBlock (b lo hi : Nat) : Nat × Nat := (max lo (32 * b) - 32 * b, min hi (32 * b + 32) - max lo (32 * b))

/-- Blocks of the positions from `lo` up to but not including `hi`. -/
def blocksOf (lo hi : Nat) : List Nat :=
  if hi ≤ lo then [] else (List.range ((hi - 1) / 32 + 1 - lo / 32)).map (· + lo / 32)

def layerBlocks (l0 n lo hi : Nat) : List (Nat × Nat) :=
  (List.range n).flatMap (fun i => (blocksOf lo hi).map (fun b => (l0 + i, b)))

def appendBlock (j : FnJob) (lo hi : Nat) (r : FnRun) (x : Nat × Nat) : FnRun :=
  if r.bad || r.noPage then r
  else
    let (g, r1) := appendPage j lo x.1 x.2 r
    let q := inBlock x.2 lo hi
    { r1 with others := r1.others ++ [⟨g, q.1, q.2, x.1, 1⟩] }

def gatherBlock (j : FnJob) (lo hi : Nat) (r : FnRun) (x : Nat × Nat) : FnRun :=
  if r.bad then r
  else
    let (g, r1) := match overlayAt j x.1 x.2 r with
      | (some w, r0) => (overlayPte w, r0)
      | (none, r0) => committedAt j x.1 x.2 r0
    let q := inBlock x.2 lo hi
    { r1 with others := r1.others ++ [⟨if pteValid g then g else 0, q.1, q.2, x.1, 0⟩] }

/-- Note the step in each listed page's `PD_LAST_STEP` (R257, R258). -/
def stampPage (j : FnJob) (r : FnRun) (g : Nat) : FnRun :=
  if r.bad then r
  else
    let (old, r1) := fnRead (pdAddr j.p g + 8) 8 r
    if r1.bad then r1
    else { r1 with s := fnPut (pdAddr j.p g + 8) 8 (if j.isStep then j.step else max old j.step) r1.s }

def entryBytes (k : KvEntry) : List Byte := le 4 k.pte ++ le 1 k.first ++ le 1 k.count ++ le 1 k.layer ++ le 1 k.kind

/-- The list that an op writes (R256). -/
def listBytesOf (layers step : Nat) (r : FnRun) : List Byte :=
  layout 16 [(0, 4, r.copies.length + r.others.length), (4, 2, r.copies.length / 2), (6, 2, layers), (8, 8, step)]
    ++ (r.copies ++ r.others).flatMap entryBytes

/-- Do the op's layers fit the pool now configured (R255)? -/
def fnLayersFit (p : PoolParams) (tile : Nat) (op : OpWord) : Bool :=
  decide (fnLayer0 op + fnLayers op ≤ p.layers)
    && (List.range (fnLayers op)).all (fun i => p.home.getD (fnLayer0 op + i) 8 == tile)

/-- Committed length of the sequence that a bound op works for, from its record. -/
def boundLen (s : State) (e : Entry) : Nat :=
  match s.cond.bound with
  | some h => (h.recs[e.bind.record]?.map (·.start)).getD e.bind.start
  | none => e.bind.start

/-- What a FENNEL op works for. An op outside a step task takes the committed step number, 0 before the first commit. -/
def fnJobOf (s : State) (tile : Nat) (e : Entry) (p : PoolParams) : FnJob :=
  let st := isStepTask (getTask s tile e.task)
  { p := p, tile := tile, slot := fnSlot (entryOp s e), step := if st then e.bind.step else s.fennel.committed - 1,
    isStep := st, jobId := (match s.job with | some j => j.id | none => 0), len := boundLen s e }

/-- Positions that an op's blocks cover: those appended, or those kept (R257, R258). -/
def fnSpan (op : OpWord) (code : Nat) : Nat × Nat :=
  let pos := oF op 24 4
  (if code == 1 then pos else pos - min pos (128 * fnCount op), if code == 1 then pos + fnCount op else pos)

/-- The work of a FENNEL op on its blocks. Pending work is folded first, so that every entry reads as the finished work
would give (R263). -/
def fnBlocks (code tile : Nat) (e : Entry) (p : PoolParams) (s : State) : FnRun :=
  let op := entryOp s e
  let j := fnJobOf s tile e p
  let w := fnSpan op code
  let xs := layerBlocks (fnLayer0 op) (fnLayers op) w.1 w.2
  let r0 : FnRun := { s := foldAll tile p s }
  if code == 1 then xs.foldl (appendBlock j w.1 w.2) r0 else xs.foldl (gatherBlock j w.1 w.2) r0

/-- Pages that an op lists, each once. -/
def fnPages (r : FnRun) : List Nat :=
  (((r.copies ++ r.others).filter (fun k => pteValid k.pte)).map (fun k => ptePage k.pte)).eraseDups

/-- The op with its pages stamped. -/
def fnStamped (code tile : Nat) (e : Entry) (p : PoolParams) (s : State) : FnRun :=
  let r := fnBlocks code tile e p s
  (fnPages r).foldl (stampPage (fnJobOf s tile e p)) r

/-- The state in which the op's list stands in package memory and its work is counted. -/
def fnListed (code tile : Nat) (e : Entry) (p : PoolParams) (s : State) : State :=
  let op := entryOp s e
  let r := fnStamped code tile e p s
  let s1 := pkgWrite 0 0 (listAddr p tile (fnList op)) (listBytesOf (fnLayers op) (fnJobOf s tile e p).step r) false r.s
  evCount tile 0x53 0 0 r.reused (evCount tile 0x51 0 0 (r.copies.length / 2) (evCount tile 0x50 0 0 r.allocs s1))

/-- Status byte of an op: it copied pages, it used pages again. -/
def fnByte (r : FnRun) : Nat := (if r.copies.length / 2 = 0 then 0 else 1) + (if r.reused = 0 then 0 else 2)

/-- Does an op outside a step task name positions beyond the pool's limit (R59, R258)? -/
def fnBeyond (s : State) (tile : Nat) (e : Entry) (p : PoolParams) : Bool :=
  !isStepTask (getTask s tile e.task) && decide (p.maxLen < oF (entryOp s e) 24 4)

/-- The end of a FENNEL op. -/
def fnFinish (tile uid code : Nat) (s : State) : State :=
  match running s tile uid 6 code with
  | none => s
  | some e =>
    match s.fennel.pool with
    | none => failOp tile uid fFormat s
    | some p =>
      if !fnLayersFit p tile (entryOp s e) then failOp tile uid fFormat s
      else if fnBeyond s tile e p then failOp tile uid fBound s
      else if (fnBlocks code tile e p s).noPage then s
      else if (fnStamped code tile e p s).bad then failOp tile uid fPoison (fnStamped code tile e p s).s
      else completeOp tile uid { fennel := fnByte (fnStamped code tile e p s) } (fnListed code tile e p s)

end Sys2Proof.Machine
end

