-- ==== Sys2Proof/Machine/Snoops.lean ====
section
/-!
DEFINITION. Back-invalidate snoops of lines that the host may cache (R462). A command that would touch a listed line
sends the snoops and waits; it runs again, from the start, once they are answered.
-/
namespace Sys2Proof.Machine

/-- The tile and window entry of a command that ends an op, for a snoop that the host does not answer. -/
def opOf : Instr → Nat × Nat
  | .clCopy t e _ | .clGather t e _ | .clScatter t e _ | .clTranspose t e _ | .clFill t e _ | .clKvGather t e _
  | .clKvAppend t e _ | .fnAppend t e _ | .fnGather t e _ => (t, e)
  | _ => (8, 0)

/-- Is the line in the filter of lines that the host may cache? -/
def hostHas (s : State) (line : Nat) : Bool := s.host.filter.contains line

/-- Snoop one line, unless a snoop of it is outstanding. -/
def snoopLine (tile entry : Nat) (s : State) (x : Nat × Bool) : State :=
  if mapGet 0 s.host.dirty x.1 != 0 then s
  else
    let s1 := evHub 0xB4 0 1 (emit s (.biSnoop x.1 x.2))
    { s1 with host := { s1.host with
        dirty := mapSet 0 s1.host.dirty x.1 (if x.2 then 2 else 1)
        nextD2h := s1.host.nextD2h + 1
        d2h := s1.host.d2h ++ [(s1.host.nextD2h, .snoop x.1 tile entry)] } }

/-- Lines of a list that the host must be asked about: those it may cache, each once, as a write where any touch writes;
a read needs no second answer. -/
def hostLines (s : State) (l : List (Nat × Bool)) : List (Nat × Bool) :=
  (((l.map (·.1)).eraseDups.filter (hostHas s)).map (fun x => (x, l.any (fun y => y.1 == x && y.2)))).filter
    (fun x => x.2 || !s.host.answered.contains x.1)

def clearTouch (s : State) : State := { s with pkg := { s.pkg with touch := [] } }

/-- The node whose accesses a command makes: the tile of PEPPER, CLOVE or FENNEL, else the hub. -/
def accessNode : Instr → Nat
  | .clCopy t _ _ | .clGather t _ _ | .clScatter t _ _ | .clTranspose t _ _ | .clFill t _ _ | .clKvGather t _ _
  | .clKvAppend t _ _ | .fnAppend t _ _ | .fnGather t _ _ | .fennelBackground t | .taskAdmit t | .opWindowFill t
  | .opIssue t _ => t
  | _ => 8

/-- The codewords that the command touched cross the links between its node and their tiles (R20, R355). -/
def moveTouched (node : Nat) (s : State) : State :=
  forAll s.pkg.touch (fun a x =>
    let t := cwTile (cwOf a (64 * x.1))
    if x.2 then moveLines node t 1 a else moveLines t node 1 a) s

/-- A command of a node has run: its codewords are counted, and what was noted for it is cleared. -/
def endTouch (node : Nat) (s : State) : State :=
  clearTouch (moveTouched node { s with host := { s.host with answered := [] } })

/-- Run a command's effect, for a node's accesses, unless it touches a listed line: then the command waits for the host's
answers. -/
def withSnoopAt (node : Nat) (c : Instr) (f : State → State) (s : State) : State :=
  let s1 := f (clearTouch s)
  let l := hostLines s s1.pkg.touch
  if l.isEmpty then endTouch node s1
  else
    let s2 := l.foldl (snoopLine (opOf c).1 (opOf c).2) s
    { s2 with host := { s2.host with stalled := s2.host.stalled ++ [c] } }

/-- The same, for the accesses of the command's own node. -/
def withSnoop (c : Instr) (f : State → State) (s : State) : State := withSnoopAt (accessNode c) c f s

end Sys2Proof.Machine
end

