-- ==== Sys2Proof/Machine/WinOps.lean ====
section
/-!
DEFINITION. The MACE adders and the epochs of windows: applying a contribution to a codeword, completing an epoch,
publishing and folding a shard (spec/15_fabric.md R422 to R425, spec/16_collectives.md R438 to R448).
-/
namespace Sys2Proof.Machine

/-! ### Element arithmetic (R438) -/

def tgtBytes (fmt : Nat) : Nat := if fmt = 1 then 2 else 4

/-- t ⊕ c, both as codes: `c` in FP32, `t` and the result in the target format. -/
def adderSum (fmt t c : Nat) : Nat :=
  let v := addF (decodeElem fmt t) (fp32Val c)
  if fmt = 1 then (convElem 1 {} .nearest v).1 else fp32Code v

/-- Replace `n` bytes of a list at `off`. -/
def spliceBytes (bs new : List Byte) (off : Nat) : List Byte := bs.take off ++ new ++ bs.drop (off + new.length)

/-- Add contributions to the elements of a codeword from byte `off` up. -/
def adderLine (fmt off : Nat) (vals : List Nat) (bs : List Byte) : List Byte :=
  vals.zipIdx.foldl (fun l x =>
    let o := off + tgtBytes fmt * x.2
    let t := ofBytes ((l.drop o).take (tgtBytes fmt))
    if o + tgtBytes fmt ≤ 64 then spliceBytes l (le (tgtBytes fmt) (adderSum fmt t x.1)) o else l) bs

/-! ### Reduction counts (R448) -/

def satInc (a b : Nat) : Nat := satAdd 32 a b

/-- Add to a window's counts; a step-bound window's count into the step's status. -/
def addCounts (w : Nat) (c : ReCounts) (s : State) : State :=
  let add := fun (o : ReCounts) =>
    ReCounts.mk (satInc o.epochs c.epochs) (satInc o.nan c.nan) (satInc o.inf c.inf) (satInc o.stale c.stale)
      (satInc o.incomplete c.incomplete)
  let s1 := modWin s w (fun x => { x with counts := add x.counts })
  let st : EngStatus := { reNan := c.nan, reInf := c.inf, reStale := c.stale, reIncomplete := c.incomplete }
  if (getWin s w).stepBound then
    { s1 with cond := { s1.cond with ownStatus := engMerge s1.cond.ownStatus st } }
  else s1

/-- Elements of a run of bytes for which a test holds. -/
def countElems (fmt : Nat) (test : FVal → Bool) (bs : List Byte) : Nat :=
  ((codesOf (8 * tgtBytes fmt) (bs.length / tgtBytes fmt) bs).filter (fun c => test (decodeElem fmt c))).length

/-! ### Codewords of a window -/

def winTarget (x : Window) : Nat := (x.params.map (·.targetFmt)).getD 0
def winBase (x : Window) : Nat := (x.params.map (·.base)).getD 0
def winBound (x : Window) : Nat := (x.params.map (·.bound)).getD 0

/-- Where a window's accumulates land: its staging buffer, or its base (R443, R444). -/
def winLand (x : Window) : Nat := (winStaging x).getD (winBase x)

def lineOffsets (n : Nat) : List Nat := (List.range (n / 64)).map (fun i => 64 * i)

/-- Controller that holds an address: tile × 64 + channel. -/
def mcOf (s : State) (dpa : Nat) : Nat := cwTile (cwOf s dpa) * 64 + cwChan (cwOf s dpa)

/-- Write +0 to every codeword of the staging buffer that no contribution touched (R444 action 1). -/
def winZero (w : Nat) (s : State) : State :=
  let x := getWin s w
  forAll (lineOffsets (winBound x)) (fun a o =>
    let d := winLand x + o
    if mapGet false x.touched (d / 64) then a else pkgWrite 1 0 d (List.replicate 64 0) false a) s

/-- Fold one codeword of a completed shard into the base (R443, R446). -/
def foldLine (x : Window) (publish : Nat) (s : State) (o : Nat) : State :=
  let (sh, s1) := pkgReadP 1 0 (winLand x + o) 64 s
  if publish == 2 then
    let (old, s2) := pkgReadP 1 0 (winBase x + o) 64 s1
    let w := 8 * tgtBytes (winTarget x)
    let vals := (codesOf w (512 / w) (bytesOf sh)).map (fun c => fp32Code (decodeElem (winTarget x) c))
    let bs := adderLine (winTarget x) 0 vals (bytesOf old)
    pkgWrite 1 0 (winBase x + o) bs (anyBad sh || anyBad old) s2
  else pkgWrite 1 0 (winBase x + o) (bytesOf sh) (anyBad sh) s1

/-- Fold a whole shard. Requests made after it are held until the fold has passed their channel (R446). -/
def winFold (w : Nat) (s : State) : State :=
  let x := getWin s w
  let p := (x.params.map (·.publish)).getD 0
  let s1 := forAll (lineOffsets (winBound x)) (foldLine x p) s
  let mcs := ((lineOffsets (winBound x)).map (fun o => mcOf s (winBase x + o))).eraseDups
  modWin s1 w (fun y => { y with folding := !mcs.isEmpty, foldWait := mcs })

/-- Is a request to this address held by a fold that has not passed its channel? -/
def foldHolds (s : State) (dpa : Nat) : Bool :=
  s.fabric.windows.any (fun kv => kv.2.folding && kv.2.foldWait.contains (mcOf s dpa)
    && decide (winBase kv.2 ≤ dpa) && decide (dpa < winBase kv.2 + winBound kv.2))

/-- Is a request to any codeword of a run of bytes held by a fold? -/
def foldHeld (s : State) (dpa n : Nat) : Bool :=
  (List.range (cwSpan dpa n)).any (fun i => foldHolds s ((dpa / 64 + i) * 64))

/-! ### Completing an epoch (R422, R423, R444) -/

/-- A slot window's granules are marked FULL, unless a poisoned packet arrived in the epoch (R419, R423). -/
def winMark (w : Nat) (s : State) : State :=
  let x := getWin s w
  match x.params with
  | none => s
  | some p =>
    let s1 := forAll x.claimed (fun a g =>
      let a1 := if x.poisoned then a else setTag p.tile g (tagFull p.consumers) a
      unclaimOut (ownerWin w) p.tile g a1) s
    modWin s1 w (fun y => { y with claimed := [] })

/-- The bytes of a completed shard, read for its counts. -/
def shardBytes (x : Window) (s : State) : List Byte × State :=
  (lineOffsets (winBound x)).foldl (fun (a : List Byte × State) o =>
    let (r, s1) := readCw 1 0 (winLand x + o) a.2
    (a.1 ++ r.1, s1)) ([], s)

/-- A staged shard is whole: untouched codewords, counts, publication. -/
def winPublish (w : Nat) (s : State) : State :=
  let s1 := winZero w s
  let x := getWin s1 w
  let (all, u) := shardBytes x s1
  let s2 := addCounts w { nan := countElems (winTarget x) isNan all, inf := countElems (winTarget x) isInfinite all } u
  let publish := (x.params.map (·.publish)).getD 0
  if publish == 0 then s2
  else if x.stepBound then modWin s2 w (fun y => { y with shardDone := true })
  else winFold w s2

/-- An epoch completes: what its kind requires, then its fence, then the next epoch. -/
def winComplete (w : Nat) (s : State) : State :=
  let x := getWin s w
  match x.params with
  | none => s
  | some p =>
    let s1 := if p.kind == 0 then winMark w s else if p.staging.isSome then winPublish w s else s
    let s2 := evHub 0x9A 0 1 (addCounts w { epochs := 1 } s1)
    let s3 := match p.fence with
      | some c => fenceLocal c 1 s2
      | none => s2
    winBegin w (modWin s3 w (fun y => { y with k := y.k + 1 }))

/-- Complete the epoch once its expected count of `LAST` packets has been applied. -/
def winCheck (w : Nat) (s : State) : State :=
  let x := getWin s w
  match x.params with
  | some p => if p.expected != 0 && p.expected ≤ x.lasts then winComplete w s else s
  | none => s

/-! ### The adders (R439) -/

/-- Every accumulate still queued. -/
def allAccums (s : State) : List Accum := s.fabric.accums.flatMap (·.2)

/-- Does the stream still have a queued accumulate numbered at most `n`? -/
def streamBusy (s : State) (stream n : Nat) : Bool :=
  (allAccums s).any (fun a => a.stream == stream && decide (a.seq ≤ n))

/-- Count the `LAST` packets of a window that have now been applied, and complete its epoch if they suffice. -/
def settleLasts (w : Nat) (s : State) : State :=
  let x := getWin s w
  let gone := x.lastsWait.filter (fun l => !streamBusy s l.1 l.2)
  if gone.isEmpty then s
  else winCheck w (modWin s w (fun y => { y with
    lasts := y.lasts + gone.length
    lastsWait := y.lastsWait.filter (fun l => streamBusy s l.1 l.2) }))

/-- A local contribution is complete once none of it is queued. -/
def settleLocal (stream : Nat) (s : State) : State :=
  if stream % 2 == 1 && !(allAccums s).any (fun a => a.stream == stream) then settlePacket (stream / 2) 0 s else s

/-- Add one queued accumulate to its codeword. -/
def adderApply (a : Accum) (s : State) : State :=
  let dpa := a.addr / 64 * 64
  let c := cwOf s dpa
  let x := getWin s a.window
  let fresh := a.isWindow && (winStaging x).isSome && !mapGet false x.touched (dpa / 64)
  let s1 := cacheEvict c (noteTouch dpa true s)
  let (old, s2) := if fresh then ((List.replicate 64 (0 : Byte), false), s1)
    else
      let (p, b) := dramRead 1 c dpa s1
      ((memRead b.pkg.bytes (c * 64) 64, p), b)
  let s3 := pkgBytes (c * 64) (adderLine a.tgtFmt (a.addr % 64) a.vals old.1) s2
  let s4 := dramWrite 1 c (pkgPoison c (old.2 || a.poison) s3)
  let s5 := evCount (cwTile c) 0x3E (cwChan c) 0 1 (modMc s4 (cwTile c) (cwChan c) (fun m => { m with
    maceDone := m.maceDone + 1 }))
  if fresh then modWin s5 a.window (fun y => { y with touched := mapSet false y.touched (dpa / 64) true }) else s5

/-- Take an accumulate out of its controller's queue. -/
def dropAccum (mc : Nat) (a : Accum) (s : State) : State :=
  { s with fabric := { s.fabric with accums := mapMod [] s.fabric.accums mc (fun l => l.erase a) } }

/-- Apply one accumulate, and what follows once its packet is whole. -/
def adderServe (mc : Nat) (a : Accum) (s : State) : State :=
  let s1 := dropAccum mc a (adderApply a s)
  settleLocal a.stream (if a.isWindow then settleLasts a.window s1 else s1)

/-- Apply every queued accumulate of a stream, in order, but for those that a fold holds back: a later packet of its channel
takes effect only after them (R412; DESIGN CHOICE: the adders serve them then, one of the orders of R441). -/
def drainStream (stream : Nat) (s : State) : State :=
  (s.fabric.accums.flatMap (fun kv => (kv.2.filter (fun a => a.stream == stream && !foldHolds s a.addr)).map (fun a => (kv.1, a)))).foldl
    (fun b x => adderServe x.1 x.2 b) s

/-- Queue a packet's contributions, codeword by codeword: `vals` are FP32 codes from byte address `addr` up. -/
def queueVals (stream seq window : Nat) (isWin : Bool) (fmt addr : Nat) (vals : List Nat) (poison : Bool) (s : State) :
    State :=
  let n := tgtBytes fmt
  let first := (64 - addr % 64) / n
  let parts := (if first = 0 then [] else [vals.take first]) ++ chunk (64 / n) (vals.drop first)
  ((parts.filter (fun p => !p.isEmpty)).foldl (fun (b : Nat × State) p =>
    let mc := mcOf b.2 b.1
    let a : Accum := ⟨stream, seq, window, isWin, b.1, fmt, p, poison, (getTile b.2 (mc / 64)).timeNs, mc / 64⟩
    (b.1 + n * p.length, { b.2 with fabric := { b.2.fabric with
      accums := mapMod [] b.2.fabric.accums mc (fun l => l ++ [a]) } })) (addr, s)).2

/-! ### Contributions (R434, R437) -/

/-- FP32 codes of a contribution's elements. -/
def contribVals (fmt : Nat) (blk16 : Bool) (payload : List Byte) : List Nat :=
  if fmt == 3 || fmt == 4 then
    let blk := if blk16 then 16 else 32
    let n := payload.length * blk / (blk + 1)
    let scs := (payload.drop n).map BitVec.toNat
    (codesOf 8 n payload).zipIdx.map (fun x => fp32Code (toFp32 (decodeScaled fmt x.1 (scs.getD (x.2 / blk) 0))))
  else
    let w := fmtBits fmt
    (codesOf w (payload.length * 8 / w) payload).map (fun c => fp32Code (decodeElem fmt c))

/-- Does the target format accept the contribution format (R434)? -/
def pairOk (tgt fmt : Nat) : Bool :=
  if tgt == 1 then fmt == 1 else fmt == 0 || fmt == 1 || fmt == 3 || fmt == 4

/-- Target bytes that a contribution covers. -/
def contribSpan (tgt fmt : Nat) (blk16 : Bool) (payload : List Byte) : Nat :=
  tgtBytes tgt * (contribVals fmt blk16 payload).length

/-- How a stamp stands to the target's run and epoch (R437). -/
inductive StampCase where
  | applied
  | busy
  | stale
  | discarded
deriving DecidableEq, Repr

/-- Run tags that follow a window's current one: the next rerun of the step, or the next step's first run. -/
def nextTags (s : State) (x : Window) : List Nat :=
  if !x.stepBound then []
  else match s.cond.lastRun with
    | some (st, rr) => [16 * (st % 16) + (rr + 1) % 16, 16 * ((st + 1) % 16)]
    | none => []

def stampCase (s : State) (x : Window) (tag ridx : Nat) : StampCase :=
  if tag == x.runTag then
    (if ridx == x.k % 256 then .applied
     else if (ridx + 256 - x.k % 256) % 256 ≤ 127 then .busy
     else .stale)
  else if (nextTags s x).contains tag then .busy
  else .discarded

/-- The run tag that a contribution's counts as at a window (R437): 0 at one that is not step-bound (log entry 123). -/
def tagAt (x : Window) (tag : Nat) : Nat := if x.stepBound then tag else 0

/-- Refusal reasons (R427). -/
def rNotOpen : Nat := 1
def rStale : Nat := 2
def rPeer : Nat := 3
def rOp : Nat := 4
def rBound : Nat := 5
def rFormat : Nat := 6
def rNotMember : Nat := 7
def rFence : Nat := 8
def rClosing : Nat := 9
def rBusy : Nat := 10

/-- The first reason that a condition list gives, 0 for none. -/
def firstReason : List (Bool × Nat) → Nat
  | [] => 0
  | (b, r) :: l => if b then r else firstReason l

/-- Has a window epochs with stamps to check? -/
def stamped (x : Window) : Bool := hasEpochs x && (winStaging x).isSome

/-- A single-epoch window: step-bound with RS_REPLACE or RS_ADD (R445). -/
def oneEpoch (x : Window) : Bool := x.stepBound && (winStaging x).isSome && (x.params.map (·.publish)).getD 0 != 0

/-- Reason to refuse an accumulate of `span` target bytes, 0 for none; `peerOk` says that the source is in the peer
set, or is the module itself. -/
def accumReason (s : State) (x : Window) (peerOk : Bool) (stamp offset span fmt tag ridx : Nat) : Nat :=
  match x.params with
  | none => rNotOpen
  | some p =>
    firstReason [
      (!x.isOpen || stamp == 0, rNotOpen),
      (stamp != x.epoch || (stamped x && stampCase s x tag ridx == .stale && !(oneEpoch x && ridx != 0)), rStale),
      (!peerOk, rPeer),
      (!bit p.ops 1 || (oneEpoch x && tag == x.runTag && ridx != 0), rOp),
      (decide (p.bound < offset + span), rBound),
      (!pairOk p.targetFmt fmt, rFormat),
      (x.closing, rClosing),
      ((stamped x && stampCase s x tag ridx == .busy) || (x.folding && !x.stepBound), rBusy)]

/-! ### Commit (R446) -/

/-- A commit at one step-bound window. -/
def winCommit (w : Nat) (s : State) : State :=
  let x := getWin s w
  if !(x.isOpen && oneEpoch x) then s
  else if x.shardDone then modWin (winFold w s) w (fun y => { y with shardDone := false })
  else winDiscard w (esWindow (addCounts w { incomplete := 1 } s))

/-- Epochs that a commit now would find incomplete. -/
def lateCount (s : State) : Nat :=
  s.fabric.windows.countP (fun kv => kv.2.isOpen && oneEpoch kv.2 && !kv.2.shardDone)

def windowsCommit (s : State) : State := forAll (s.fabric.windows.map (·.1)) (fun a w => winCommit w a) s

/-- An abort: every slot window and every step-bound window with staging discards the epoch in progress (R424, R446); what a
window without staging took in stays (R447). -/
def windowsAbort (s : State) : State :=
  forAll (s.fabric.windows.map (·.1)) (fun a w =>
    let x := getWin a w
    if x.isOpen && ((x.stepBound && (winStaging x).isSome) || (x.params.map (·.kind)).getD 1 == 0) then winDiscard w a else a) s

end Sys2Proof.Machine
end

