-- ==== Sys2Proof/Machine/ConductorOps.lean ====
section
/-!
DEFINITION. The step conductor: the step table and its updates, forming, commit and abort, at the manager and at each
member (spec/04_scheduling.md R109 to R136, R634; spec/09_fennel.md R261 to R270; R473, R476, R547).
-/
namespace Sys2Proof.Machine

/-! ### Capacities (R110, R267) -/

def limitsOf (s : State) : Option StepSetParams := s.stepSet.map (·.params)

/-- What the manager knows of another member's registration. The spec names no message that carries it: each time the
manager asks, a free value says whether the member has registered the same limits, and its capacity. -/
def learnMember (s : State) (m : Nat) : State :=
  if m == ownId s || mapGet 0 s.cond.memberLimits m != 0 then s
  else
    let (v, s1) := takeFree 23 s
    { s1 with cond := { s1.cond with memberLimits := mapSet 0 s1.cond.memberLimits m v } }

def learnMembers (s : State) : State :=
  match s.job with
  | some j => forAll j.members learnMember s
  | none => s

/-- Have all members registered? -/
def allRegistered (s : State) : Bool :=
  match s.job with
  | some j => j.members.all (fun m => mapGet 0 s.cond.memberLimits m != 0)
  | none => false

/-- The job capacity in blocks: the smallest capacity of the members known. -/
def jobCapacity (s : State) : Nat :=
  match s.cond.memberLimits.map (fun kv => kv.2 - 1) with
  | [] => 0
  | x :: xs => xs.foldl min x

def poolMaxLen (s : State) : Nat := (s.fennel.pool.map (·.maxLen)).getD 0

/-! ### The step table (R114 to R116, R266, R268) -/

/-- Blocks that a sequence reserves. -/
def seqBlocks (e : SeqEntry) : Nat := ceilDiv e.limit 32 + e.extra

/-- UPDATE status codes (R476). -/
def upAccepted : Nat := 0
def upNotManager : Nat := 1
def upNotFree : Nat := 2
def upPrompt : Nat := 3
def upState : Nat := 4
def upLimit : Nat := 5
def upFork : Nat := 6

/-- Are step updates taken on this module (R111)? -/
def takesUpdates (s : State) : Bool := isManager s && s.stepSet.isSome

def isLive (e : SeqEntry) : Bool := e.state = .prefill || e.state = .decode

/-- Fields of a SEQ_NEW descriptor (R470). -/
structure NewSeq where
  slot : Nat
  hostId : Nat
  addr : Nat
  len : Nat
  sample : Nat
  limit : Nat
  fork : Bool
  parent : Nat
  prefixLen : Nat
  ring : Nat

/-- The first reason to refuse a new sequence, or 0 (in the order of the status codes; DESIGN CHOICE). -/
def newSeqStatus (n : NewSeq) (s : State) : Nat :=
  let p := getSeq s n.parent
  let lim := if n.limit = 0 then poolMaxLen s else n.limit
  if !takesUpdates s then upNotManager
  else if (getSeq s n.slot).state != .free then upNotFree
  else if n.len = 0 || 4194304 < n.len + (if n.fork then n.prefixLen else 0) then upPrompt
  else if poolMaxLen s < lim || jobCapacity s - 1 < ceilDiv lim 32 then upLimit
  else if n.fork && !(isLive p && p.admitted && decide (1 ≤ n.prefixLen) && decide (n.prefixLen ≤ p.committed)) then upFork
  else upAccepted

def addNotice (n : PageNotice) (s : State) : State :=
  { s with cond := { s.cond with notices := s.cond.notices ++ [n] } }

/-- The draft count that a sequence's sampling parameters ask for, 0 to 16. R114 keeps it; R313 gives the parameters no field
for it and no rule uses it: an open value. -/
def draftsAsked (sample order : Nat) : Nat := min 16 (Config.draftsAsked sample order)

/-- Take a new sequence into the table. -/
def newSeqApply (n : NewSeq) (s : State) : State :=
  let lim := if n.limit = 0 then poolMaxLen s else n.limit
  let e : SeqEntry :=
    { state := .prefill, hostId := n.hostId, committed := if n.fork then n.prefixLen else 0, remaining := n.len,
      promptAddr := n.addr, sample := n.sample, asked := draftsAsked n.sample s.cond.nextOrder, limit := lim, order := s.cond.nextOrder, forkWaits := n.fork,
      cq := (getRing s n.ring).cq, ring := n.ring }
  let s1 := modSeq s n.slot (fun _ => e)
  let s2 := { s1 with cond := { s1.cond with nextOrder := s1.cond.nextOrder + 1 } }
  if n.fork then
    addNotice ⟨2, n.prefixLen, n.slot, n.parent⟩
      (modSeq s2 n.parent (fun x => { x with extra := x.extra + (if n.prefixLen % 32 = 0 then 0 else 1) }))
  else s2

/-- A new-sequence update: its status, and the table after it. -/
def newSeq (n : NewSeq) (s0 : State) : Nat × State :=
  let s := learnMembers s0
  let st := newSeqStatus n s
  if st = upAccepted then (st, newSeqApply n s) else (st, s)

/-- Pass a sequence to ENDING with its record's status; its pages are dropped at a later commit (R29, R116). -/
def endSeq (slot status : Nat) (s : State) : State :=
  addNotice ⟨1, 0, slot, 0⟩ (modSeq s slot (fun e => { e with state := .ending, endStatus := status }))

def finishSeq (slot : Nat) (s : State) : Nat × State :=
  if !takesUpdates s then (upNotManager, s)
  else if isLive (getSeq s slot) then (upAccepted, endSeq slot 1 s)
  else (upAccepted, s)

def sampleSeq (slot sample : Nat) (s : State) : Nat × State :=
  if !takesUpdates s then (upNotManager, s)
  else if isLive (getSeq s slot) then (upAccepted, modSeq s slot (fun e => { e with sample := sample, asked := draftsAsked sample e.order }))
  else (upState, s)

/-! ### Admission of sequences (R268, R270) -/

/-- Insert by an order. -/
def insertBy {α : Type} (lt : α → α → Bool) (x : α) : List α → List α
  | [] => [x]
  | y :: l => if lt x y then x :: y :: l else y :: insertBy lt x l

def sortBy {α : Type} (lt : α → α → Bool) (l : List α) : List α := l.foldr (insertBy lt) []

abbrev Seqs := List (Nat × SeqEntry)

/-- PREFILL entries in the order in which their updates were read. -/
def prefills (s : State) : Seqs :=
  sortBy (fun a b => decide (a.2.order < b.2.order)) (s.cond.seqs.filter (fun x => x.2.state = .prefill))

/-- Blocks counted against the capacity: those of admitted sequences, and the reserve block. -/
def blocksUsed (s : State) : Nat := s.cond.seqs.foldl (fun a x => if x.2.admitted then a + seqBlocks x.2 else a) 1

/-- Admit waiting entries in order, until one does not fit. -/
def admitFrom : Seqs → State → State
  | [], s => s
  | (q, e) :: l, s =>
    if blocksUsed s + seqBlocks e ≤ jobCapacity s then
      admitFrom l (modSeq s q (fun x => { x with admitted := true, reserve := false }))
    else s

/-- Live entries that wait for their reservation, in the order in which their updates were read. -/
def waiting (s : State) : Seqs :=
  sortBy (fun a b => decide (a.2.order < b.2.order)) (s.cond.seqs.filter (fun x => isLive x.2 && !x.2.admitted))

def admitSeqs (s : State) : State := admitFrom (waiting s) s

/-! ### Forming (R118, R119, R269, R270) -/

/-- One placement: slot, entry, drafts placed, and prompt tokens placed (0 for DECODE entries). -/
structure SeqPlace where
  slot : Nat
  entry : SeqEntry
  drafts : Nat
  chunk : Nat

/-- DECODE entries that are admitted, the oldest last full step first. One that the reserve block brought to DECODE keeps
its one block and waits (R270). -/
def decodes (s : State) : Seqs :=
  sortBy (fun a b => decide (a.2.lastFull < b.2.lastFull) || (a.2.lastFull == b.2.lastFull && decide (a.1 < b.1)))
    (s.cond.seqs.filter (fun x => x.2.state = .decode && x.2.admitted))

/-- Prompt tokens that an entry may still place. -/
def chunkRoom (e : SeqEntry) : Nat := min e.remaining (e.limit - e.committed)

/-- Drafts that an entry may use besides the budget (R269). -/
def draftRoom (p : StepSetParams) (e : SeqEntry) : Nat := min (min e.drafts.length p.drafts) (e.limit - e.committed - 1)

def giveDrafts (p : StepSetParams) (left : Nat) : Seqs → List SeqPlace × Nat
  | [] => ([], left)
  | (q, e) :: l =>
    let k := min (draftRoom p e) left
    let r := giveDrafts p (left - k) l
    (⟨q, e, k, 0⟩ :: r.1, r.2)

def giveChunks (left : Nat) : Seqs → List SeqPlace
  | [] => []
  | (q, e) :: l =>
    let n := min (chunkRoom e) left
    if n = 0 then [] else ⟨q, e, 0, n⟩ :: giveChunks (left - n) l

/-- The four stages of R118. -/
def stages (p : StepSetParams) (s : State) : List SeqPlace :=
  let dec := (decodes s).take (min p.tokenBudget p.seqsPerStep)
  let b1 := p.tokenBudget - dec.length
  let pre := ((prefills s).filter (fun x => x.2.admitted && !x.2.forkWaits && chunkRoom x.2 != 0)).take
    (p.seqsPerStep - dec.length)
  let want := (pre.map (fun x => chunkRoom x.2)).sum
  let t2 := min (min p.reserve b1) want
  let d := giveDrafts p (b1 - t2) dec
  d.1 ++ giveChunks (t2 + min d.2 (want - t2)) pre

/-- The reserve block's chunk (R270): the oldest waiting prompt, up to the end of its first block, while ENDING sequences
await their drop and no other prompt holds the block. -/
def reserveChunk (p : StepSetParams) (s : State) : List SeqPlace :=
  if s.cond.seqs.any (fun x => x.2.state = .ending) && !s.cond.seqs.any (fun x => x.2.reserve) then
    match (prefills s).find? (fun x => !x.2.admitted && !x.2.forkWaits) with
    | some (q, e) =>
      let n := min (min (chunkRoom e) (32 - e.committed % 32)) p.tokenBudget
      if n = 0 then [] else [⟨q, e, 0, n⟩]
    | none => []
  else []

/-- A placement's record; the token offset comes with the list. -/
def placeRec (p : PoolParams) (off : Nat) (x : SeqPlace) : SeqRec :=
  { slot := x.slot
    kind := if x.chunk != 0 then 0 else if x.drafts = 0 then 1 else 2
    lastChunk := x.chunk != 0 && x.chunk == x.entry.remaining
    drafts := x.drafts
    start := x.entry.committed
    new := if x.chunk != 0 then x.chunk else 1 + x.drafts
    sample := x.entry.sample
    tokOff := off
    pageList := p.ptBase + x.slot * p.ptStride
    hostId := x.entry.hostId }

def placeRecs (p : PoolParams) (off : Nat) : List SeqPlace → List SeqRec
  | [] => []
  | x :: l => placeRec p off x :: placeRecs p (off + (placeRec p off x).new) l

/-- Did a placement get its full share (R114)? -/
def fullShare (p : StepSetParams) (x : SeqPlace) : Bool := x.chunk != 0 || x.drafts == draftRoom p x.entry

/-- Has every ring room for its records beside those that wait, and for a job-fault record (R472)? -/
def ringsHaveRoom (s : State) (recs : List SeqRec) : Bool :=
  let cqs := tokenRings s recs
  cqs.eraseDups.all (fun c =>
    let x := getCq s c
    x.state != .active || decide ((cqs.filter (· == c)).length + x.waiting.length
      + (if x.writing.isSome then 1 else 0) < cqFree x))

/-- Does a step task of this module run the backward pass (R120; DEDUCED)? -/
def runsBackward (s : State) : Bool :=
  tileList.any (fun t => (getTile s t).tasks.any (fun kv =>
    isStepTask kv.2 && kv.2.ops.any (fun o => opClass o == 2 && opCode o == 2)))

/-- Lines of prompt tokens that a placement reads. -/
def promptLines (x : SeqPlace) : List Nat :=
  if x.chunk = 0 then [] else
    let a := x.entry.promptAddr / 64
    (List.range ((x.entry.promptAddr + 4 * x.chunk - 1) / 64 - a + 1)).map (fun i => 64 * (a + i))

/-- Ask for one line of a prompt. -/
def askPrompt (slot : Nat) (s : State) (line : Nat) : State :=
  let id := s.host.nextD2h
  let s1 := d2hSend d2hRdCurr line [] (.prompt slot) s
  { s1 with cond := { s1.cond with prompts := s1.cond.prompts ++ [⟨slot, id, line, none⟩] } }

/-- May the conductor form a step now (R110, R118, R135, R392, R544, R550)? -/
def mayForm (s : State) : Bool :=
  s.life.state = .claimed && isManager s && s.stepSet.isSome && s.cond.current.isNone && s.cond.forming.isNone
    && !s.cond.held && !s.cond.stopped && s.cond.downMembers.isEmpty && allRegistered s

/-- Begin a step with these placements: its notices are fixed, and its prompt tokens are asked for. -/
def beginForm (p : StepSetParams) (pool : PoolParams) (xs : List SeqPlace) (s : State) : State :=
  let recs := placeRecs pool 0 xs
  if !ringsHaveRoom s recs then s
  else
    let r : RetStep :=
      { step := s.cond.nextStep, rerunCount := 0, recs := recs, toks := [], notices := s.cond.notices,
        backward := runsBackward s, full := (xs.filter (fullShare p)).map (·.slot) }
    let s1 := { s with cond := { s.cond with forming := some r, prompts := [], notices := [] } }
    let s2 := forAll xs (fun a x => if x.chunk != 0 && !x.entry.admitted
      then modSeq a x.slot (fun e => { e with reserve := true }) else a) s1
    forAll xs (fun a x => forAll (promptLines x) (askPrompt x.slot) a) s2

/-! ### Sending a run (R30, R120, R122) -/

/-- The header of a step's run. -/
def headerOf (p : StepSetParams) (r : RetStep) : StepHeader :=
  { step := r.step, job := p.job, rerun := r.rerunCount != 0, backward := r.backward, rerunCount := r.rerunCount,
    tokenCount := (r.recs.map (·.new)).sum, tokenBudget := p.tokenBudget
    prefillTokens := ((r.recs.filter (fun x => x.kind == 0)).map (·.new)).sum
    hdrBytes := 256 + 32 * r.recs.length
    lastCommitted := if r.step = 0 then 2 ^ 64 - 1 else r.step - 1
    recs := r.recs, seqCount := r.recs.length, rsvZero := true }

/-- Send header and token list to every member. -/
def sendRun (r : RetStep) (rerun : Bool) (s : State) : State :=
  match s.job, limitsOf s with
  | some j, some p =>
    let h := { headerOf p r with rerun := rerun }
    forAll j.members (fun a m => stepSendOut m 0x02 (.tokenList m r.toks) (stepSendOut m 0x01 (.stepHeader m h) a)) s
  | _, _ => s

/-- Bytes of a prompt line that has come in. -/
def promptByte (s : State) (slot a : Nat) : Byte :=
  match s.cond.prompts.find? (fun x => x.slot == slot && x.line == a / 64 * 64) with
  | some x => (x.data.getD []).getD (a % 64) 0
  | none => 0

/-- A record's tokens (R30). -/
def recTokens (s : State) (r : SeqRec) : List Nat :=
  let e := getSeq s r.slot
  if r.kind = 0 then
    (List.range r.new).map (fun i => ofBytes ((List.range 4).map (fun j => promptByte s r.slot (e.promptAddr + 4 * i + j))))
  else e.lastToken :: e.drafts.take r.drafts

/-- Every prompt token is in: the step is sent. -/
def finishForm (s : State) : State :=
  match s.cond.forming with
  | some r =>
    if s.cond.prompts.any (fun x => x.data.isNone) then s
    else
      let r1 := { r with toks := r.recs.flatMap (recTokens s) }
      let s1 := { s with cond := { s.cond with
        forming := none, prompts := [], current := some r1, results := [], stepStatus := {} } }
      let s2 := evHub 0xA4 0 r1.toks.length (evHub 0xA3 0 1 s1)
      let s3 := evHub 0xA5 0 (((r.recs.filter (fun x => x.kind == 0)).map (·.new)).sum) s2
      sendRun r1 false s3
  | none => s

/-- Form a step if one is called for. -/
def formStep (s0 : State) : State :=
  let s := learnMembers s0
  if !mayForm s then s
  else match limitsOf s, s.fennel.pool with
    | some p, some pool =>
      let s1 := admitSeqs s
      let xs := stages p s1
      let ys := if xs.isEmpty then reserveChunk p s1 else xs
      if ys.isEmpty && s1.cond.notices.isEmpty then s1 else finishForm (beginForm p pool ys s1)
    | _, _ => s

/-- A line of prompt tokens arrives. -/
def promptData (id : Nat) (data : List Byte) (s : State) : State :=
  finishForm { s with cond := { s.cond with
    prompts := s.cond.prompts.map (fun x => if x.id == id then { x with data := some data } else x) } }

/-- A prompt read has failed (R117): the forming ends without effect, its sequence ends, and a step is formed without it. -/
def promptFailed (id : Nat) (s : State) : State :=
  match s.cond.forming, s.cond.prompts.find? (fun x => x.id == id) with
  | some r, some x =>
    let s1 := { s with cond := { s.cond with
      forming := none, prompts := [], notices := r.notices ++ s.cond.notices
      lastFailed := s.cond.lastFailed ++ [x.slot] } }
    let s2 := r.recs.foldl (fun a q => if (getSeq a q.slot).admitted then a
      else modSeq a q.slot (fun e => { e with reserve := false })) s1
    formStep (if isLive (getSeq s2 x.slot) then endSeq x.slot 4 s2
      else modSeq s2 x.slot (fun e => { e with endStatus := 4 }))
  | _, _ => s

/-! ### Commit at the manager (R129 to R131, R634) -/

/-- The token report that the manager holds for a slot: the last that has tokens, with the last drafts of each index; what
was replaced no longer counts (R315, R321). -/
def reportFor (s : State) (slot : Nat) : TokenReport :=
  let t : TokenReport := (s.cond.results.filter (fun r => r.2.slot == slot)).foldl (fun a r =>
    { slot := slot
      tokens := if r.2.tokens.isEmpty then a.tokens else r.2.tokens
      offered := if r.2.tokens.isEmpty then a.offered else r.2.offered
      accepted := if r.2.tokens.isEmpty then a.accepted else r.2.accepted
      drafts := r.2.drafts.foldl (fun l d => putDraft d l) a.drafts
      failed := false }) ⟨slot, [], 0, 0, [], false⟩
  { t with failed := reportFailed t }

/-- Does a record yield tokens (R131)? -/
def yields (r : SeqRec) : Bool := r.kind != 0 || r.lastChunk

/-- The table's entry after a record's commit. -/
def entryAfter (step : Nat) (full : Bool) (r : SeqRec) (t : TokenReport) (e : SeqEntry) : SeqEntry :=
  let n := if r.kind = 0 then r.new else 1 + t.accepted
  let e1 : SeqEntry := { e with
    committed := e.committed + n
    remaining := if r.kind = 0 then e.remaining - r.new else e.remaining
    promptAddr := if r.kind = 0 then e.promptAddr + 4 * r.new else e.promptAddr
    lastFull := if full then step else e.lastFull }
  if yields r then
    { e1 with
      lastToken := match t.tokens.getLast? with | some x => x.1 | none => e.lastToken
      drafts := (t.drafts.map (·.2)).take 16
      state := if e.state = .prefill then .decode else e.state }
  else e1

/-- Status with which a sequence ends at this commit, or 0 (R116, R269, R315, R634): a reported result without a token
ends any record's sequence. R634 ends a decode or speculative
record without a token report; a last prompt chunk without one goes on. -/
def endsWith (r : SeqRec) (t : TokenReport) (e : SeqEntry) : Nat :=
  if t.failed || (r.kind != 0 && t.tokens.isEmpty) then 3 else if e.limit ≤ e.committed then 2 else 0

/-- A last prompt chunk that gave no token leaves the token that the next record sends open: a free value. -/
def openToken (r : SeqRec) (t : TokenReport) (s : State) : State :=
  if r.kind = 0 && r.lastChunk && t.tokens.isEmpty then
    let (v, s1) := takeFree 32 s
    modSeq s1 r.slot (fun e => { e with lastToken := v })
  else s

/-- A TOKENS record (R473). -/
def tokensFields (step fault : Nat) (slot : Nat) (e : SeqEntry) (t : TokenReport) (st : EngStatus) : RecFields :=
  { kind := 0x10, ring := e.ring, fault := fault, tag := e.hostId, seqno := step, w0 := slot
    w1 := (if e.state = .ending then e.endStatus else 0) + 2 ^ 8 * t.tokens.length + 2 ^ 16 * t.offered + 2 ^ 24 * t.accepted
    w2 := e.committed, eng := st, hasMace := true, tokens := t.tokens }

/-- Queue a TOKENS record, and keep it for a core reset (R159). -/
def tokensRecord (slot step fault : Nat) (t : TokenReport) (s : State) : State :=
  let e := getSeq s slot
  let f := tokensFields step fault slot e t s.cond.stepStatus
  let s1 := queueRecord e.cq 0 f s
  { s1 with cond := { s1.cond with lastTokens := s1.cond.lastTokens ++ [(e.cq, recBytes f)] } }

/-- Commit one record of the step. A sequence that `SEQ_FINISH` has ended keeps its status 1 where a missing report or the limit
would end it too (DESIGN CHOICE, log entry 118: R476 gives the one, R634 and R269 the others). -/
def commitRec (r : RetStep) (s : State) (x : SeqRec) : State :=
  let t := reportFor s x.slot
  let s1 := openToken x t (modSeq s x.slot (entryAfter r.step (r.full.contains x.slot) x t))
  let e := getSeq s1 x.slot
  let c := endsWith x t e
  let s2 := if c != 0 && isLive e then endSeq x.slot c s1 else s1
  if yields x || c != 0 then tokensRecord x.slot r.step 0 (if yields x then t else ⟨x.slot, [], 0, 0, [], false⟩) s2 else s2

/-- Page notices as the table takes them at the commit: a release frees its entry, a fork lets its child enter a step. -/
def commitNotice (s : State) (n : PageNotice) : State :=
  if n.kind = 1 then modSeq s n.slot (fun e => if e.state = .ending then {} else e)
  else modSeq s n.slot (fun e => { e with forkWaits := false })

/-- Send one member its commit. -/
def sendCommit (step : Nat) (ns : List PageNotice) (s : State) (m : Nat) : State :=
  stepSendOut m 0x03 (.commit m step ns) s

/-- Is the step barrier's generation complete (R34, R151)? -/
def stepComplete (s : State) : Bool :=
  let b := getBarrier s 0
  b.configured && decide (b.members ≤ b.rootNow.length)

/-- Apply a commit in one action: once for each step. The manager releases its barrier itself, as it commits. -/
def commitIn (step : Nat) (ns : List PageNotice) (s : State) : State :=
  if step < s.cond.committed then s
  else
    let s1 := { s with cond := { s.cond with
      committed := step + 1, ownReports := [], lateEpochs := if isManager s then 0 else lateCount s } }
    let s2 := windowsCommit (fennelCommit step ns (evHub 0xA0 0 1 s1))
    if isManager s then s2 else releaseWaits (barReleased 0 (getBarrier s2 0).done false 0 s2)

/-- The manager commits its step: its own page maps and reductions with the lengths and the records, in one action (R31,
R130); `MSG_COMMIT` carries the commit to the other members. The records count the manager's own incomplete epochs, which it
finds now; another member finds its own after its result has gone, and its next result carries them (R448; DESIGN CHOICE, log
entry 122). -/
def commitStep (s : State) : State :=
  match s.job, s.cond.current with
  | some j, some r =>
    if isManager s && s.cond.abort.isNone && stepComplete s then
      let s1 := commitIn r.step r.notices { s with cond := { s.cond with
        stepStatus := engMerge s.cond.stepStatus { reIncomplete := lateCount s }
        nextStep := r.step + 1, aborts := 0, current := none, lastTokens := [], lastNotices := r.notices } }
      let s2 := forAll r.recs (commitRec r) (barReleased 0 (getBarrier s1 0).done false 0 s1)
      let s3 := forAll s.cond.lastFailed
        (fun a q => tokensRecord q r.step fTimeoutHost ⟨q, [], 0, 0, [], false⟩ a) s2
      let s4 := forAll r.notices commitNotice { s3 with cond := { s3.cond with lastFailed := [], results := [] } }
      releaseWaits (forAll j.members (sendCommit r.step r.notices) s4)
    else s
  | _, _ => s

/-! ### A member's side (R122, R130, R133) -/

/-- Receive a step message on a channel from its sender; none when the channel takes nothing. The manager's messages to
itself stay inside the hub (R112). -/
def stepRecv (src num : Nat) (s : State) : Option State :=
  let k := chanKey src num
  if src == ownId s then some s
  else if (getChan s k).state == .opened || (getChan s k).state == .closing then
    some (evCount 8 0x91 (getChan s k).port 0 1
      (modChan s k (fun c => { c with rxSeq := c.rxSeq + 1, rxUnacked := c.rxUnacked + 1 })))
  else none

/-- Is `src` the manager of this module's job? -/
def fromManager (s : State) (src : Nat) : Bool :=
  match s.job with
  | some j => j.manager == src
  | none => false

/-- Do the records follow R121 for the job limits? `off` is the offset of the next record's first token; a record's page list is
this member's own table for its slot (R121, R247). -/
def recsOk (p : StepSetParams) (pool : Option PoolParams) (off : Nat) (seen : List Nat) : List SeqRec → Bool
  | [] => true
  | r :: l =>
    decide (r.slot < 4096) && !seen.contains r.slot && decide (r.kind < 3) && (!r.lastChunk || r.kind == 0)
      && (if r.kind = 2 then decide (1 ≤ r.drafts) && decide (r.drafts ≤ 16) else r.drafts == 0)
      && (if r.kind = 0 then decide (1 ≤ r.new) && decide (r.new ≤ p.tokenBudget) else r.new == 1 + r.drafts)
      && decide (r.start < 4194304) && decide (r.start + r.new ≤ 4194304) && decide (r.sample < 4096) && r.tokOff == off
      && (match pool with | some q => r.pageList == q.ptBase + r.slot * q.ptStride | none => true)
      && recsOk p pool (off + r.new) (r.slot :: seen) l

/-- Does a header follow R120 and R121? -/
def headerOk (s : State) (h : StepHeader) : Bool :=
  match limitsOf s with
  | none => false
  | some p =>
    h.rsvZero && h.step == s.cond.committed && h.job == p.job && h.seqCount == h.recs.length
      && decide (h.recs.length ≤ p.seqsPerStep) && h.tokenCount == (h.recs.map (·.new)).sum
      && decide (h.tokenCount ≤ p.tokenBudget) && h.tokenBudget == p.tokenBudget
      && h.prefillTokens == ((h.recs.filter (fun x => x.kind == 0)).map (·.new)).sum
      && h.hdrBytes == 256 + 32 * h.recs.length && decide (h.rerunCount < 256) && (h.rerun || h.rerunCount == 0)
      && h.lastCommitted == (if h.step = 0 then 2 ^ 64 - 1 else h.step - 1) && recsOk p s.fennel.pool 0 [] h.recs

/-- A header arrives: it is written to the step buffer; a bad one binds nothing and faults the step (R122). -/
def headerIn (h : StepHeader) (s : State) : State :=
  match s.job, limitsOf s with
  | some j, some p =>
    let s1 := pkgWrite 1 0 p.buffer (headerBytes h) false s
    if headerOk s h then tryBind { s1 with cond := { s1.cond with hdrSeen := some h, toksSeen := none } }
    else
      stepSend j.manager 0x12 [h.step, fFormat, 0, 0]
        (esFault fFormat 0 { s1 with cond := { s1.cond with hdrSeen := none, toksSeen := none } })
  | _, _ => s

/-- A token list arrives. -/
def tokensIn (toks : List Nat) (s : State) : State :=
  match limitsOf s with
  | some p =>
    let s1 := pkgWrite 1 0 (p.buffer + tokenListAt p) (toks.flatMap (le 4)) false s
    tryBind { s1 with cond := { s1.cond with toksSeen := some toks } }
  | none => s

/-- Cancel the ops of every step task; the tasks are faulted with `ABORTED` and wait to be parked. -/
def cancelSteps (s : State) : State :=
  forAll tileList (fun a t => forAll (stepTasks a t) (fun b k =>
    let x := getTask b t k
    if x.phase = .parked then b
    else modTask (cancelOps t k b) t k (fun y => { y with
      phase := .faulted, fault := if y.fault = 0 then fAborted else y.fault, holdBy := none })) a) s

/-- Park every step task, whatever waited to be bound. -/
def parkSteps (s : State) : State :=
  forAll tileList (fun a t => forAll (stepTasks a t) (fun b k =>
    modTask b t k (fun y => { y with phase := .parked, holdBy := none, loops := [], rebind := false })) a) s

/-- Tiles on which a task's slot window lies: its own, and every tile that its ops name (R47). -/
def windowTiles (s : State) (tile : Nat) (x : Task) : List Nat :=
  (tile :: x.ops.flatMap (fun op =>
    if classInstances (opClass op) = 0 then []
    else ((List.range 4).filter (isSlotRef (opCfg s op) op)).map (fun i => refTile tile (opRef op i)))).eraseDups

/-- Granules with at least one line in the slot window of a step task, by tile. -/
def stepGranules (s : State) : List (Nat × Nat) :=
  (tileList.flatMap (fun t => (stepTasks s t).flatMap (fun k =>
    let x := getTask s t k
    let a := dBase x.desc / 64
    if dBound x.desc = 0 then [] else
      (windowTiles s t x).flatMap (fun w =>
        (List.range ((dBase x.desc + dBound x.desc - 1) / 64 - a + 1)).map (fun i => (w, a + i)))))).eraseDups

/-- Tags at a step abort (R83). -/
def clearStepTags (s : State) : State :=
  forAll (stepGranules s) (fun b g =>
    let x := getTag b g.1 g.2
    match tagState x with
    | .full => setTag g.1 g.2 tagEmpty b
    | .poisoned => if tagCount x != 0 then setTag g.1 g.2 tagEmpty b else b
    | _ => b) s

/-- Granules of HELD data that an error has poisoned and that lie in a step task's window (R84). -/
def lostHeld (s : State) : List (Nat × Nat) :=
  (stepGranules s).filter (fun g => tagState (getTag s g.1 g.2) = .poisoned && tagCount (getTag s g.1 g.2) == 0)

/-- The record of a transfer op as it stands in slot memory, with the list it declares (R334, R335). -/
def recordAt (s : State) (tile base : Nat) (op : OpWord) : Option ClRec :=
  if clHasRec op && opClass op == 5 then
    let m := (getSlot s (refTile tile (opRef op 1))).bytes
    let a := 64 * (base + refLine (opRef op 1))
    let n := min (2 ^ 20) (ofBytes (memRead m (a + 4) 4))
    some (clParse (memRead m a 64) ((chunk 4 (memRead m (a + 64) (4 * n))).map ofBytes))
  else none

/-- Granules that a residency task's ops write, on whatever tile, as its op list in package memory and its records in slot
memory stand. -/
def residencyOuts (s : State) (x : SetTask) : List (Nat × Nat) :=
  let d := BitVec.ofNat 1024 (ofBytes (bytesOf (pkgPeekP s x.addr 128)))
  let l := (List.range (dOpCount d)).map (fun i => BitVec.ofNat 256 (ofBytes (bytesOf (pkgPeekP s (dOpList d + 32 * i) 32))))
  let ops := if verOne (dVer d) then (translate s x.tile d l).getD [] else l
  granulesOf (ops.flatMap (fun op => outsOf (opCfg s op) x.tile (dBase d) op [] 0 (recordAt s x.tile (dBase d) op)))

/-- Submit a residency task again: it waits for admission (R84). -/
def resubmit (s : State) (x : SetTask) : State :=
  let s1 := modTile s x.tile (fun y => { y with queue := y.queue ++ [⟨x.addr, .residency⟩] })
  { s1 with cond := { s1.cond with residencyWait := s1.cond.residencyWait + 1 } }

/-- Every residency task that writes a lost granule runs again, the granules being set EMPTY first; what none of them writes is
reported once (R84, R618). -/
def resubmitAll (s : State) : State :=
  match limitsOf s with
  | some p =>
    let lost := lostHeld s
    let again := p.residency.filter (fun x => (residencyOuts s x).any lost.contains)
    let found := lost.filter (fun g => again.any (fun x => (residencyOuts s x).contains g))
    let rest := lost.filter (fun g => !found.contains g && !s.cond.lostSeen.contains g)
    let s1 := forAll again resubmit (forAll found (fun a g => setTag g.1 g.2 tagEmpty a) s)
    if rest.isEmpty then s1 else esRaise 6 { s1 with cond := { s1.cond with lostSeen := s1.cond.lostSeen ++ rest } }
  | none => s

/-- Set every registered step counter back to its step base (R133). -/
def restoreCounters (s : State) : State :=
  match limitsOf s with
  | some p => forAll p.counters (fun a c => fencePut c (stepBase a c) a) s
  | none => s

/-- Discard this module's arrivals at the generation of an aborted step (R133, R154): a worker fails the generation; at
the manager it has been failed. -/
def dropArrivals (code : Nat) (s : State) : State :=
  if isManager s then
    modBarrier s 0 (fun x => { x with cur := x.done, arrivals := 0, rootNow := x.rootNow.filter (· != ownId s) })
  else barReleased 0 (getBarrier s 0).done true code s

/-- A member begins to abort: ops are cancelled, and their packets settle. -/
def abortIn (step code : Nat) (s : State) : State :=
  match s.job with
  | none => s
  | some j =>
    if s.cond.abortedStep == some step then (if s.cond.doneOwed.isSome then s else stepSend j.manager 0x13 [step] s)
    else if step == s.cond.committed && s.cond.abortingStep.isNone then
      let s1 := cancelSteps s
      { s1 with cond := { s1.cond with abortingStep := some (step, code), hdrSeen := none, toksSeen := none } }
    else s

/-- Does a packet of a step task's op still wait for its acknowledgement? -/
def stepPackets (s : State) : Bool := s.fabric.chans.any (fun c => c.2.retained.any (fun r => r.step && r.owner != 0))

/-- Actions 2 to 6 of R133: what the step did here is undone. -/
def undoStep (code : Nat) (s : State) : State :=
  let s1 := windowsAbort (fennelAbort (clearStepTags (parkSteps s)))
  let s2 := if (liveRun s).isSome then restoreCounters s1 else s1
  let s3 := dropArrivals code s2
  resubmitAll { s3 with cond := { s3.cond with
    bound := none, abortingStep := none, ownReports := [], ownStatus := { reIncomplete := s3.cond.lateEpochs } } }

/-- Has everything that the abort made this member restore come to its end: its residency tasks, its reloads and its poisoned
HELD granules (R84, R134)? -/
def restored (s : State) : Bool := s.cond.residencyWait == 0 && !reloadWaits s && (lostHeld s).isEmpty

/-- `MSG_ABORT_DONE` goes out once the member has nothing left to restore: the manager hears of a worker's reloads and residency
tasks in no other way (R134; DEDUCED, log entry 33). -/
def payDone (s : State) : State :=
  match s.job, s.cond.doneOwed with
  | some j, some step => if restored s then stepSend j.manager 0x13 [step] { s with cond := { s.cond with doneOwed := none } } else s
  | _, _ => s

/-- The packets of the cancelled ops are settled: the abort ends here, and the manager hears of it. -/
def abortSettled (s : State) : State :=
  match s.cond.abortingStep with
  | some (step, code) =>
    if stepPackets s then s
    else
      let s1 := undoStep code (evHub 0xA1 0 1 s)
      payDone { s1 with cond := { s1.cond with abortedStep := some step, doneOwed := some step } }
  | none => s

/-- Before the rerun, a HELD granule that an error has poisoned since is restored too, and the member's report goes out
(R84). -/
def restoreHeld (s : State) : State :=
  if s.cond.abortedStep.isSome then payDone (if (lostHeld s).isEmpty then s else resubmitAll s) else s

/-! ### Rerun (R84, R134, R135) -/

/-- A member's fault aborts the step. Whether a `POISON` fault, or an `ABORTED` one that its scrubber caused, comes from a
weight block of that member, so that the abort does not count, no message says: it is a free value (R112, R135, R526). -/
def memberFault (code taskId : Nat) (s : State) : State :=
  let (b, s1) := takeFree 1 s
  mgrAbort code ((code == fPoison || code == fAborted) && b == 1) (esFault code taskId s1)

def mayRerun (s : State) (a : AbortState) : Bool :=
  isManager s && a.waitDone.isEmpty && restored s && !s.cond.held && !s.cond.stopped
    && s.cond.downMembers.isEmpty && s.life.state = .claimed

/-- The manager sends the rerun header. -/
def rerunStep (s : State) : State :=
  match s.cond.abort, s.cond.current with
  | some a, some r =>
    if mayRerun s a then
      let r1 := { r with rerunCount := (r.rerunCount + 1) % 256 }
      sendRun r1 true { s with cond := { s.cond with
        abort := none, current := some r1, results := [], stepStatus := {}, weightAbort := false } }
    else s
  | _, _ => s

/-- Does this module hold an uncommitted step of its job (R491)? One held by the abort limit or a failed reload does not
count (R135). -/
def uncommitted (s : State) : Bool :=
  !s.cond.held && !s.cond.stopped
    && (s.cond.current.isSome || s.cond.forming.isSome || (liveRun s).isSome || s.cond.abortingStep.isSome)

/-- Discard the uncommitted step without a rerun (R135, R553). -/
def discardStep (s : State) : State :=
  let s1 := cancelSteps s
  let s2 := if (liveRun s1).isSome || s1.cond.abortingStep.isSome then undoStep fAborted s1 else parkSteps s1
  { s2 with cond := { s2.cond with
    forming := none, prompts := [], current := none, abort := none, abortingStep := none, bound := none, results := []
    hdrSeen := none, toksSeen := none } }

end Sys2Proof.Machine
end

