-- ==== Sys2Proof/Machine/HostOps.lean ====
section
/-!
DEFINITION. The host link: ring watchers, work descriptors, host timeouts, the HDM window and IDE keys
(spec/17_host_link.md; R27, R115, R570).
-/
namespace Sys2Proof.Machine

/-! ### Watched lines and descriptors (R27, R458, R459, R469) -/

/-- Fetch a work ring's tail line, or a completion ring's head line. -/
def fetchTail (r : Nat) (s : State) : State := d2hSend d2hRdShared (getRing s r).tailAddr [] (.tailLine r) s
def fetchHead (c : Nat) (s : State) : State := d2hSend d2hRdShared (getCq s c).headAddr [] (.headLine c) s

/-- A snoop has removed a watched line: its watcher wakes and fetches the line again. -/
def watcherWake (head : Bool) (ring : Nat) (s : State) : State :=
  let count := fun (a : State) => { a with host := { a.host with wakes := a.host.wakes + 1 } }
  if head then
    (if (getCq s ring).state != .none && (getCq s ring).watched then
      fetchHead ring (modCq s ring (fun c => { c with watched := false }))
     else s)
  else if (getRing s ring).state != .none && (getRing s ring).watched then
    fetchTail ring (evHub 0xB6 ring 1 (count (modRing s ring (fun r => { r with watched := false }))))
  else s

/-- A new tail: one that decreases or leaves the limit puts the ring into ERROR; else the descriptors are asked for. -/
def newTail (ring n : Nat) (s : State) : State :=
  let r := getRing s ring
  let s1 := modRing s ring (fun x => { x with watched := true })
  if r.state != .active then s1
  else if n < r.tail then ringError ring 1 n s1
  else if r.prog + r.entries < n then ringError ring 2 n s1
  else askDescs (modRing s1 ring (fun x => { x with tail := n })) ring

def insertDesc (d : DescSlot) : List DescSlot → List DescSlot
  | [] => [d]
  | x :: xs => if d.index < x.index then d :: x :: xs else x :: insertDesc d xs

/-- Data of a D2H read. -/
def readData (id : Nat) (data : List Byte) (s : State) : State :=
  match d2hUse s id with
  | some (.tailLine r) => newTail r (ofBytes (data.take 8)) (d2hDone id s)
  | some (.headLine c) =>
    modCq (d2hDone id s) c (fun x => { x with watched := true, head := ofBytes (data.take 8) })
  | some (.descriptor r n) =>
    let s1 := d2hDone id s
    if (getRing s1 r).state == .active || (getRing s1 r).state == .destroying then
      modRing s1 r (fun x => { x with
        readCount := x.readCount + 1, slots := insertDesc ⟨n, data.take 64, false, false⟩ x.slots })
    else s1
  | some (.prompt _) => promptData id data (d2hDone id s)
  | _ => s

/-- Completion of a record line's write. -/
def writeDone (id : Nat) (s : State) : State :=
  match d2hUse s id with
  | some (.recordLines c) => recordLineDone c (d2hDone id s)
  | some (.recordLine0 c) => recordDone c (d2hDone id s)
  | _ => s

/-- A snoop that the host does not answer: the access faults its op (R462); an access that belongs to no op of this
module goes on, with the line taken as no longer held (DESIGN CHOICE). -/
def snoopTimeout (line tile entry : Nat) (s : State) : State :=
  let s1 := { s with host := { s.host with dirty := mapSet 0 s.host.dirty line 0 } }
  if tile < 8 then
    failOp tile entry fTimeoutHost { s1 with host := { s1.host with
      stalled := s1.host.stalled.filter (fun c => opOf c != (tile, entry)) } }
  else { s1 with host := { s1.host with filter := s1.host.filter.filter (· != line) } }

/-- The host timeout passes for a request (R117, R460, R462). -/
def hostTimeout (id : Nat) (s : State) : State :=
  match d2hUse s id with
  | none => s
  | some u =>
    let s1 := d2hDone id s
    match u with
    | .tailLine r => ringError r 3 (getRing s1 r).tail s1
    | .descriptor r _ => ringError r 3 (getRing s1 r).tail s1
    | .headLine c => cqError c s1
    | .recordLines c => cqError c s1
    | .recordLine0 c => cqError c s1
    | .prompt _ => promptFailed id s1
    | .snoop line tile entry => snoopTimeout line tile entry s1

/-! ### Work descriptors (R470) -/

/-- The next descriptor of a ring: the first not taken, if every one before it has been read. A ring being destroyed still
runs what it has read (R491). -/
def nextDesc (s : State) (ring : Nat) : Option DescSlot :=
  let r := getRing s ring
  match r.slots.zipIdx.find? (fun x => !x.1.taken) with
  | some (d, i) =>
    if (r.state == .active || r.state == .destroying) && ringsRead s && d.index == r.prog + i then some d else none
  | none => none

def takeDesc (ring index : Nat) (s : State) : State :=
  modRing s ring (fun r => { r with slots := r.slots.map (fun d => if d.index == index then { d with taken := true } else d) })

def wdF (d : DescSlot) (off n : Nat) : Nat := ofBytes ((d.bytes.drop off).take n)
def wdKind (d : DescSlot) : Nat := wdF d 0 1

/-- Are the bytes from `off` on, `n` of them, zero? -/
def wdZero (d : DescSlot) (off n : Nat) : Bool := wdF d off n == 0

/-- Does a descriptor follow R470 for its kind? A field that its kind does not use is zero; an address keeps its
alignment and lies in its address space (DEDUCED). -/
def wdOk (d : DescSlot) : Bool :=
  wdZero d 3 1 && wdZero d 34 2 && wdZero d 40 24 && decide (wdF d 20 2 < 4096) && decide (wdF d 22 2 < 4096)
    && match wdKind d with
    | 0x01 => wdZero d 1 1 && decide (wdF d 2 1 < 8) && wdF d 8 8 % 64 == 0 && decide (wdF d 8 8 < 2 ^ 39) && wdZero d 16 18
        && wdZero d 36 4
    | 0x10 => decide (wdF d 1 1 < 2) && wdZero d 2 1 && wdF d 8 8 % 4 == 0
        && (if wdF d 1 1 == 1 then decide (wdF d 32 2 < 4096) && decide (wdF d 36 4 < 2 ^ 22)
            else wdZero d 32 2 && wdZero d 36 4)
    | 0x11 => wdZero d 1 2 && wdZero d 8 12 && wdZero d 22 12 && wdZero d 36 4
    | 0x12 => wdZero d 1 2 && wdZero d 8 12 && wdZero d 24 10 && wdZero d 36 4
    | _ => false

/-- Retire a descriptor with a fault and no other effect: by a TASK record, or for a sequence kind an UPDATE record. The
`TASK_ID` of a task not read, and the status of an update not judged, are open values. -/
def faultDesc (ring fault : Nat) (d : DescSlot) (s : State) : State :=
  let seq := wdKind d == 0x10 || wdKind d == 0x11 || wdKind d == 0x12
  let (v, s1) := takeFree 32 s
  queueRecord (getRing s1 ring).cq d.index
    { kind := if seq then 0x02 else 0x01, ring := ring, fault := fault, tag := wdF d 4 4, seqno := d.index
      w0 := if seq then wdF d 20 2 % 4096 else v, w1 := if seq then v else 0, w2 := if seq then 0 else wdF d 2 1 % 8 }
    (takeDesc ring d.index s1)

/-- What a record's fault code says of work refused in NOT READY: the not-ready status of R489 (DEDUCED, log entry 89: R392 names
the status, and R475 has no fault code for it). -/
def notReadyCode : Nat := 0x0005

/-- Run the next descriptor of a ring, if it is of the kind that the command names. -/
def withDesc (ring : Nat) (want : DescSlot → Bool) (f : DescSlot → State → State) (s : State) : State :=
  match nextDesc s ring with
  | none => s
  | some d =>
    if !want d then s
    else if s.life.state == .failed then faultDesc ring fAborted d s
    else if s.life.state == .notReady then faultDesc ring notReadyCode d s
    else if !wdOk d then faultDesc ring fFormat d s
    else f d (takeDesc ring d.index s)

/-- Is a descriptor a TASK, or of a reserved kind? -/
def wantTask (d : DescSlot) : Bool := wdKind d != 0x10 && wdKind d != 0x11 && wdKind d != 0x12

/-- Submit a task to its tile. -/
def submitTask (ring : Nat) (d : DescSlot) (s : State) : State :=
  modTile s (wdF d 2 1) (fun x => { x with queue := x.queue ++ [⟨wdF d 8 8, .ring ring d.index⟩] })

def newSeqOf (ring : Nat) (d : DescSlot) : NewSeq :=
  { slot := wdF d 20 2, hostId := wdF d 24 4, addr := wdF d 8 8, len := wdF d 16 4, sample := wdF d 22 2, limit := wdF d 28 4
    fork := wdF d 1 1 == 1, parent := wdF d 32 2, prefixLen := wdF d 36 4, ring := ring }

/-- Note the last update applied to a table entry (R543). -/
def noteUpdate (slot index : Nat) (s : State) : State :=
  if (getSeq s slot).state = .free then s else modSeq s slot (fun e => { e with lastDesc := index })

/-- Apply or refuse an update, and write its record. -/
def applyUpdate (ring : Nat) (d : DescSlot) (r : Nat × State) : State :=
  let slot := wdF d 20 2
  updateRecord ring d.index slot r.1 (if r.1 = upAccepted then noteUpdate slot d.index r.2 else r.2)

/-! ### The HDM window (R461 to R463) -/

def hdmBytes (s : State) : Nat := s.host.hdmUnits * 2 ^ 28

/-- Are both IDE streams active (R464)? -/
def ideSecure (s : State) : Bool := (mapGet {} s.host.ide 0).secure && (mapGet {} s.host.ide 1).secure

/-- Is package memory there to be read: filled, and in no state that keeps it away? -/
def memoryServes (s : State) : Bool :=
  s.life.filled && s.life.boot = .done && s.life.state != .standby && s.life.state != .off

/-- Does the window answer at these bytes? -/
def hdmAnswers (s : State) (off n : Nat) : Bool :=
  s.host.hdmCommitted && s.host.trained && !s.host.narrow && memoryServes s && (ideSecure s || !s.sec.claimed)
    && n != 0 && decide (off + n ≤ hdmBytes s)

/-- Commit the decoder: size 0 or a base off 256 MiB sets the commit-error bit. -/
def hdmCommit (base : Nat) (s : State) : State :=
  if s.host.hdmCommitted then s
  else if s.host.hdmUnits == 0 || base % 2 ^ 28 != 0 then { s with host := { s.host with hdmError := true } }
  else { s with host := { s.host with hdmCommitted := true, hdmError := false, hdmBase := base } }

def filterLines : Nat := 1048576

/-- List a line that the host may cache from now on. -/
def listLine (line : Nat) (s : State) : State :=
  { s with host := { s.host with
    filter := if s.host.filter.contains line then s.host.filter else s.host.filter ++ [line]
    answered := s.host.answered.filter (· != line) } }

/-- A host read of one 64-byte line; the line is listed when the host may cache it. A full filter first takes back its
earliest entry, and the read waits for the answer. -/
def hostRead (c : Instr) (off : Nat) (caches : Bool) (s : State) : State :=
  let line := off / 64
  if !hdmAnswers s (64 * line) 64 then s
  else if foldHeld s (64 * line) 64 then { s with host := { s.host with stalled := s.host.stalled ++ [c] } }
  else match s.host.filter with
    | old :: _ =>
      if caches && decide (filterLines ≤ s.host.filter.length) && !s.host.filter.contains line then
        let s1 := snoopLine 8 0 s (old, true)
        { s1 with host := { s1.host with stalled := s1.host.stalled ++ [c] } }
      else hostReadNow line caches s
    | [] => hostReadNow line caches s
where
  hostReadNow (line : Nat) (caches : Bool) (s : State) : State :=
    let (r, s1) := readCw 1 0 (64 * line) s
    let s2 := emit (evHub 0xB2 0 1 (clearTouch (moveTouched 8 s1))) (.h2dData (64 * line) r.1 r.2)
    if caches then listLine line s2 else s2

/-- A host write: its codewords are stored poisoned when it carries poison. A fold holds it back as it holds a read (R446). -/
def hostWrite (c : Instr) (off : Nat) (data : List Byte) (poison : Bool) (s : State) : State :=
  if foldHeld s off data.length then { s with host := { s.host with stalled := s.host.stalled ++ [c] } }
  else if hdmAnswers s off data.length then
    clearTouch (moveTouched 8 (evHub 0xB3 0 (cwSpan off data.length) (pkgWrite 1 0 off data poison s)))
  else s

/-- The host's answer to a snoop: dirty data is stored; after an invalidation the line is no longer listed, after a read
it stays listed as a shared copy. -/
def snoopAnswer (line : Nat) (dirty : List Byte) (s : State) : State :=
  if mapGet 0 s.host.dirty line == 0 then s
  else
    let inv := mapGet 0 s.host.dirty line == 2
    let s1 := if dirty.isEmpty then s else clearTouch (moveTouched 8 (pkgWrite 1 0 (64 * line) (dirty.take 64) false s))
    { s1 with host := { s1.host with
      dirty := mapSet 0 s1.host.dirty line 0
      d2h := s1.host.d2h.filter (fun x => match x.2 with | .snoop l _ _ => l != line | _ => true)
      filter := if inv then s1.host.filter.filter (· != line) else s1.host.filter
      answered := if inv then s1.host.answered else line :: s1.host.answered } }

/-! ### IDE keys (R464, R465, R570) -/

/-- The IDE key of a stream, direction, sub-stream, key set and refresh count (R565). -/
def ideKey (secret stream dir sub keySet refresh : Nat) : Nat :=
  Config.hmac (le 32 secret) (ascii "IDE" ++ [stream, dir, sub, keySet, refresh].map (BitVec.ofNat 8))

/-- A KEY_PROG: programmed when its key is the session key that it names. -/
def keyProg (stream dir sub keySet refresh key : Nat) (s : State) : State :=
  match s.sec.session with
  | none => emit s (.keyAck false)
  | some x =>
    if decide (stream < 2) && decide (dir < 2) && decide (sub < 8) && decide (keySet < 2) && decide (refresh < 256)
        && key == ideKey x.secret stream dir sub keySet refresh then
      let f := fun (i : Ide) => { i with keys := mapSet 0 i.keys (keySet * 16 + dir * 8 + sub) (key + 1), refresh := refresh }
      emit { s with host := { s.host with ide := mapMod {} s.host.ide stream f } } (.keyAck true)
    else emit s (.keyAck false)

/-- Is a key set of a stream programmed in both directions (R570; DESIGN CHOICE: at least one sub-stream of each)? -/
def keysReady (i : Ide) (keySet : Nat) : Bool :=
  [0, 1].all (fun d => (List.range 8).any (fun b => mapGet 0 i.keys (keySet * 16 + d * 8 + b) != 0))

/-- K_SET_GO: the stream goes on under the key set. -/
def keyGo (stream keySet : Nat) (s : State) : State :=
  if decide (stream < 2) && decide (keySet < 2) && keysReady (mapGet {} s.host.ide stream) keySet then
    { s with host := { s.host with ide := mapMod {} s.host.ide stream (fun i => { i with secure := true, keySet := keySet }) } }
  else s

/-- Both streams insecure, their keys lost. -/
def ideLost (s : State) : State := { s with host := { s.host with ide := [] } }

/-! ### Messages (R466, R619) -/

/-- The moderation interval ends: one message for what was written meanwhile, and a new interval. -/
def moderationEnds (cq : Nat) (s : State) : State :=
  let c := getCq s cq
  if !c.modHold then s
  else if c.msgPending then sendMsix c.vector (modCq s cq (fun x => { x with msgPending := false }))
  else modCq s cq (fun x => { x with modHold := false })

/-- The hold-off of vector 0 ends. -/
def holdoffEnds (s : State) : State :=
  if !s.host.esHoldoff then s
  else if s.host.esPending then sendMsix 0 { s with host := { s.host with esPending := false } }
  else { s with host := { s.host with esHoldoff := false } }

end Sys2Proof.Machine
end

