-- ==== Sys2Proof/Machine/MailOps.lean ====
section
/-!
DEFINITION. The mailboxes: submission, the checks of R490, session trailers, responses and their interrupts
(spec/18_mailbox.md, R477 to R491; R567).
-/
namespace Sys2Proof.Machine

/-! ### Codes (R489, R491) -/

def stSuccess : Nat := 0
def stInProgress : Nat := 1
def stInvalidOpcode : Nat := 2
def stInvalidParam : Nat := 3
def stBusy : Nat := 4
def stNotReady : Nat := 5
def stWrongState : Nat := 6
def stNotPermitted : Nat := 7
def stLength : Nat := 8
def stAborted : Nat := 9
def stVerifyFailed : Nat := 10
def stHwError : Nat := 11

/-- Masks of the table's Via column. -/
def vMb0 : Nat := 1
def vMbm : Nat := 2
def vMb1 : Nat := 4
def v0M : Nat := 3
def v0M1 : Nat := 7
def v01 : Nat := 5

def viaBit : Via → Nat
  | .mb0 => 0
  | .mbm => 1
  | .mb1 => 2

/-- Masks of the table's States column: B, U, C, N+, N−, R, F, S. -/
def sB : Nat := 1
def sU : Nat := 2
def sC : Nat := 4
def sNp : Nat := 8
def sNm : Nat := 16
def sN : Nat := 24
def sR : Nat := 32
def sF : Nat := 64
def sS : Nat := 128
/-- B, U, C, N, R and F. -/
def sAll : Nat := 127
def sUCNF : Nat := sU + sC + sN + sF
def sUCNRF : Nat := sUCNF + sR

/-- The module state's bit in those masks; none in OFF. -/
def stateBit (s : State) : Option Nat :=
  match s.life.state with
  | .off => none
  | .booting => some 0
  | .unclaimed => some 1
  | .claimed => some 2
  | .notReady => some (if s.sec.claimed then 3 else 4)
  | .recovering => some 5
  | .failed => some 6
  | .standby => some 7

def stateAccepts (s : State) (mask : Nat) : Bool :=
  match stateBit s with
  | some b => bit mask b
  | none => false

/-- Status of a command that the state does not accept. -/
def stateStatus (s : State) : Nat :=
  match s.life.state with
  | .booting | .notReady => stNotReady
  | _ => stWrongState

/-! ### Mailboxes -/

def getMb (s : State) : Via → Mailbox
  | .mb0 => s.mgmt.mb0
  | _ => s.mgmt.mb1

/-- Change a mailbox that has a control block. -/
def modMb (v : Via) (f : Mailbox → Mailbox) (s : State) : State :=
  match v with
  | .mb0 => { s with mgmt := { s.mgmt with mb0 := f s.mgmt.mb0 } }
  | .mb1 => { s with mgmt := { s.mgmt with mb1 := f s.mgmt.mb1 } }
  | .mbm => s

/-- Is the mailbox served (R477)? MBM answers commands only once its endpoint id is assigned (R498). -/
def served (s : State) : Via → Bool
  | .mb0 => s.mgmt.mb0.ready
  | .mb1 => s.mgmt.mb1.ready
  | .mbm => s.mgmt.mb0.ready && s.mgmt.eid != 0

/-- MSI-X vector of a mailbox (R479). -/
def mbInterrupt (v : Via) (s : State) : State :=
  match v with
  | .mb0 => if s.mgmt.mb0.intEn then sendMsix 1 s else s
  | .mb1 => if s.mgmt.mb1.intEn then sendMsix 2 s else s
  | .mbm => s

/-- Set `EVENT` on the mailbox that started a background command (R486). -/
def mbEvent (v : Via) (s : State) : State := mbInterrupt v (modMb v (fun m => { m with event := true }) s)

/-! ### Session trailers (R488, R567) -/

/-- The session whose key tags a request: a claim's trailer is keyed by the pending session. -/
def trailerSession (s : State) (claim : Bool) : Option Session :=
  if claim then s.sec.pendingSession
  else match s.sec.session with
    | some x => some x
    | none => s.sec.pendingSession

/-- Does a trailer verify? -/
def trailerOk (s : State) (claim : Bool) (t : Trailer) : Bool :=
  match trailerSession s claim with
  | some x => t.tagGood && decide (x.counter < t.counter)
  | none => false

/-- Is the request authorised: its trailer verifies if it has one, and it has one where the command asks for it? -/
def authorised (s : State) (q : Req) (auth claim : Bool) : Bool :=
  match q.trailer with
  | some t => trailerOk s claim t
  | none => !auth

/-- Record the counter of an accepted request. -/
def takeCounter (q : Req) (s : State) : State :=
  match q.trailer with
  | none => s
  | some t =>
    match s.sec.session with
    | some x => { s with sec := { s.sec with session := some { x with counter := t.counter } } }
    | none => { s with sec := { s.sec with
        pendingSession := s.sec.pendingSession.map (fun x => { x with counter := t.counter }) } }

/-- A response header (R482). -/
def mbHeader (code tag len status flags : Nat) : List Byte :=
  layout 16 [(0, 2, code), (2, 2, tag), (4, 4, len), (8, 2, status), (10, 2, flags)]

/-- The response's trailer, with the request's counter. -/
def responseTrailer (secret code tag counter flags : Nat) (payload : List Byte) : List Byte :=
  let head := mbHeader code tag (payload.length + 32) 0 flags
  le 8 counter ++ le 24 (Config.hmac (le 32 (Config.hmac (le 32 secret) (ascii "MBRSP"))) (head ++ payload ++ le 8 counter))

/-! ### Responses (R483) -/

/-- Bytes of a mailbox, from the header on, as a table. -/
def mbHeld (bs : List Byte) : SMap Nat := (bs.zipIdx.filter (fun x => x.1 != 0)).map (fun x => (x.2, x.1.toNat))

/-- Answer a command: header, payload and, for a request with a trailer that verifies, a trailer. -/
def respond (q : Req) (code status : Nat) (body : List Byte) (s : State) : State :=
  let ses := match s.sec.session with
    | some x => some x
    | none => s.sec.pendingSession
  let flags := match q.trailer with
    | some _ => 3
    | none => 2
  let payload := match q.trailer, ses with
    | some t, some x => body ++ responseTrailer x.secret code q.tag t.counter flags body
    | some t, none => body ++ le 8 t.counter ++ List.replicate 24 0
    | none, _ => body
  let s1 := evHub 0x81 (match q.via with | .mb0 => 0 | .mb1 => 1 | .mbm => 2) 1 s
  match q.via with
  | .mbm =>
    let m := mbHeader code q.tag payload.length status flags ++ payload
    emit { s1 with mgmt := { s1.mgmt with mbmOut := m } } (.mctp (m.map BitVec.toNat))
  | v =>
    mbInterrupt v (modMb v (fun m => { m with
      busy := false, done := true, opcode := code, tag := q.tag, status := status, flags := flags, payload := payload
      hdrShadow := mbHeld (mbHeader code q.tag payload.length status flags ++ payload) }) s1)

/-- What running a command answers: a response now, or one that a later event sends. -/
inductive Answer where
  | now (status : Nat) (payload : List Byte) (s : State)
  | later (s : State)

def refuse (status : Nat) (s : State) : Answer := .now status [] s
def accept (s : State) : Answer := .now stSuccess [] s

/-- Is a status one of a request that was accepted? -/
def acceptedStatus (st : Nat) : Bool := st == stSuccess || st == stInProgress

/-- Check and run a command whose turn has come (R490). -/
def runMail (code via states : Nat) (auth claim : Bool) (q : Req) (f : State → Answer) (s : State) : State :=
  let no := fun (st : Nat) => respond q code st [] s
  if !bit via (viaBit q.via) then no stInvalidOpcode
  else if !q.lenOk then no stLength
  else if !stateAccepts s states then no (stateStatus s)
  else if !authorised s q auth claim then no stNotPermitted
  else if !q.rsvZero then no stInvalidParam
  else match f s with
    | .now st body s1 => respond q code st body (if acceptedStatus st then takeCounter q s1 else s1)
    | .later s1 => takeCounter q s1

/-- Run a command, unless it would touch a line that the host may cache: then it waits for the host's answers (R462). -/
def runGuarded (c : Instr) (code via states : Nat) (auth claim : Bool) (q : Req) (f : State → Answer) (s : State) : State :=
  let s1 := runMail code via states auth claim q f (clearTouch s)
  let l := hostLines s s1.pkg.touch
  if l.isEmpty then endTouch 8 s1
  else
    let s2 := l.foldl (snoopLine 8 0) s
    { s2 with mgmt := { s2.mgmt with waiting := c :: s2.mgmt.waiting } }

/-- Is the executor of CARDAMOM busy with a command whose response is still to come, or has one that waits for it? -/
def executorBusy (s : State) : Bool := s.mgmt.executing != .none || !s.mgmt.waiting.isEmpty

/-- A command reaches its mailbox (R483 to R485): ignored while the mailbox is busy, queued while CARDAMOM runs another,
else run at once. A command that was waiting has been taken in already. -/
def mailbox (c : Instr) (code via states : Nat) (auth claim : Bool) (q : Req) (f : State → Answer) (s : State) : State :=
  if !served s q.via then { s with mgmt := { s.mgmt with resuming := false } }
  else if s.mgmt.resuming then
    runGuarded c code via states auth claim q f { s with mgmt := { s.mgmt with resuming := false } }
  else if q.via != .mbm && (getMb s q.via).busy then modMb q.via (fun m => { m with overrun := true }) s
  else
    let s1 := modMb q.via (fun m => { m with busy := true, done := false, opcode := code, tag := q.tag }) s
    if q.via != .mb1 && executorBusy s then { s1 with mgmt := { s1.mgmt with waiting := s1.mgmt.waiting ++ [c] } }
    else runGuarded c code via states auth claim q f s1

/-- The command in progress is done. -/
def freeExecutor (s : State) : State := { s with mgmt := { s.mgmt with executing := .none } }

end Sys2Proof.Machine
end

