-- ==== Sys2Proof/Machine/FabricIn.lean ====
section
/-!
DEFINITION. Packets as they arrive: the checks of a channel's receiver, acknowledgements, refusals and resends, and what
each operation does at its target (spec/15_fabric.md, R398 to R428; R145, R147, R151).
-/
namespace Sys2Proof.Machine

/-! ### Sending again and settling (R411, R412, R427) -/

/-- Sequence number distance from `a` forward to `b`, modulo 2^24. -/
def seqDist (a b : Nat) : Nat := (b + 2 ^ 24 - a % 2 ^ 24) % 2 ^ 24

/-- Is sequence number `a` at or before `b`? -/
def seqAtMost (a b : Nat) : Bool := decide (seqDist a b < 2 ^ 23)

/-- Send packets again, byte for byte, each counted as a retransmit. -/
def resendAll (k : Nat) (rs : List Retained) (s : State) : State :=
  let port := (getChan s k).port
  forAll rs (fun a r => putOut port r.op r.pkt r.wire (evHub 0x92 port 1 a)) s

/-- Send again from sequence number `n` on. -/
def resendFrom (k n : Nat) (s : State) : State :=
  resendAll k ((getChan s k).retained.filter (fun r => r.sentOut && seqAtMost n r.seq)) s

/-- Settle the owners of packets with a fault code or 0. -/
def settleAll (rs : List Retained) (code : Nat) (s : State) : State :=
  forAll (rs.filter (fun r => r.owner != 0)) (fun a r => settlePacket r.owner code a) s

/-- A cumulative acknowledgement of everything up to `n`. -/
def ackUpTo (k n : Nat) (s : State) : State :=
  let rs := (getChan s k).retained
  let isGone := fun (r : Retained) => r.sentOut && seqAtMost r.seq n
  let s1 := modChan s k (fun c => { c with retained := rs.filter (fun r => !isGone r) })
  pumpPort (getChan s k).port (settleAll (rs.filter isGone) 0 s1)

/-- Halve a destination's cap, down to 4 KiB (R416). -/
def halveCap (port peer : Nat) (s : State) : State :=
  let c := max 4096 (destLimit s port peer / 2)
  { s with fabric := { s.fabric with caps := mapSet 0 s.fabric.caps (port * 256 + peer) c } }

/-- Double it, up to the full limit of R415. -/
def growCap (port peer : Nat) (s : State) : State :=
  let cap := mapGet 0 s.fabric.caps (port * 256 + peer)
  let full := 2 ^ 20 - 4096 * otherDests s port peer
  let c := if full ≤ 2 * cap then 0 else 2 * cap
  pumpPort port { s with fabric := { s.fabric with caps := mapSet 0 s.fabric.caps (port * 256 + peer) c } }

/-- Drop what an op still has to send (R427), and settle its packets that were dropped. -/
def dropUnsent (k owner : Nat) (s : State) : State :=
  let isHeld := fun (r : Retained) => r.owner == owner && !r.sentOut
  let rs := (getChan s k).retained
  settleAll (rs.filter isHeld) 0 (modChan s k (fun c => { c with retained := rs.filter (fun r => !isHeld r) }))

/-- A refusal of sequence number `n`: the op that sent it faults with `WINDOW_REFUSED`; `BUSY` has it sent again. -/
def refusedAt (k n reason : Nat) (s : State) : State :=
  match (getChan s k).retained.find? (fun r => r.sentOut && r.seq == n) with
  | none => s
  | some r =>
    if reason == rBusy then modChan s k (fun c => { c with busySeq := some n })
    else
      let s1 := modChan s k (fun c => { c with
        retained := c.retained.filter (fun x => !(x.sentOut && x.seq == n))
        reads := c.reads.filter (fun x => x.1 != n) })
      if r.owner = 0 then s1
      else pumpPort (getChan s k).port (settlePacket r.owner fWindowRefused
        (dropUnsent k r.owner (modEntry (r.owner % 8) (r.owner / 8)
          (fun e => { e with fault := if e.fault = 0 then fWindowRefused else e.fault }) s1)))

/-! ### Acknowledging (R411, R412, R416) -/

def portMinor (s : State) (port : Nat) : Nat := (getPort s port).minor

/-- Minor version of a channel's port; 0xFF, of a port that is not UP, is no version. -/
def chanMinor (s : State) (k : Nat) : Nat := portMinor s (getChan s k).port % 255

/-- Bytes that a port's lanes hold in the shared part of its receive buffer: in credits of 256 bytes, beyond the 4 KiB of each
lane (R414; DESIGN CHOICE, log 126: a lane fills its own part first). -/
def rxShared (x : Port) : Nat := (x.rxLane.map (fun l => roundUp l.2 256 - 4096)).sum

/-- Credits of 256 bytes that the port can grant a lane: of its own part, and of the shared one (R414). -/
def laneCredits (x : Port) (lane : Nat) : Nat := (4096 - roundUp (mapGet 0 x.rxLane lane) 256) / 256
def sharedCredits (x : Port) : Nat := (262144 - rxShared x) / 256

/-- Does the shared part hold more than 192 KiB (R416)? Ports at minor 0 set no `BUSY`. -/
def portBusy (s : State) (port : Nat) : Bool :=
  decide (196608 < rxShared (getPort s port)) && portMinor s port != 0 && portMinor s port != 0xFF

/-- Packets of a channel counted over its epochs. -/
def absSeq (epoch seq : Nat) : Nat := epoch * 2 ^ 24 + seq

/-- One past the last packet applied in order: accumulates still queued, and increments still pending (R147), are not
applied, so no acknowledgement covers them (R144, R412). -/
def appliedEnd (s : State) (k : Nat) : Nat :=
  let c := getChan s k
  let waits := ((allAccums s).filter (fun a => a.stream == 2 * k)).map (·.seq)
    ++ ((s.fences.pendingInc.filter (fun p => chanKey p.peer p.chan == k && p.seq != 0)).map (·.seq))
  waits.foldl min (absSeq c.epoch c.rxSeq)

/-- Send a cumulative acknowledgement. -/
def sendAck (k : Nat) (s : State) : State :=
  let c := getChan s k
  let hi := appliedEnd s k
  if c.rxSeq = 0 || hi ≤ absSeq c.epoch 0 then s
  else
    let n := hi - 1 - absSeq c.epoch 0
    let s1 := modChan s k (fun x => { x with rxUnacked := absSeq c.epoch c.rxSeq - hi })
    let s2 := { s1 with fabric := { s1.fabric with windows := mapVals {} (fun x =>
      { x with inflight := x.inflight.filter (fun l => !(l.1 == 2 * k && decide (l.2 < hi))) }) s1.fabric.windows } }
    sendReply k { op := 0x10, aux := n + 2 ^ 24 * (portBusy s c.port).toNat } s2

/-- Packets that one acknowledgement covers at most (R412, R429). -/
def ackEvery (s : State) (k : Nat) : Nat := if chanMinor s k ≤ 1 then 4 else 16

/-- Answer with a `NAK` for the expected number. -/
def sendNak (k : Nat) (s : State) : State :=
  evHub 0x93 (getChan s k).port 1 (sendReply k { op := 0x11, aux := (getChan s k).rxSeq % 2 ^ 24 } s)

/-! ### Refusing (R427) -/

/-- Answer with a refusal; all but `BUSY` are logged. -/
def sendRefuse (k reason : Nat) (p : Packet) (s : State) : State :=
  let s1 := evHub 0x95 (getChan s k).port 1 (sendReply k { op := 0x12, aux := p.seq + 2 ^ 24 * reason } s)
  if reason == rBusy then s1
  else
    esRefusal (log4Add p.window p.src p.chan p.offset reason s1)

/-! ### The receiver (R385, R399, R404, R409 to R411, R418) -/

/-- What an operation does with a packet in its turn. -/
inductive Took where
  | done (s : State)
  | refuse (reason : Nat) (s : State)
  | hold (s : State)

/-- Have frames delivered the bytes of the packet on its lane (R377, R378; DESIGN CHOICE, log 126: the packet commands take
them from the port)? -/
def delivered (s : State) (port op : Nat) (p : Packet) : Bool :=
  decide (wireBytes p ≤ mapGet 0 (getPort s port).rxLane (opLane op))

/-- A packet leaves the port's receive buffer; its payload is counted. -/
def arrive (port op : Nat) (p : Packet) (s : State) : State :=
  evCount 8 0x89 port (opLane op) (ceilDiv p.payload.length 64)
    (modPort s port (fun x => { x with rxLane := mapMod 0 x.rxLane (opLane op) (fun n => n - wireBytes p) }))

/-- The receive direction at a packet's arrival: a packet of the next epoch follows sequence number 0xFF_FFFF. -/
def rollRx (p : Packet) (c : Chan) : Chan :=
  let next := if c.epoch = 65535 then 1 else c.epoch + 1
  if c.rxOld && p.epoch = 1 && p.seq = 0 then { c with epoch := 1, rxSeq := 0, rxOld := false }
  else if c.rxSeq = 2 ^ 24 && p.epoch = next then { c with epoch := next, rxSeq := 0 } else c

/-- The checks that come before the sequence number: the channel's key if the packet is good. -/
def screen (port op : Nat) (p : Packet) (s0 : State) : Option Nat × State :=
  if !linkUp s0 port || !delivered s0 port op p then (none, s0)
  else
    let s := arrive port op p s0
    let k := chanKey p.src p.chan
    let c := rollRx p (getChan s k)
    if (getPort s port).state == .quarantine || p.dst != ownId s || !p.rsvZero || decide (4096 < p.payload.length)
        || c.state == .closed then (none, esDiscard s)
    else if c.state == .opening || c.state == .reset then (none, s)
    else if p.epoch != c.epoch then (none, esDiscard (evHub 0x97 c.port 1 s))
    else if !p.tagOk then (none, sendNak k (esAuth (evHub 0x96 c.port 1 s)))
    else (some k, modChan s k (rollRx p))

/-- A packet that carries a sequence number: applied in its turn, acknowledged or refused. -/
def inSequence (port op : Nat) (p : Packet) (f : Nat → State → Took) (s : State) : State :=
  match screen port op p s with
  | (none, s1) => s1
  | (some k, s1) =>
    let c := getChan s1 k
    if p.seq < c.rxSeq then sendAck k s1
    else if c.rxSeq < p.seq then sendNak k s1
    else match f k s1 with
      | .hold s2 => s2
      | .refuse r s2 =>
        sendRefuse k r p (if r == rBusy then s2 else modChan s2 k (fun x => { x with rxSeq := x.rxSeq + 1 }))
      | .done s2 =>
        let s3 := evCount 8 0x91 c.port (opLane op) 1 (modChan s2 k (fun x => { x with
          rxSeq := x.rxSeq + 1, rxUnacked := x.rxUnacked + 1 }))
        if ackEvery s3 k ≤ (getChan s3 k).rxUnacked then sendAck k s3 else s3

/-- A packet outside the sequence: ACK, NAK or REFUSE. -/
def outOfSequence (port op : Nat) (p : Packet) (f : Nat → State → State) (s : State) : State :=
  match screen port op p s with
  | (none, s1) => s1
  | (some k, s1) => f k s1

/-- Everything earlier of the channel takes effect first (R412); a packet waits for what a fold still holds back (R446). -/
def inOrder (k : Nat) (f : State → Took) (s : State) : Took :=
  let s1 := drainStream (2 * k) s
  if (allAccums s1).any (fun a => a.stream == 2 * k) then .hold s1 else f s1

/-- A packet that reads or writes package memory waits while a fold holds a codeword of it (R446). -/
def pastFold (dpa n : Nat) (t : Took) (s : State) : Took := if foldHeld s dpa n then .hold s else t

/-- Note a packet that a window accepted (R425). -/
def winAccept (w k : Nat) (p : Packet) (s : State) : State :=
  modWin s w (fun x => { x with begun := true, inflight := x.inflight ++ [(2 * k, absSeq p.epoch p.seq)] })

/-! ### Board packets and open trust (R402, R428) -/

def boardOk (s : State) (p : Packet) : Bool := boardPeer s p.src && jobMember s p.src && attested s p.src

def openTrust (s : State) : Bool :=
  match s.job with
  | some j => j.openTrust
  | none => false

/-! ### WRITE (R419, R422, R423, R428) -/

def inPeers (x : Window) (src : Nat) : Bool := ((x.params.map (·.peers)).getD []).contains src

/-- Are all granules of a slot window's bound claimed? -/
def allClaimed (x : Window) : Bool := decide (winBound x / 4096 ≤ x.claimed.length)

def writeReason (x : Window) (p : Packet) : Nat :=
  match x.params with
  | none => rNotOpen
  | some w =>
    firstReason [
      (!x.isOpen || p.aux % 65536 == 0, rNotOpen), (p.aux % 65536 != x.epoch, rStale), (!inPeers x p.src, rPeer),
      (!bit w.ops 0, rOp), (decide (w.bound < p.offset + p.payload.length), rBound), (x.closing, rClosing),
      (w.kind == 0 && !allClaimed x, rBusy)]

/-- Store a write in its window. A `LAST` that a window with epochs applies counts towards its expected count (R422). -/
def windowWrite (k : Nat) (p : Packet) (s : State) : State :=
  match (getWin s p.window).params with
  | none => s
  | some w =>
    let s1 := winAccept p.window k p s
    let (bad, s2) := if w.kind == 0 then slotWrite 5 w.tile (w.base + p.offset) p.payload s1
      else (false, pkgWrite 1 0 (w.base + p.offset) p.payload p.poison s1)
    let n := (p.last && w.expected != 0).toNat
    winCheck p.window (modWin s2 p.window (fun x => { x with
      poisoned := x.poisoned || p.poison || bad, lasts := x.lasts + n, accepted := x.accepted + n }))

/-- An open-trust write lands where its offset says; slot data changes without its tags. Bytes past the end of slot or package
memory are not stored, and poison does not mark slot data (DESIGN CHOICE, log 129). -/
def trustWrite (p : Packet) (s : State) : State :=
  let slotAt := p.offset % 2 ^ 27
  let pkgAt := p.offset % 2 ^ 39
  if bit p.offset 39 then (slotWrite 5 (bits p.offset 29 27) slotAt (p.payload.take (2 ^ 27 - slotAt)) s).2
  else pkgWrite 1 0 pkgAt (p.payload.take (2 ^ 39 - pkgAt)) p.poison s

/-- A `BUSY` from minor 3 on; below it the packet is discarded and the sender's retransmit brings it again (R423,
R437). -/
def busyAnswer (k : Nat) (s : State) : Took := if chanMinor s k ≤ 2 then .hold s else .refuse rBusy s

/-- Reason to refuse a board packet of `n` target bytes, 0 for none (R402, R427). -/
def boardReason (s : State) (p : Packet) (n : Nat) (fmtOk : Bool) : Nat :=
  firstReason [(decide (2 ^ 39 < p.offset + n), rBound), (!fmtOk, rFormat), (!boardOk s p, rNotMember)]

/-- A `WRITE` in its turn. -/
def writeAt (p : Packet) (k : Nat) (s : State) : Took :=
  let n := p.payload.length
  if keyNum k == 2 then
    let r := boardReason s p n true
    if r != 0 then .refuse r s else pastFold p.offset n (.done (pkgWrite 1 0 p.offset p.payload p.poison s)) s
  else if p.window == 255 && openTrust s then
    (if !jobMember s p.src then .refuse rNotMember s
     else if bit p.offset 39 then .done (trustWrite p s) else pastFold (p.offset % 2 ^ 39) n (.done (trustWrite p s)) s)
  else
    let x := getWin s p.window
    let r := writeReason x p
    if r == 0 then
      (if (x.params.map (·.kind)).getD 0 == 0 then .done (windowWrite k p s)
       else pastFold (winBase x + p.offset) n (.done (windowWrite k p s)) s)
    else if r == rBusy then busyAnswer k s else .refuse r s

def onWrite (p : Packet) (k : Nat) (s : State) : Took := inOrder k (writeAt p k) s

/-! ### READ and READ_RESP (R426) -/

def readLen (p : Packet) : Nat := bits p.aux 47 32

def readReason (x : Window) (p : Packet) : Nat :=
  match x.params with
  | none => rNotOpen
  | some w =>
    firstReason [
      (!x.isOpen || p.aux % 65536 == 0, rNotOpen), (p.aux % 65536 != x.epoch, rStale), (!inPeers x p.src, rPeer),
      (!bit w.ops 2, rOp), (decide (w.bound < p.offset + readLen p), rBound), (x.closing, rClosing)]

/-- Answer a READ with the bytes at an address. -/
def answerRead (k : Nat) (p : Packet) (dpa : Nat) (s : State) : State :=
  let (d, s1) := pkgReadP 1 0 dpa (readLen p) s
  sendPacket k 0 { op := 0x03, aux := p.seq, poison := anyBad d, payload := bytesOf d } s1

/-- A `READ` in its turn. -/
def readAt (p : Packet) (k : Nat) (s : State) : Took :=
  if keyNum k == 2 then
    let r := boardReason s p (readLen p) true
    if r != 0 then .refuse r s else pastFold p.offset (readLen p) (.done (answerRead k p p.offset s)) s
  else if p.window == 255 && openTrust s && !jobMember s p.src then .refuse rNotMember s
  else
    let x := getWin s p.window
    let r := readReason x p
    if r != 0 then .refuse r s
    else pastFold (winBase x + p.offset) (readLen p)
      (.done (answerRead k p (winBase x + p.offset) (winAccept p.window k p s))) s

def onRead (p : Packet) (k : Nat) (s : State) : Took := inOrder k (readAt p k) s

/-- Data of a READ reaches the op that asked for it. -/
def onReadResp (p : Packet) (k : Nat) (s0 : State) : Took := inOrder k (fun s =>
  let n := p.aux % 2 ^ 24
  match (getChan s k).reads.find? (fun r => r.1 == n) with
  | none => .done s
  | some r =>
    let s1 := modChan s k (fun c => { c with reads := c.reads.erase r })
    .done (modEntry (r.2 % 8) (r.2 / 8) (fun e => { e with
      gotData := e.gotData ++ p.payload
      bads := if p.poison then e.bads ++ [(e.gotData.length, p.payload.length)] else e.bads }) s1)) s0

/-! ### ACCUM (R435, R437) -/

def accTag (p : Packet) : Nat := bits p.aux 31 24
def accRidx (p : Packet) : Nat := bits p.aux 23 16
def accBlk16 (p : Packet) : Bool := bit p.aux 32

/-- Queue an accepted window contribution, and count its `LAST`. -/
def queueWindow (stream seq w offset : Nat) (vals : List Nat) (poison last : Bool) (s : State) : State :=
  let x := getWin s w
  let s1 := queueVals stream seq w true (winTarget x) (winLand x + offset) vals poison s
  if last && hasEpochs x then
    settleLasts w (modWin s1 w (fun y => { y with
      accepted := y.accepted + 1, lastsWait := y.lastsWait ++ [(stream, seq)] }))
  else s1

/-- A board accumulate: a BF16 contribution may mean either target format, which the packet does not say; a free value
decides (R434, R435). -/
def boardAccum (k : Nat) (p : Packet) (s : State) : State :=
  let (f, s1) := if p.fmt == 1 then takeFree 1 s else (0, s)
  queueVals (2 * k) (absSeq p.epoch p.seq) 0 false f p.offset (contribVals p.fmt (accBlk16 p) p.payload) p.poison s1

/-- An `ACCUM` in its turn. -/
def accumAt (p : Packet) (k : Nat) (s : State) : Took :=
  let vals := contribVals p.fmt (accBlk16 p) p.payload
  if keyNum k == 2 then
    let r := boardReason s p (4 * vals.length) (pairOk 0 p.fmt)
    if r != 0 then .refuse r s else .done (boardAccum k p s)
  else if p.window == 255 && openTrust s && !jobMember s p.src then .refuse rNotMember s
  else
    let x := getWin s p.window
    let span := contribSpan (winTarget x) p.fmt (accBlk16 p) p.payload
    let r := accumReason s x (inPeers x p.src) (p.aux % 65536) p.offset span p.fmt (tagAt x (accTag p)) (accRidx p)
    if r == rBusy then busyAnswer k s
    else if r != 0 then .refuse r s
    else if stamped x && stampCase s x (tagAt x (accTag p)) (accRidx p) == .discarded then
      .done (evHub 0x9B 0 1 (addCounts p.window { stale := 1 } s))
    else
      .done (queueWindow (2 * k) (absSeq p.epoch p.seq) p.window p.offset vals p.poison p.last
        (winAccept p.window k p s))

/-- An `ACCUM`. The first packet of a contribution waits until the channel's earlier contribution is applied in full (R436). -/
def onAccum (p : Packet) (k : Nat) (s : State) : Took :=
  let mark := fun (b : Bool) (a : State) => modChan a k (fun c => { c with rxOpen := b })
  let run := fun (a : State) => match accumAt p k a with
    | .done b => Took.done (mark (!p.last) b)
    | .refuse r b => .refuse r (if r == rBusy then b else mark false b)
    | .hold b => .hold b
  if (getChan s k).rxOpen then run s else inOrder k run s

/-! ### FENCE_INC (R145, R147) -/

/-- Step and run that a step task's increment carries. -/
def incRun (p : Packet) : Option (Nat × Nat) :=
  if p.payload.length = 9 then some (ofBytes (p.payload.take 8), ofBytes (p.payload.drop 8)) else none

/-- An increment for a later run waits in the pending queue while its channel goes on (R147, log 120). -/
def onFenceInc (p : Packet) (k : Nat) (s0 : State) : Took := inOrder k (fun s =>
  let c := p.aux % 4096
  let n := bits p.aux 63 32
  let ch := getChan s k
  if c < ch.low || ch.high < c then .refuse rFence s
  else
    let now := evHub 0xA9 0 1 (fenceAdd c n s)
    match isStepCounter s c, incRun p with
    | true, some (st, rr) =>
      if runClass s st rr = 0 then .done now
      else if runClass s st rr = 2 then .done (esStaleInc s)
      else if 256 ≤ s.fences.pendingInc.length then .hold s
      else .done { s with fences := { s.fences with pendingInc := s.fences.pendingInc ++ [⟨c, n, st, rr, p.src, p.chan, absSeq p.epoch p.seq⟩] } }
    | _, _ => .done now) s0

/-! ### Barrier packets (R151) -/

def onBarArrive (p : Packet) (k : Nat) (s0 : State) : Took := inOrder k (fun s =>
  let b := p.aux % 64
  let x := getBarrier s b
  if !x.configured then .hold s
  else if x.root != ownId s then .done s
  else .done (releaseWaits (rootArrive b p.src (barGenOf x.done (bits p.aux 63 8)) s))) s0

def onBarRelease (p : Packet) (k : Nat) (s0 : State) : Took := inOrder k (fun s =>
  let b := p.aux % 64
  let x := getBarrier s b
  if !x.configured then .hold s
  else .done (releaseWaits (barReleased b (barGenOf x.done (bits p.aux 63 8)) (bit p.aux 6)
    (ofBytes (p.payload.take 4)) s))) s0

/-! ### Replies (R411, R412, R416, R423, R427) -/

def onAck (p : Packet) (k : Nat) (s : State) : State :=
  let port := (getChan s k).port
  let s1 := ackUpTo k (p.aux % 2 ^ 24) s
  if bit p.aux 24 && portMinor s port != 0 then evHub 0x94 port 1 (halveCap port (keyPeer k) s1) else s1

/-- A `NAK` has the packets from its number on sent again; a packet that waits out a `BUSY` waits on. -/
def onNak (p : Packet) (k : Nat) (s : State) : State :=
  if (getChan s k).busySeq = some (p.aux % 2 ^ 24) then s else resendFrom k (p.aux % 2 ^ 24) s

def onRefuse (p : Packet) (k : Nat) (s : State) : State := refusedAt k (p.aux % 2 ^ 24) (bits p.aux 31 24) s

/-! ### A channel enters RESET (R409, R550) -/

/-- Does an issued op wait on this channel? -/
def waitsOn (s : State) (tile : Nat) (k : Nat) (e : Entry) : Bool :=
  e.state = .issued && ((opChannels s tile e).contains (some k)
    || (opClass e.op == 8 && opCode e.op == 3 && generalKey s (oF e.op 22 2 % 4096) == some k))

/-- Pending increments of a channel are acknowledged to nobody once its sequence numbers are void. -/
def freePending (k : Nat) (s : State) : State :=
  { s with fences := { s.fences with pendingInc := s.fences.pendingInc.map (fun p =>
      if chanKey p.peer p.chan == k then { p with seq := 0 } else p) } }

/-- Answer the `CHANNEL_OPEN` that waits on a channel: once it is OPEN, or when it enters RESET before (R409; DESIGN CHOICE,
log 127: the latter with `ABORTED`). -/
def endOpen (k status : Nat) (s : State) : State :=
  match s.mgmt.executing with
  | .chanOpen q k' => if k' = k then respond q 0x0506 status [] (freeExecutor s) else s
  | _ => s

/-- Put a channel into RESET: its packets leave every count, and every op that waits on it faults. -/
def resetChan (k : Nat) (s : State) : State :=
  let waiting := tileList.flatMap (fun t => ((getTile s t).window.filter (waitsOn s t k)).map (fun e => (t, e.uid)))
  let s1 := modChan s k (fun c => { c with
    state := .reset, retained := [], rxUnacked := 0, busySeq := none, openLast := none, rxOpen := false, reads := []
    peerAsked := false })
  let s2 := freePending k { s1 with fabric := { s1.fabric with windows := mapVals {} (fun x =>
    { x with inflight := x.inflight.filter (fun l => l.1 != 2 * k) }) s1.fabric.windows } }
  endOpen k stAborted (forAll waiting (fun a x => failOp x.1 x.2 fPeerReset a) s2)

/-- Channels that are not closed and satisfy a test. -/
def openKeys (s : State) (f : Nat → Chan → Bool) : List Nat :=
  (s.fabric.chans.filter (fun c => !(c.2.state == .closed) && f c.1 c.2)).map (·.1)

end Sys2Proof.Machine
end

