-- ==== Sys2Proof/Machine/MemberOps.lean ====
section
/-!
DEFINITION. Members that go down, return or are gone, peers' admissions, and the routing table (R393, R394, R400, R409,
R410, R550 to R553, R571, R573 to R577).
-/
namespace Sys2Proof.Machine

/-! ### Routing (R394, R400) -/

/-- Is the mapping that the port has observed the one that the plan gives it (R389)? -/
def mapped (s : State) (p : Nat) : Bool :=
  match s.fabric.plan[p]? with
  | some e => (getPort s p).state != .quarantine && e.plane == (getPort s p).planeSeen && e.swport == (getPort s p).swport
  | none => false

/-- The routing table from the reports held of ports whose mapping matches the plan: for each fabric id, the mask of planes
that reach it. -/
def rebuildRoutes (s : State) : State :=
  let add := fun (m : SMap Nat) (p : Nat) =>
    let plane := ((s.fabric.plan[p]?).map (·.plane)).getD p
    (mapGet [] s.fabric.reach p).foldl (fun m' id => mapSet 0 m' id (setBit (mapGet 0 m' id) plane true)) m
  { s with fabric := { s.fabric with routes := (portList.filter (mapped s)).foldl add [] } }

/-! ### Channels opening (R408 to R410) -/

/-- The epoch after `e`: at most 65,535, then 1 (R410). -/
def nextEpoch (e : Nat) : Nat := if e < 65535 then e + 1 else 1

/-- The later of a channel's two direction epochs: one direction may have rolled (R410). -/
def chanEpoch (c : Chan) : Nat := max c.epoch c.txEpoch

/-- A channel's open is asked for: it is OPENING at its next epoch, and OPEN at once if the peer has asked already. Epoch 1
after epoch 65,535 waits for a new pair key (R410). -/
def openChan (k port low high : Nat) (s : State) : State :=
  let s1 := mgmtSend (keyPeer k) mgmtOpen [keyNum k, nextEpoch (chanEpoch (getChan s k))] s
  let s2 := if chanEpoch (getChan s k) < 65535 then s1 else askRekey k s1
  modChan s2 k (fun c =>
    { state := if c.peerAsked then .opened else .opening, port := port, epoch := nextEpoch (chanEpoch c),
      txEpoch := nextEpoch (chanEpoch c), low := low, high := high, rekey := decide (65535 ≤ chanEpoch c) })

/-- The peer's request has arrived: an OPENING channel becomes OPEN, its `CHANNEL_OPEN` is answered, and what waits in it goes
out. -/
def peerOpens (k : Nat) (s : State) : State :=
  if (getChan s k).state == .opening then pump k (endOpen k stSuccess (modChan s k (fun c => { c with state := .opened })))
  else if (getChan s k).state == .opened then s
  else modChan s k (fun c => { c with peerAsked := true })

/-- A channel in RESET asks to be opened again, on its port. -/
def reopenChan (k : Nat) (s : State) : State :=
  let c := getChan s k
  openChan k c.port c.low c.high s

/-- Open again every channel in RESET that a test selects, on a port that is UP (R389), but for peers that are gone (R552,
R553). -/
def reopenWhere (f : Nat → Bool) (s : State) : State :=
  forAll (openKeys s (fun k c => c.state == .reset && f k && portUp s c.port && attested s (keyPeer k) && !(getPeer s (keyPeer k)).gone)) (fun a k => reopenChan k a) s

/-- Every channel in RESET, when this module is the one that returns. -/
def reopenAll (s : State) : State := reopenWhere (fun _ => true) s

/-! ### Serving again (R392, R549, R552) -/

def isServing (m : ModState) : Bool := m = .unclaimed || m = .claimed

/-- The module serves again after another state: its RESET channels ask to be opened, and a report that is due goes out. -/
def serveAgain (was : ModState) (s : State) : State :=
  if isServing was || !isServing s.life.state then s
  else
    let s1 := askAll (reopenAll s)
    match s1.life.reportDue with
    | some (l, v) => reportSend (fun p => .memberReport p false l v) { s1 with life := { s1.life with reportDue := none } }
    | none => s1

/-- Enter or leave NOT READY, or end a start-up, as ports and host link say. -/
def backReady (s : State) : State := serveAgain s.life.state (settleReady s)

/-! ### Commit and abort sent again (R552) -/

/-- The manager's decision on its last steps goes to a member: the last commit, then the abort of an uncommitted step. -/
def resendStep (m : Nat) (s : State) : State :=
  if !isManager s then s
  else
    let s1 := if s.cond.nextStep = 0 then s else sendCommit (s.cond.nextStep - 1) s.cond.lastNotices s m
    match s.cond.current, s.cond.abort with
    | some r, some a => stepSend m 0x04 [r.step, a.code] s1
    | _, _ => s1

/-- Channel 0 to a member that is owed them has opened. -/
def payOwed (m : Nat) (s : State) : State :=
  if s.cond.owed.contains m && chanOpen s (chanKey m 0) then
    resendStep m { s with cond := { s.cond with owed := s.cond.owed.filter (· != m) } }
  else s

/-! ### Windows (R421, R424) -/

def winPeers (x : Window) : List Nat := (x.params.map (·.peers)).getD []

/-- A window's notice to one peer. -/
def sendNotice (w peer : Nat) (s : State) : State :=
  match (getWin s w).params with
  | some p => mgmtSend peer mgmtNotice [w, (getWin s w).epoch, p.ops, p.bound] s
  | none => s

def openWindows (s : State) (f : Window → Bool) : List Nat :=
  (s.fabric.windows.filter (fun kv => kv.2.isOpen && f kv.2)).map (·.1)

/-! ### Down, up and gone (R550 to R553) -/

/-- This module's step tasks stop for a manager that is down: cancelled, faulted with `ABORTED` and parked; the step's
other state stays (R551). -/
def parkForManager (s : State) : State :=
  forAll tileList (fun a t => forAll (stepTasks a t) (fun b k => faultTask t k fAborted 0 (cancelOps t k b)) a) s

def isJobManager (s : State) (m : Nat) : Bool :=
  match s.job with
  | some j => j.manager == m
  | none => false

/-- `FM_MEMBER_DOWN`. -/
def memberDown (m : Nat) (s : State) : State :=
  let s1 := forAll (openKeys s (fun k _ => keyPeer k == m)) (fun a k => resetChan k a) s
  let s2 := forAll (openWindows s1 (fun x => (winPeers x).contains m)) (fun a w => winDiscard w a) s1
  let s3 := releaseWaits (barPeerLost m s2)
  if isManager s3 && jobMember s3 m then
    let s4 := if s3.cond.current.isSome then esFault fPeerReset 0 s3 else s3
    mgrAbort fPeerReset false { s4 with cond := { s4.cond with
      downMembers := if s4.cond.downMembers.contains m then s4.cond.downMembers else s4.cond.downMembers ++ [m] } }
  else if isJobManager s3 m then parkForManager s3
  else s3

/-- `FM_MEMBER_UP`. -/
def memberUp (m : Nat) (s : State) : State :=
  let s1 := reopenWhere (fun k => keyPeer k == m) s
  let s2 := forAll (openWindows s1 (fun x => (winPeers x).contains m)) (fun a w => sendNotice w m a) s1
  if isManager s2 && jobMember s2 m then
    payOwed m { s2 with cond := { s2.cond with
      downMembers := s2.cond.downMembers.filter (· != m)
      owed := if s2.cond.owed.contains m then s2.cond.owed else s2.cond.owed ++ [m] } }
  else s2

/-- A peer's admission ends: its channels enter RESET and its keys are dropped (R577). -/
def endAdmission (m : Nat) (s : State) : State :=
  let s1 := forAll (openKeys s (fun k _ => keyPeer k == m)) (fun a k => resetChan k a) s
  modPeer s1 m (fun p => { p with
    admitted := false, answered := false, secretOut := 0, secretIn := 0, generation := 0, pairKey := 0, oldKey := 0
    txCounter := 0, rxCounter := 0 })

/-- `FM_MEMBER_GONE`: the uncommitted step of a job that holds the member is discarded; its manager writes a JOB_FAULT
record and forms no further step. -/
def memberGone (m : Nat) (s : State) : State :=
  let s1 := modPeer (endAdmission m s) m (fun p => { p with gone := true })
  if !jobMember s1 m then s1
  else
    let step := match s1.cond.current with
      | some r => r.step
      | none => s1.cond.nextStep
    let s2 := discardStep s1
    if isManager s1 then
      jobFaultRecord step fPeerReset s1.cond.aborts { s2 with cond := { s2.cond with stopped := true } }
    else s2

/-! ### Peer admission (R573 to R577) -/

/-- The pair key of a generation (R574). -/
def pairKeyOf (s : State) (m : Nat) (p : Peer) : Nat :=
  let lo := if ownId s < m then p.secretOut else p.secretIn
  let hi := if ownId s < m then p.secretIn else p.secretOut
  Config.hmac (le 32 lo ++ le 32 hi) (ascii "UMA9PAIR" ++ le 1 (min (ownId s) m) ++ le 1 (max (ownId s) m) ++ le 4 p.generation)

/-- Both exchanges are done: the pair has its key. -/
def settlePair (m : Nat) (s : State) : State :=
  let p := getPeer s m
  if p.admitted && p.answered && p.pairKey == 0 then
    modPeer s m (fun x => { x with pairKey := pairKeyOf s m x, gone := false })
  else s

/-- A VL3 message under the pair key: none when its tag fails or its counter does not increase (R575). -/
def mgmtRecv (m counter : Nat) (tagOk : Bool) (s : State) : Option State :=
  let p := getPeer s m
  if p.admitted && tagOk && decide (p.rxCounter < counter) then some (modPeer s m (fun x => { x with rxCounter := counter }))
  else none

/-- Result of a peer's report: the first failing check (R573). -/
def peerResult (s : State) (r : PeerReport) : Nat :=
  let m2 := mapGet 0 s.sec.meas 2
  if !r.answered then 1
  else if !r.chainOk then 2
  else if !r.signatureOk then 3
  else if r.m5 != mapGet 0 s.sec.meas 5 then 4
  else if (if s.sec.allow.isEmpty then r.m2 != m2 else !s.sec.allow.contains r.m2) then 5
  else if r.debug != 0 then 6
  else if r.failed then 7
  else 0

/-- A new pair key: every channel of the pair begins epoch 1 under it (R576). -/
def rekeyPair (m secret : Nat) (s : State) : State :=
  let s1 := modPeer s m (fun p => { p with
    oldKey := p.pairKey, pairKey := Config.hmac (le 32 p.pairKey ++ le 32 secret) (ascii "UMA9REKY" ++ le 4 (p.generation + 1))
    generation := p.generation + 1 })
  forAll (openKeys s1 (fun k c => keyPeer k == m && c.state != .reset)) (fun a k =>
    pump k (modChan a k (fun c => { c with rekey := false, rolls := true, rxOld := true }))) s1

end Sys2Proof.Machine
end

