-- ==== Sys2Proof/Machine/PortOps.lean ====
section
/-!
DEFINITION. Optical ports: link frames, light, training, the mapping check and what follows when a port leaves UP
(spec/14_optical_ports.md).
-/
namespace Sys2Proof.Machine

/-- `PS_CAUSE` codes (R396). -/
def pcNoLight : Nat := 1
def pcLaneLock : Nat := 2
def pcDeskew : Nat := 3
def pcIdTimeout : Nat := 4
def pcLaneFail : Nat := 5
def pcRetryLimit : Nat := 6
def pcReach : Nat := 7
def pcVersion : Nat := 8
def pcMapMismatch : Nat := 9
def pcNoPlan : Nat := 10
def pcRetrain : Nat := 11
def pcDisabled : Nat := 12
def pcReset : Nat := 13

def portStateCode : PortState → Nat
  | .down => 0 | .training => 1 | .quarantine => 2 | .up => 3

def portsUp (s : State) : Nat := (portList.filter (portUp s)).length

/-- Report a port's entry into DOWN or QUARANTINE, or its return to UP, over a port that carries frames (R395, R500); the last
training of a start-up ends it (R508). -/
def portReport (port before : Nat) (s : State) : State :=
  let x := getPort s port
  let s1 := reportSend (fun v => .portReport v port (portStateCode x.state) x.cause) (esRaise 7 s)
  backReady (if (before == 10) != (portsUp s1 == 10) then pldmSend 0x000F (portsUp s1) s1 else s1)

/-- Fault every step task of the module with `ABORTED`. -/
def abortStepTasks (s : State) : State :=
  forAll tileList (fun a t => forAll (stepTasks a t) (fun b k => faultTask t k fAborted 0 b) a) s

/-- What the link layer holds is discarded (R393). -/
def clearLink (x : Port) : Port := { x with replay := [], replayRun := 0, txWait := [], rxLane := [], badWords := [], minor := 0xFF }

/-- A port has left UP (R393): its channels are RESET, the module's step task faults, the module is NOT READY. -/
def leaveUp (port : Nat) (s : State) : State :=
  let s1 := modPort s port clearLink
  let s2 := forAll (openKeys s1 (fun _ c => c.port == port)) (fun a k => resetChan k a) s1
  let s3 := if s2.job.isSome then abortStepTasks s2 else s2
  backReady s3

/-- A port goes DOWN with a cause. -/
def portDown (port cause : Nat) (s : State) : State :=
  let x := getPort s port
  if x.state == .down then s
  else
    let n := portsUp s
    let s1 := modPort s port (fun y => { (clearLink y) with state := .down, cause := cause, step := 0, idTwice := false })
    let s2 := if x.state == .up then leaveUp port s1 else s1
    portReport port n s2

/-- A port goes to QUARANTINE with a cause. -/
def portQuarantine (port cause : Nat) (s : State) : State :=
  let x := getPort s port
  let n := portsUp s
  let s1 := modPort s port (fun y => { y with state := .quarantine, cause := cause, minor := 0xFF, step := 0 })
  let s2 := if x.state == .up then leaveUp port s1 else s1
  portReport port n (rebuildRoutes s2)

/-- A port goes UP: its mapping matches the plan, so that the reports held of it count (R389, R400). -/
def portGoUp (port minor : Nat) (s : State) : State :=
  let n := portsUp s
  let s1 := modPort s port (fun y => { y with state := .up, minor := minor, step := 0 })
  portReport port n (backReady (rebuildRoutes s1))

/-- Does light reach every lane and the port's laser input? -/
def portLight (x : Port) : Bool := x.laserOk && x.lanesOk == 0xFF

/-- Can ports train? From step 10 of start-up on, and as CARDAMOM restarts after a core reset or on the exit from standby;
in OFF and STANDBY they are held DOWN (R508, R546, R582). -/
def portsRun (s : State) : Bool :=
  match s.life.boot with
  | .portsTraining => true
  | .coreScrub => true
  | .done => s.life.state != .off && s.life.state != .standby
  | _ => false

/-- A training attempt begins; the frames of the new link count from 0 (DESIGN CHOICE, log 126). -/
def startTraining (port : Nat) (s : State) : State :=
  let x := getPort s port
  if x.state == .down && !x.disabled && portLight x && portsRun s then
    modPort s port (fun y => { y with
      state := .training, step := 1, trains := satAdd 32 y.trains 1, useSaved := y.saved.isSome, fromSaved := false
      idRec := none, idTwice := false, txSeq := 0, rxSeq := 0 })
  else s

/-- Negotiated minor version of a neighbour's record, or none when the versions are incompatible (R388). -/
def negotiate (r : IdRecord) : Option Nat :=
  if r.major != 2 || decide (3 < r.minLo) || decide (r.minHi < r.minLo) then none else some (min 3 r.minHi)

/-- Does the observed mapping match a plan entry (R389)? -/
def mapMatches (e : PlanEntry) (r : IdRecord) : Bool := r.role == 1 && e.plane == r.plane && e.swport == r.port

/-- Version negotiation and mapping check (R388, R389). -/
def checkMapping (port : Nat) (r : IdRecord) (s : State) : State :=
  match negotiate r with
  | none => portQuarantine port pcVersion s
  | some m =>
    match s.fabric.plan[port]? with
    | none => portQuarantine port pcNoPlan s
    | some e => if mapMatches e r then portGoUp port m s else portQuarantine port pcMapMismatch s

/-- Reports that another plane or switch port sent are not this port's (R389). -/
def dropReach (port : Nat) (r : IdRecord) (s : State) : State :=
  if (getPort s port).planeSeen == r.plane && (getPort s port).swport == r.port then s
  else { s with fabric := { s.fabric with reach := mapSet [] s.fabric.reach port [] } }

/-- Step 4 has ended: the identity is compared with that of the saved coefficients, the loop with its limits (R382,
R386). -/
def endIdentity (port loopNs : Nat) (s : State) : State :=
  let x := getPort s port
  match x.idRec, x.idTwice with
  | some r, true =>
    if x.useSaved && x.saved != some (r.serial, r.port) then
      modPort s port (fun y => { y with step := 2, useSaved := false, idRec := none, idTwice := false })
    else
      let s1 := modPort (dropReach port r s) port (fun y => { y with loopNs := loopNs, reach := decide (697 < loopNs) })
      if 1500 < loopNs then portDown port pcReach s1
      else modPort s1 port (fun y => { y with
        step := 5, fromSaved := y.useSaved, saved := some (r.serial, r.port), serialSeen := r.serial
        planeSeen := r.plane, swport := r.port })
  | _, _ => s

/-- A training step completes. -/
def trainStep (port loopNs : Nat) (s : State) : State :=
  let x := getPort s port
  if x.state != .training then s
  else if x.step = 1 then (if portLight x then modPort s port (fun y => { y with step := 2 }) else s)
  else if x.step = 2 || x.step = 3 then modPort s port (fun y => { y with step := y.step + 1 })
  else if x.step = 4 then endIdentity port loopNs s
  else match x.idRec with
    | some r => checkMapping port r s
    | none => s

/-- Cause of a step that exceeds its bound; the fifth always ends. -/
def stepCause : Nat → Option Nat
  | 1 => some pcNoLight
  | 2 => some pcLaneLock
  | 3 => some pcDeskew
  | 4 => some pcIdTimeout
  | _ => none

/-- An identity frame (R387). A frame with a bad CRC breaks the succession. From a port that has trained, another
neighbour's record takes the port DOWN; the spec names no cause for it, which is a free value. -/
def identity (port : Nat) (r : IdRecord) (s : State) : State :=
  let x := getPort s port
  if x.state == .training then
    (if x.step != 4 then s
     else if !r.crcOk then modPort s port (fun y => { y with idRec := none, idTwice := false })
     else modPort s port (fun y => { y with idRec := some r, idTwice := decide (y.idRec = some r) }))
  else if linkUp s port && r.crcOk && x.saved != some (r.serial, r.port) then
    let (c, s1) := takeFree 8 s
    portDown port c s1
  else s

/-! ### The plan (R389, R390) -/

/-- A plan that is accepted acts on every port at once. -/
def replanPort (s : State) (port : Nat) : State :=
  let x := getPort s port
  match x.idRec with
  | none => s
  | some r =>
    if x.state == .quarantine && (x.cause == pcMapMismatch || x.cause == pcNoPlan) then
      (match negotiate r, s.fabric.plan[port]? with
       | some m, some e => if mapMatches e r then portGoUp port m s
           else if x.cause == pcNoPlan then portQuarantine port pcMapMismatch s else s
       | _, _ => s)
    else if x.state == .up then
      (match s.fabric.plan[port]? with
       | some e => if mapMatches e r then s else portQuarantine port pcMapMismatch s
       | none => portQuarantine port pcNoPlan s)
    else s

/-! ### Frames (R376 to R380, R391, R414) -/

/-- Free the replay frames up to and including `ack`. -/
def frameAck (port ack : Nat) (s : State) : State :=
  let x := getPort s port
  let kept := x.replay.filter (fun q => !decide ((ack + 4096 - q.seq) % 4096 < 2048))
  let s1 := modPort s port (fun y => { y with
    replay := kept, replayRun := if kept.length < x.replay.length then 0 else y.replayRun })
  pumpFrames port 128 s1

/-- Replay from a named frame on; the frames before it have been received. -/
def frameNak (port seq : Nat) (s : State) : State :=
  let s1 := frameAck port ((seq + 4095) % 4096) s
  let x := getPort s1 port
  let again := x.replay.filter (fun q => decide ((q.seq + 4096 - seq) % 4096 < 2048))
  if again.isEmpty then s1
  else
    let s2 := modPort s1 port (fun y => { y with
      replays := satAdd 32 y.replays again.length, replayRun := y.replayRun + 1 })
    let s3 := evHub 0x8C port 1 (evHub 0x8B port again.length s2)
    forAll again (fun a q => sendFrame port 0 q.seq q.payload a) s3

/-- Answer with a negative acknowledge that names the frame expected. -/
def nakFrame (port : Nat) (s : State) : State := sendFrame port 2 (getPort s port).rxSeq [] s

/-- The receive buffer with a frame's bytes of VL0, VL1 and VL2. Management and step messages leave it as they come. -/
def rxWith (x : Port) (lanes : List Nat) : SMap Nat :=
  (List.range 3).foldl (fun m i => mapMod 0 m i (fun n => n + lanes.getD i 0)) x.rxLane

/-- Has the buffer room for the frame? The sender has credit for no other (R414). -/
def rxRoom (x : Port) (lanes : List Nat) : Bool := decide (rxShared { x with rxLane := rxWith x lanes } ≤ 262144)

/-- Step and management messages do not stay in the buffer; their payload is counted as they come. -/
def msgsArrive (port : Nat) (direct : List Nat) (s : State) : State :=
  forAll (List.range 4) (fun a i => evCount 8 0x89 port i (ceilDiv (direct.getD i 0) 64) a) s

/-- A good data frame: in order it is delivered, else a negative acknowledge names the frame expected; one that was received
before is acknowledged again. A frame without room is not received (DESIGN CHOICE, log 126). -/
def frameIn (port seq ack : Nat) (lanes direct : List Nat) (s : State) : State :=
  let s1 := frameAck port ack s
  let x := getPort s1 port
  let d := (seq + 4096 - x.rxSeq) % 4096
  if d = 0 && rxRoom x lanes then
    sendFrame port 1 x.rxSeq [] (modPort (msgsArrive port direct s1) port (fun y => { y with
      rxSeq := (y.rxSeq + 1) % 4096, rxLane := rxWith y lanes }))
  else if d < 2048 then nakFrame port s1
  else sendFrame port 1 (linkAck s1 port) [] s1

/-- Codewords with errors of the last 1 ms. -/
def wordsHeld (s : State) (x : Port) : List BadWord := x.badWords.filter (fun w => decide (s.life.aonNs < w.time + 1000000))

/-- The codewords of a frame: counted, and noted for R391. More than 16 that could not be corrected within 1 ms fail the lanes
that carried symbols in error in it. -/
def codewords (port : Nat) (errs : List (List Nat)) (s : State) : State :=
  let lost := (errs.filter (fun e => !corrects e)).length
  let fixed := ((errs.filter corrects).map List.length).sum
  let words := (errs.filter (fun e => !e.isEmpty)).map (fun e => (⟨s.life.aonNs, errLanes e, !corrects e⟩ : BadWord))
  let s1 := modPort s port (fun x => { x with
    uncorr := satAdd 32 x.uncorr lost, badWords := wordsHeld s x ++ words })
  let s2 := evHub 0x8E port fixed (evHub 0x8D port lost s1)
  let l := (getPort s2 port).badWords
  if 16 < (l.filter (·.lost)).length then
    portDown port pcLaneFail (modPort s2 port (fun x => { x with laneBad := l.foldl (fun m w => m ||| w.lanes) 0 }))
  else s2

/-- A frame arrives: one that fails its CRC, or contains a codeword that could not be corrected, is discarded. -/
def frameArrives (port : Nat) (crcOk : Bool) (errs : List (List Nat)) (f : State → State) (s : State) : State :=
  if !linkUp s port then s
  else
    let s1 := codewords port errs s
    if !linkUp s1 port then s1 else if crcOk && errs.all corrects then f s1 else nakFrame port s1

/-! ### Light (R375, R384) -/

/-- One sample of a port's laser input and lanes. -/
def lightPort (lasersOk lanesOk : Nat) (s : State) (port : Nat) : State :=
  let laser := bit lasersOk (port / 5)
  let lanes := bits lanesOk (8 * port + 7) (8 * port)
  modPort s port (fun x => { x with
    laserOk := laser, lanesOk := lanes, laserBad := if laser then 0 else x.laserBad + 1
    laneRuns := (List.range 8).foldl (fun m i => mapSet 0 m i (if bit lanes i then 0 else mapGet 0 x.laneRuns i + 1)) [] })

/-- Ports that a laser input feeds. -/
def laserPorts (i : Nat) : List Nat := portList.filter (fun p => p / 5 == i)

end Sys2Proof.Machine
end

