-- ==== Sys2Proof/Machine/CloseOps.lean ====
section
/-!
DEFINITION. Windows, channels, rings and slot granules as they are closed, destroyed and released, and the long mailbox
commands that wait for it (R81, R296, R409, R425, R485, R491, R557).
-/
namespace Sys2Proof.Machine

/-! ### Windows (R425, R443) -/

/-- Touch bits that a staging buffer takes on each controller. -/
def addTouch (base bound : Nat) (s : State) (m : SMap Nat) : SMap Nat :=
  (lineOffsets bound).foldl (fun a o => mapMod 0 a (mcOf s (base + o)) (· + 1)) m

def dropTouch (base bound : Nat) (s : State) (m : SMap Nat) : SMap Nat :=
  (lineOffsets bound).foldl (fun a o => mapMod 0 a (mcOf s (base + o)) (· - 1)) m

/-- Is a window's in-flight count zero: every packet it accepted applied and acknowledged? -/
def winIdle (s : State) (w : Nat) : Bool :=
  let x := getWin s w
  x.inflight.isEmpty && x.lastsWait.isEmpty && !(allAccums s).any (fun a => a.isWindow && a.window == w)

/-- Has the epoch in progress received anything? -/
def epochBegun (x : Window) : Bool := hasEpochs x && (x.begun || x.accepted != 0)

/-- Close a window: its claims are released, which leaves the granules EMPTY. -/
def closeWin (w : Nat) (s : State) : State :=
  let x := getWin s w
  match x.params with
  | none => s
  | some p =>
    let s1 := forAll x.claimed (fun a g => unclaimOut (ownerWin w) p.tile g a) s
    let s2 := if epochBegun x then esWindow s1 else s1
    let s3 := match p.staging with
      | some b => { s2 with fabric := { s2.fabric with touchUsed := dropTouch b p.bound s2 s2.fabric.touchUsed } }
      | none => s2
    { s3 with fabric := { s3.fabric with
      windows := mapSet {} s3.fabric.windows w {}
      accums := mapVals [] (fun l => l.filter (fun a => !(a.isWindow && a.window == w))) s3.fabric.accums } }

/-! ### Channels (R409, R410) -/

/-- A channel becomes CLOSED; its epochs go on at its next open. -/
def closeChan (k : Nat) (s : State) : State :=
  freePending k (modChan s k (fun c => { epoch := c.epoch, txEpoch := c.txEpoch }))

/-- Is every packet that the channel sent acknowledged? -/
def chanIdle (s : State) (k : Nat) : Bool := (getChan s k).retained.isEmpty

/-! ### Rings (R425, R458, R468, R491, R617) -/

/-- Drop a watched line from the device cache. -/
def cleanEvict (addr : Nat) (s : State) : State :=
  let s1 := emit s (.d2h s.host.nextD2h d2hCleanEvict addr [])
  { s1 with host := { s1.host with nextD2h := s1.host.nextD2h + 1 } }

/-- Does a task of the ring still wait or run? -/
def ringHasTasks (s : State) (ring : Nat) : Bool :=
  let mine := fun (x : TaskSource) => match x with
    | .ring r _ => r == ring
    | _ => false
  tileList.any (fun t => (getTile s t).tasks.any (fun kv => mine kv.2.source) || (getTile s t).queue.any (fun w => mine w.source))

/-- Has a work ring nothing in flight: every descriptor read has retired, or, when its completion ring takes no records,
every task of it has ended? -/
def ringIdle (s : State) (ring : Nat) : Bool :=
  let r := getRing s ring
  let asked := s.host.d2h.any (fun x => match x.2 with
    | .descriptor n _ => n == ring
    | _ => false)
  if (getCq s r.cq).state == .active then r.slots.isEmpty && !asked else !ringHasTasks s ring

/-- The number of descriptors that a ring has retired, and the state without the ring. -/
def endRing (ring : Nat) (s : State) : Nat × State :=
  let r := getRing s ring
  let s1 := if r.watched then cleanEvict r.tailAddr s else s
  let mine := fun (u : D2hUse) => match u with
    | .tailLine n => n == ring
    | .descriptor n _ => n == ring
    | _ => false
  (r.prog, { s1 with host := { s1.host with
    rings := mapSet {} s1.host.rings ring {}, d2h := s1.host.d2h.filter (fun x => !mine x.2) } })

/-- Has a completion ring nothing to write? -/
def cqIdle (s : State) (c : Nat) : Bool := (getCq s c).waiting.isEmpty && (getCq s c).writing.isNone

def endCq (c : Nat) (s : State) : State :=
  let x := getCq s c
  let s1 := if x.watched then cleanEvict x.headAddr s else s
  let mine := fun (u : D2hUse) => match u with
    | .headLine n => n == c
    | .recordLines n => n == c
    | .recordLine0 n => n == c
    | _ => false
  { s1 with host := { s1.host with cqs := mapSet {} s1.host.cqs c {}, d2h := s1.host.d2h.filter (fun x => !mine x.2) } }

/-! ### Slot granules (R81) -/

/-- Does an issued op hold a claim on a granule? -/
def opClaims (s : State) (tile g : Nat) : Bool :=
  inClaim s tile g != 0 || outClaim s tile g % 2 == 1

/-- Set a released granule EMPTY, once no op holds it. -/
def releaseGranule (tile g : Nat) (s : State) : State := if opClaims s tile g then s else setTag tile g tagEmpty s

def allEmpty (s : State) (tile first count : Nat) : Bool :=
  (List.range count).all (fun i => getTag s tile (first + i) == tagEmpty)

/-! ### Segment tables (R296) -/

/-- Have both engines of every tile swapped the slot's banks? -/
def tableSwapped (s : State) (slot : Nat) : Bool :=
  tileList.all (fun t => [0, 1].all (fun g => !(mapGet {} s.cfg.tables (tableKey t g slot)).shadowReady))

/-- Is the engine between ops? -/
def smBoundary (s : State) (tile engine : Nat) : Bool := !engineHasOp s tile 3 engine

/-- One engine swaps the slot's banks. -/
def swapTable (tile engine slot : Nat) (s : State) : State :=
  { s with cfg := { s.cfg with tables := mapMod {} s.cfg.tables (tableKey tile engine slot) (fun x =>
    if x.shadowReady then { active := x.shadow, shadow := x.active, loaded := true, shadowReady := false } else x) } }

/-! ### The command in progress (R485, R557) -/

/-- Opcode of a long command (R491). -/
def longCode : LongCmd → Nat
  | .none => 0
  | .windowClose _ _ => 0x0509
  | .chanClose _ _ => 0x0507
  | .chanOpen _ _ => 0x0506
  | .ringDestroy _ _ => 0x0405
  | .cqDestroy _ _ => 0x0407
  | .slotRelease _ _ _ _ => 0x0409
  | .tableLoad _ _ => 0x0609
  | .peerAttest _ _ => 0x0503
  | .collect _ _ => 0x0801

/-- Answer the command in progress and free the executor. -/
def finishLong (q : Req) (body : List Byte) (s : State) : State :=
  respond q (longCode s.mgmt.executing) stSuccess body (freeExecutor s)

/-- Complete the command in progress if what it waits for has come about. -/
def tryFinish (s : State) : State :=
  match s.mgmt.executing with
  | .windowClose q w => if winIdle s w then finishLong q [] (closeWin w s) else s
  | .chanClose q k => if chanIdle s k then finishLong q [] (closeChan k s) else s
  | .chanOpen _ k => if chanOpen s k then endOpen k stSuccess s else s
  | .ringDestroy q r =>
    if ringIdle s r then let e := endRing r s; finishLong q (le 8 e.1) e.2 else s
  | .cqDestroy q c => if cqIdle s c then finishLong q [] (endCq c s) else s
  | .slotRelease q t f n => if allEmpty s t f n then finishLong q [] s else s
  | .tableLoad q slot => if tableSwapped s slot then finishLong q [] s else s
  | _ => s

/-- Begin a command that may wait: it answers at once when nothing is in flight. -/
def beginLong (l : LongCmd) (s : State) : Answer := .later (tryFinish { s with mgmt := { s.mgmt with executing := l } })

/-! ### The recovery dump's header (R539 to R542) -/

def dumpBase : Nat := 0x7FFC000000

/-- The header of the dump; `flags` as `DH_FLAGS`. -/
def dumpHeader (aon : Bool) (flags size sections : Nat) (s : State) : List Byte :=
  layout 64 [(0, 4, ofBytes (ascii "UDMP")), (4, 2, 1), (6, 1, aon.toNat), (7, 1, flags), (8, 8, s.life.aonNs), (16, 4, size),
    (20, 2, sections), (22, 1, modStateCode s.life.state), (24, 4, s.life.rcDumpSeq + 1)]

/-- A collection is over: `RC_DUMP_STATE` 2 complete or 3 ended by a reset. -/
def collected (aon : Bool) (state : Nat) (s : State) : State :=
  { s with life := { s.life with rcDumpState := state, rcDumpSeq := satAdd 32 s.life.rcDumpSeq 1, rcDumpBy := aon.toNat } }

/-- A reset ends a collection that still waits for issued ops: no section is written, and the header lacks the complete flag
(R540). -/
def cutCollect (s : State) : State := collected false 3 (pkgWrite 1 0 dumpBase (dumpHeader false 0 64 0 s) false s)

/-- A reset or a standby entry ends the command in progress (R487): what it was closing is closed (R557). -/
def endLong (s : State) : State :=
  let s1 := match s.mgmt.executing with
    | .windowClose _ w => closeWin w s
    | .chanClose _ k => closeChan k s
    | .ringDestroy _ r => (endRing r s).2
    | .cqDestroy _ c => endCq c s
    | .collect _ _ => cutCollect s
    | _ => s
  { s1 with
    mgmt := { s1.mgmt with executing := .none, waiting := [], resuming := false }
    fabric := { s1.fabric with attest := none }
    cfg := { s1.cfg with tables := mapVals {} (fun x => { x with shadow := [], shadowReady := false }) s1.cfg.tables } }

/-- The response of a command that a reset has ended: status `ABORTED` beside its opcode and tag. -/
def abortMb (m : Mailbox) : Mailbox :=
  if m.busy then
    { m with
      busy := false, done := true, status := stAborted, flags := 2, payload := []
      hdrShadow := mbHeld (mbHeader m.opcode m.tag 0 stAborted 2) }
  else m

/-- Which event a CLOSE_DRAIN_COMPLETE names: 0 a window, 1 a channel, 2 a work ring, 3 a completion ring. -/
def drainIs (l : LongCmd) (kind index : Nat) : Bool :=
  match l, kind with
  | .windowClose _ w, 0 => w == index
  | .chanClose _ k, 1 => k == index
  | .ringDestroy _ r, 2 => r == index
  | .cqDestroy _ c, 3 => c == index
  | _, _ => false

end Sys2Proof.Machine
end

