-- ==== Sys2Proof/Machine/LifeOps.lean ====
section
/-!
DEFINITION. Start-up, core reset, module reset, standby, thermal shutdown and input loss (spec/19_startup.md R508 to R510;
spec/21_recovery.md R544 to R549, R557; spec/18_mailbox.md R487, R493 to R497; R561, R580, R582, R592).
-/
namespace Sys2Proof.Machine

/-! ### Ring records at a reset (R159, R547 item 4, R548) -/

/-- Records of a completion ring that are not written yet. -/
def unwritten (c : CompRing) : List Record :=
  match c.writing with
  | some (r, _) => r :: c.waiting
  | none => c.waiting

/-- Does an update's record that waits say that it was accepted? -/
def wasAccepted (c : CompRing) (ring index : Nat) : Bool :=
  (unwritten c).any (fun r => r.kind == 0x02 && r.ring == ring && r.index == index
    && ofBytes ((r.bytes.drop 2).take 2) == 0 && ofBytes ((r.bytes.drop 20).take 4) == 0)

/-- `TASK_ID` of the task that a descriptor submitted: of the resident task, else as its descriptor in memory reads. -/
def taskIdOf (ring : Nat) (d : DescSlot) (s : State) : Nat × State :=
  let hit := tileList.findSome? (fun t => ((getTile s t).tasks.find? (fun kv => kv.2.source = .ring ring d.index)).map
    (fun kv => dTaskId kv.2.desc))
  match hit with
  | some x => (x, s)
  | none =>
    let (w, s1) := headWord (wdF d 8 8) s
    (dTaskId w, s1)

/-- The record of a descriptor read and without a record: an accepted update's stays; any other ends with `ABORTED`. -/
def endDesc (was : CompRing) (ring : Nat) (s : State) (d : DescSlot) : State :=
  if wdKind d == 0x01 then
    let (id, s1) := taskIdOf ring d s
    queueRecord (getRing s1 ring).cq d.index
      { kind := 0x01, ring := ring, fault := fAborted, tag := wdF d 4 4, seqno := d.index, w0 := id
        w2 := wdF d 2 1 % 8 } (takeDesc ring d.index s1)
  else if wasAccepted was ring d.index then updateRecord ring d.index (wdF d 20 2) upAccepted s
  else faultDesc ring fAborted d s

/-- Descriptors read in an unbroken run from the first not retired. -/
def unbroken (r : WorkRing) : List DescSlot :=
  (r.slots.zipIdx.filter (fun x => x.1.index == r.prog + x.2)).map (·.1)

/-- One ring's descriptors. -/
def endDescs (old : SMap CompRing) (s : State) (ring : Nat) : State :=
  let r := getRing s ring
  let l := unbroken r
  let s1 := modRing s ring (fun x => { x with slots := l, asked := r.prog + l.length, readCount := r.prog + l.length, watched := false })
  (l.filter (fun d => !d.ended)).foldl (endDesc (mapGet {} old r.cq) ring) s1

/-- Queue a record again as it stands. -/
def requeue (cq : Nat) (r : Record) (s : State) : State := modCq s cq (fun c => { c with waiting := c.waiting ++ [r] })

/-- The records that a reset leaves to be written: one for every descriptor read and without one, in submission order, the
TOKENS records of the last committed step that are missing, and the fault records that waited. -/
def ringRecords (s : State) : State :=
  let old := s.host.cqs
  let clear := mapVals {} (fun c => { c with waiting := [], writing := none, watched := false }) old
  let s1 := { s with host := { s.host with cqs := clear } }
  let s2 := (s1.host.rings.map (·.1)).foldl (endDescs old) s1
  let s3 := forAll s.cond.lastTokens (fun a x =>
    match (unwritten (mapGet {} old x.1)).find? (fun r => r.kind == 0x10 && r.bytes == x.2) with
    | some r => requeue x.1 r a
    | none => a) s2
  let s4 := forAll old (fun a kv => forAll ((unwritten kv.2).filter (fun r => r.kind == 0x11 || r.kind == 0x12))
    (fun b r => requeue kv.1 r b) a) s3
  { s4 with host := { s4.host with cqs := mapVals {} (fun c => { c with owed := c.waiting.length }) s4.host.cqs } }

/-- Write at once every record that waits, while its ring has room. -/
def writeOut (cq : Nat) : Nat → State → State
  | 0, s => s
  | n + 1, s =>
    let s1 := startRecord cq s
    if (getCq s1 cq).writing.isNone then s1
    else writeOut cq n (recordDone cq (recordLineDone cq (recordLineDone cq (recordLineDone cq s1))))

def writeAll (s : State) : State :=
  forAll (s.host.cqs.map (·.1)) (fun a c => writeOut c (getCq a c).waiting.length a) s

/-- Watched lines are fetched again (R546: the device cache has lost them). -/
def fetchWatched (s : State) : State :=
  let s1 := forAll (s.host.rings.map (·.1)) (fun a r => if (getRing a r).state == .active then fetchTail r a else a) s
  forAll (s.host.cqs.map (·.1)) (fun a c => if (getCq a c).state == .active then fetchHead c a else a) s1

/-! ### What every reset and a standby entry end in CARDAMOM (R487, R495, R566) -/

/-- A transfer that a reset ends leaves its slot EMPTY. -/
def fwSlotOf (s : State) (i : Nat) : FwSlot := if i = 0 then s.mgmt.slotA else s.mgmt.slotB
def modFwSlot (i : Nat) (f : FwSlot → FwSlot) (s : State) : State :=
  if i = 0 then { s with mgmt := { s.mgmt with slotA := f s.mgmt.slotA } }
  else { s with mgmt := { s.mgmt with slotB := f s.mgmt.slotB } }

def dropTransfer (s : State) : State :=
  match s.mgmt.transfer with
  | some t =>
    let s1 := if (fwSlotOf s t.slot).state == 1 then modFwSlot t.slot (fun _ => {}) s else s
    { s1 with mgmt := { s1.mgmt with transfer := none } }
  | none => s

/-- Test records of background commands: 2 pattern BIST, 3 port loopback, 4 board loopback. -/
def abortTests (s : State) : State :=
  { s with integ := { s.integ with records := mapVals {} (fun r => if r.status == 1 then { r with status := 4 } else r) s.integ.records } }

/-- CARDAMOM stops: the command in progress and the background commands end, and MB0 and MBM are no longer served. Bit 0
of `bgAborted` is a drain's result, bits 1 and 2 a BIST's and a loopback's. -/
def stopCardamom (s : State) : State :=
  let s1 := abortTests (endLong s)
  let b := s1.mgmt.bg
  { s1 with
    mgmt := { s1.mgmt with
      mb0 := { (abortMb s1.mgmt.mb0) with ready := false }
      bg := {}
      bgAborted := b.drain.isSome.toNat + 2 * b.bist.isSome.toNat + 4 * b.loopback.isSome.toNat }
    life := { s1.life with cardamomRuns := false } }

/-- Every pending session and offer is discarded. -/
def dropPending (s : State) : State := { s with sec := { s.sec with offer := none, pendingSession := none } }

/-- Every port goes DOWN with cause `RESET` (R396). -/
def portsReset (s : State) : State :=
  { s with fabric := { s.fabric with ports := mapVals {} (fun p =>
      { p with
        state := .down, cause := pcReset, minor := 0xFF, step := 0, idRec := none, idTwice := false, txSeq := 0, rxSeq := 0
        txWait := [], replay := [], replayRun := 0, rxLane := [], badWords := [] }) s.fabric.ports } }

def portsDownReset (s : State) : State :=
  let n := portsUp s
  let s1 := portsReset (forAll portList (fun a p => modPort a p (fun x => { x with cause := pcReset })) s)
  let s2 := forAll (portList.filter (fun p => (getPort s p).state != .down)) (fun a _ => esRaise 7 a) s1
  if n == 10 then pldmSend 0x000F 0 s2 else s2

/-! ### Core reset (R544 to R547) -/

/-- A step task that the reset has cancelled: it stays registered, parked. -/
def parkedAgain (k : Task) : Task :=
  { k with phase := .parked, pos := 0, block := [], loops := [], waitMet := 0, holdBy := none, arrived := [], fault := 0, faultOp := 0,
           status := {}, rebind := false }

/-- A tile after a core reset. -/
def resetTile (x : Tile) : Tile :=
  let keep := x.tasks.filter (fun kv => isStepTask kv.2)
  { x with
    tasks := keep.map (fun kv => (kv.1, parkedAgain kv.2)), queue := [], window := [], engines := [], pll := !keep.isEmpty
    groups := 0, latchHold := false, drains := [], quiesced := false }

def resetTiles (s : State) : State :=
  { s with tiles := mapVals {} resetTile s.tiles }

/-- Fence counters zero; barriers gone but the step barrier, which the AON holds; the pending queue empty. The step bases
are in AON (R150, R545, R547 item 3). -/
def resetFences (s : State) : State :=
  let b := getBarrier s 0
  let b0 : Barrier := { b with cur := b.done, arrivals := 0, rootNow := [], rootNext := [] }
  let f : Fences := { bases := s.fences.bases, barriers := if b.configured && s.stepSet.isSome then [(0, b0)] else [] }
  { s with fences := f }

/-- Every channel that is not CLOSED enters RESET. -/
def resetChans (s : State) : State := forAll (openKeys s (fun _ _ => true)) (fun a k => resetChan k a) s

/-- The conductor's and the member's state after a core reset: what the AON keeps, a step being formed given up. -/
def resetCond (s : State) : State :=
  let c := s.cond
  let back := match c.forming with
    | some r => r.notices ++ c.notices
    | none => c.notices
  { s with cond := { c with
      forming := none, prompts := [], notices := back, results := [], ownStatus := {}, ownReports := [], resultSent := false
      hdrSeen := none, toksSeen := none, bound := none, boundToks := [], abortingStep := none, residencyWait := 0
      owed := [], doneOwed := none } }

/-- The host link's requests in flight end; the device cache is empty. -/
def resetHostLink (s : State) : State :=
  { s with host := { s.host with d2h := [], stalled := [], dirty := [], answered := [] } }

/-- Event counters, selections and control at their reset values (R626). -/
def evcReset (s : State) : State := { s with evc := {} }

/-- The link is lost: its keys, and what the host could cache, are gone (R545). -/
def loseLink (s : State) : State :=
  { s with
    host := { s.host with trained := false, ide := [], filter := [], hdmError := false }
    life := { s.life with linkLost := s.sec.claimed } }

def anyPortUp (s : State) : Bool := portList.any (portUp s)

/-- Steps 1 to 4 of a core reset, whatever triggered it (cause as `RC_LAST_CAUSE`). -/
def coreReset (cause : Nat) (s : State) : State :=
  let s1 := vector0 (setModState .recovering s)
  let s2 := if anyPortUp s then reportSend (fun p => .memberReport p true 1 true) s1 else s1
  let s3 := { s2 with life := { s2.life with
    boot := .coreCardamom, hbCount := 0, hbStage := 2, rcLevel := 1, rcCause := cause, rcRecovering := 1
    rcCore := satAdd 32 s2.life.rcCore 1, rcTime := s2.life.aonNs, reportDue := some (1, true)
    linkLost := s2.life.linkLost && s2.sec.claimed } }
  let s4 := ringRecords (stopCardamom s3)
  let s5 := portsDownReset (resetChans (cacheFlush (resetTiles s4)))
  let s6 := clearFlips (slotFill (resetHostLink (resetCond (resetFences s5))))
  dropTransfer (dropPending (evcReset { s6 with
    cfg := { s6.cfg with attn := [] }
    pkg := { s6.pkg with chans := mapVals {} (fun x => { x with queue := [] }) s6.pkg.chans, touch := [] }
    fabric := { s6.fabric with accums := [], caps := [] } }))

/-- CARDAMOM restarts without a module reset: its firmware must measure as at boot (R561). -/
def measureAgain (m2digest : Nat) (s : State) : Bool :=
  mapGet 0 s.sec.meas 2 != 0 && Config.sha3 (le 32 0 ++ le 32 m2digest) == mapGet 0 s.sec.meas 2

/-- Every channel of every tile has its verifying lap to run. -/
def verifyKeys : SMap Bool := (List.range 512).map (fun k => (k, true))

/-- Step 5 of a core reset, and of the exit from standby. -/
def cardamomRestart (m2digest : Nat) (s : State) : State :=
  if measureAgain m2digest s then
    { s with
      life := { s.life with boot := .coreScrub, cardamomRuns := true, hbStage := 3 }
      mgmt := { s.mgmt with mb0 := { s.mgmt.mb0 with ready := true } }
      pkg := { s.pkg with
        verifying := verifyKeys, lapStart := (List.range 8).foldl (fun m t => mapSet 0 m t s.life.aonNs) []
        chans := mapVals {} (fun x => { x with scrubPos := 0 }) s.pkg.chans } }
  else enterFailed { s with life := { s.life with boot := .done, hbStage := 5, rcRecovering := 0 } }

/-- A window starts again after a core reset: its epoch in progress is discarded, a slot window claims its granules. -/
def restoreWindow (s : State) (w : Nat) : State :=
  let s1 := modWin s w (fun x => { x with claimed := [], inflight := [], folding := false, foldWait := [], closing := false })
  winBegin w (winDiscard w s1)

/-- The manager of a job takes up its steps again: an uncommitted step is aborted, and every member hears of the last commit
and of the abort (R552). -/
def restoreManager (s : State) : State :=
  match s.job with
  | some j =>
    if isManager s then
      let s1 := if s.cond.abort.isNone then mgrAbort fAborted false s else s
      let s2 := { s1 with cond := { s1.cond with owed := j.members.filter (· != ownId s) } }
      resendStep (ownId s) s2
    else s
  | none => s

/-- Residency tasks of the job are submitted again (R84, R92): slot memory is empty. -/
def submitResidency (s : State) : State :=
  match limitsOf s with
  | some p => forAll p.residency (fun a x =>
      let a1 := modTile a x.tile (fun y => { y with queue := y.queue ++ [⟨x.addr, .residency⟩] })
      { a1 with cond := { a1.cond with residencyWait := a1.cond.residencyWait + 1 } }) s
  | none => s

/-- The ops that a residency task's descriptor lists, as firmware reads them; a poisoned op names nothing. -/
def listedOps (addr : Nat) (s : State) : List OpWord × State :=
  let (r, s1) := readDesc addr s
  if r.2 || !listOk r.1 then ([], s1)
  else
    let (l, s2) := readOps (dOpList r.1) (dOpCount r.1) s1
    (l.filterMap (fun x => if x.2 then none else some x.1), s2)

/-- Ops of every residency task of the job. -/
def residencyOps (s : State) : List OpWord × State :=
  match limitsOf s with
  | some p => p.residency.foldl (fun a x => let (l, s1) := listedOps x.addr a.2; (a.1 ++ l, s1)) ([], s)
  | none => ([], s)

/-- Firmware reloads the configurations that the registered job's step tasks and residency tasks name (R217). -/
def restoreConfigs (s : State) : State :=
  let (l, s1) := residencyOps s
  let ops := l ++ tileList.flatMap (fun t => (getTile s t).tasks.flatMap (fun kv => kv.2.ops))
  let named := (ops.filter (fun o => opClass o == 2)).map sfCfgIx
  let kept := s1.cfg.attnSource.filter (fun kv => named.contains kv.1)
  { s1 with cfg := { s1.cfg with attn := kept, attnSource := kept } }

/-- Firmware reloads every table of the tenancy into its slot on every engine (R297). -/
def restoreTables (s : State) : State :=
  let all := tileList.flatMap (fun t => [0, 1].map (fun g => (t, g)))
  { s with cfg := { s.cfg with tables := s.cfg.tableSource.foldl (fun m kv => all.foldl (fun m1 e =>
      mapSet {} m1 (tableKey e.1 e.2 kv.1) { active := kv.2, loaded := true }) m) s.cfg.tables } }

/-- The verifying lap after an exit from standby has ended: the module serves again (R582). -/
def wake (s : State) : State :=
  let s1 := { s with life := { s.life with boot := .done } }
  serveAgain .standby (setModState (readyState s1) s1)

/-- Restoration by firmware, and the return to service (R547; R546 step 8). Ring records and lines wait, after a link
loss, for the IDE keys. -/
def restore (s : State) : State :=
  let s1 := restoreTables (restoreConfigs (restoreCounters (fennelRestore s)))
  let s2 := if s1.life.linkLost then s1 else fetchWatched s1
  let s3 := (openWindows s2 (fun _ => true)).foldl restoreWindow s2
  let s4 := restoreManager (submitResidency s3)
  let s5 := { s4 with life := { s4.life with boot := .done, hbStage := 3, rcRecovering := 0 } }
  serveAgain .recovering (setModState (readyState s5) s5)

/-! ### Module reset (R544, R545, R548, R561) -/

/-- Scrub counts clear only at power-on (R516). -/
def keepScrub (x : Slot) : Slot :=
  { scrubPos := x.scrubPos, scrubLaps := x.scrubLaps, scrubLast := x.scrubLast, scrubOverdue := x.scrubOverdue
    scrubStart := x.scrubStart }
def keepLap (x : Channel) : Channel := { scrubPos := x.scrubPos, scrubLaps := x.scrubLaps, refreshes := x.refreshes }

/-- A tile keeps its time and what its sensors say. -/
def keepTile (x : Tile) : Tile :=
  { tempHold := x.tempHold, halved := x.halved, warnDram := x.warnDram, warnJunction := x.warnJunction, timeNs := x.timeNs }

/-- Package memory after a module reset: its contents go with the fill; the region table and the lap counts are kept. -/
def wipePkg (p : Pkg) : Pkg :=
  { regions := p.regions, chans := mapVals {} keepLap p.chans, band := p.band, pkgOverdue := p.pkgOverdue
    lapStart := p.lapStart, lapLast := p.lapLast, bytes := p.bytes, poison := p.poison, errors := p.errors }

/-- The fabric endpoint after a module reset: ports, plan, members, routes and the refusal log are kept (R545). -/
def wipeFabric (f : Fabric) : Fabric :=
  { ports := f.ports, planId := f.planId, planGen := f.planGen, plan := f.plan, members := f.members, reach := f.reach
    routes := f.routes, refusals := f.refusals }

/-- All that a tenancy holds ends, and what a module reset sets back; logs, counts, health, the tenant epoch and the AON's
own state are kept. -/
def wipeModule (s : State) : State :=
  { s with
    slots := mapVals {} keepScrub s.slots
    pkg := wipePkg s.pkg
    tiles := mapVals {} keepTile s.tiles
    fences := {}, job := none, stepSet := none, cond := {}, fennel := {}, fabric := wipeFabric s.fabric
    host := { esHoldoff := s.host.esHoldoff, esPending := s.host.esPending, nextD2h := s.host.nextD2h }
    sec := { epoch := s.sec.epoch, debugCounter := s.sec.debugCounter, draws := s.sec.draws }
    integ := { s.integ with regions := [], reloading := [] }
    evc := {}, cfg := {}
    sens := { s.sens with dgTarget := 0, dgTile := 0, dgBase := 0 } }

/-- Measurements of a boot (R561): M0, M1, M3 and M4 by the digests found. -/
def extendMeas (i d : Nat) (s : State) : State :=
  { s with sec := { s.sec with meas := mapMod 0 s.sec.meas i (fun m => Config.sha3 (le 32 m ++ le 32 d)) } }

def measureBoot (ds : List Nat) (s : State) : State :=
  let s1 := forAll [(0, 0), (1, 1), (3, 2), (4, 3)] (fun a x => extendMeas x.1 (ds.getD x.2 0) a) s
  { s1 with sec := { s1.sec with m4Boot := mapGet 0 s1.sec.meas 4 } }

def activeSlot (s : State) : Nat := if s.mgmt.slotA.state == 5 then 0 else 1
def pendingSlot (s : State) : Option Nat :=
  if s.mgmt.slotA.state == 4 then some 0 else if s.mgmt.slotB.state == 4 then some 1 else none

/-- A boot fell back (R497, R510): the summary's bit, and an entry of the event log; no source code of R535 names it, so
the code is an open value. -/
def logFallback (s : State) : State :=
  let (k, s1) := takeFree 8 s
  esRaise 20 (log1Add k 5 8 0 0 0 { s1 with mgmt := { s1.mgmt with fiBoot := 2 } })

/-- The boot ROM has verified a slot: it runs, configuration space and BAR0 answer. -/
def bootRuns (ds : List Nat) (s : State) : State :=
  measureBoot ds { s with
    life := { s.life with boot := .verified, hbStage := 1 }
    mgmt := { s.mgmt with mb1 := { s.mgmt.mb1 with ready := true } } }

/-- No slot verifies: FAILED, reported through MB1 (R510). -/
def bootDead (s : State) : State :=
  setModState .failed { s with
    life := { s.life with boot := .dead }
    mgmt := { s.mgmt with mb1 := { s.mgmt.mb1 with ready := true } } }

/-- The ACTIVE slot is verified and booted, or else the other slot if it is VERIFIED. -/
def bootActive (activeOk otherOk : Bool) (ds : List Nat) (s : State) : State :=
  let a := activeSlot s
  if activeOk then bootRuns ds s
  else if (fwSlotOf s (1 - a)).state == 3 && otherOk then
    bootRuns ds (logFallback (modFwSlot a (fun _ => {}) (modFwSlot (1 - a) (fun x => { x with state := 5 }) s)))
  else bootDead s

/-- Step 4 of start-up (R497, R508, R510, R562): `pendingOk` and the others say what the boot ROM's verification finds. -/
def bootVerify (pendingOk activeOk otherOk : Bool) (ds : List Nat) (s0 : State) : State :=
  let s := setModState .booting { s0 with mgmt := { s0.mgmt with fiBoot := 0 } }
  match pendingSlot s with
  | some p =>
    if pendingOk then bootRuns ds { s with life := { s.life with bootedPending := true } }
    else bootActive activeOk otherOk ds (logFallback (modFwSlot p (fun _ => {}) s))
  | none => bootActive activeOk otherOk ds s

/-- The same where no command carries what the boot ROM finds: free values. -/
def bootFree (s : State) : State :=
  let (v, s1) := takeFree 3 s
  let (d, s2) := takeFree 1024 s1
  bootVerify (bit v 0) (bit v 1) (bit v 2) ((List.range 4).map (fun i => d / 2 ^ (256 * i) % 2 ^ 256)) s2

/-- A module reset up to its resumption at step 4 of R508. One that software commands writes the ring records first. -/
def moduleReset (cause : Nat) (commanded : Bool) (s : State) : State :=
  let s1 := if commanded then writeAll (ringRecords s) else s
  let s2 := if anyPortUp s then reportSend (fun p => .memberReport p true 2 false) s1 else s1
  let s3 := dropTransfer (portsDownReset (wipeModule (stopCardamom s2)))
  let mb0 := s3.mgmt.mb0
  setModState .booting { s3 with
    life := { s3.life with
      boot := .waitRelease, bootedPending := false, filled := false, hbCount := 0, hbStage := 0, rcLevel := 2, rcCause := cause
      rcRecovering := 0, rcModule := satAdd 32 s3.life.rcModule 1, rcTime := s3.life.aonNs, linkLost := false
      reportDue := some (2, false) }
    mgmt := { s3.mgmt with
      mb0 := { mb0 with intEn := false, event := false, overrun := false }
      mb1 := { s3.mgmt.mb1 with intEn := false, ready := false } } }

/-- A commanded module reset: it goes on at once while PERST# is released. -/
def moduleRestart (cause : Nat) (s : State) : State :=
  if s.life.released then bootFree (moduleReset cause true s) else moduleReset cause true s

/-- A PENDING slot that booted in time becomes ACTIVE (R497). -/
def takePending (s : State) : State :=
  match s.life.bootedPending, pendingSlot s with
  | true, some p =>
    let s1 := modFwSlot (1 - p) (fun x => { x with state := 3 }) (modFwSlot p (fun x => { x with state := 5 }) s)
    { s1 with
      life := { s1.life with bootedPending := false }
      mgmt := { s1.mgmt with fiBoot := 1, minSvn := max s1.mgmt.minSvn (fwSlotOf s1 p).svn } }
  | _, _ => s

/-- CARDAMOM starts at a boot: M2 is extended, MB0 and MBM are served, the heartbeat starts (R508 step 6). -/
def cardamomBoot (m2digest fwVersion : Nat) (s : State) : State :=
  let s1 := takePending (extendMeas 2 m2digest s)
  { s1 with
    life := { s1.life with boot := .trainMemory, cardamomRuns := true, hbStage := 3 }
    mgmt := { s1.mgmt with fwVersion := fwVersion, mb0 := { s1.mgmt.mb0 with ready := true } } }

/-- The fallback of R497: the module resets again and boots the slot that was ACTIVE. -/
def bootFallback (s : State) : State :=
  match s.life.bootedPending, pendingSlot s with
  | true, some p =>
    let s1 := moduleReset s.life.rcCause false (modFwSlot p (fun _ => {}) s)
    let (v, s2) := takeFree 1 s1
    let (d, s3) := takeFree 1024 s2
    logFallback (bootVerify false (bit v 0) false ((List.range 4).map (fun i => d / 2 ^ (256 * i) % 2 ^ 256)) s3)
  | _, _ => s

/-! ### Standby, thermal shutdown, input (R580, R582, R592) -/

/-- Enter STANDBY from UNCLAIMED or FAILED. -/
def enterStandby (s : State) : State :=
  let s1 := stopCardamom (portsDownReset (cacheFlush s))
  setModState .standby { s1 with life := { s1.life with hbStage := 5 } }

/-- Does every sensor read below 85 °C? -/
def allCool (s : State) : Bool :=
  tileList.all (fun t => (mapGet [] s.sens.dram t ++ mapGet [] s.sens.junction t).all (fun c => decide (c < 85)))
    && s.sens.hub.all (fun c => decide (c < 85))

/-- Leave STANDBY: as steps 5 and 6 of a core reset, the tile time counters starting again. After a thermal trip the
module restarts from step 4 of R508. -/
def exitStandby (s : State) : State :=
  let s1 := { s with
    tiles := mapVals {} (fun x => { x with timeNs := 0 }) s.tiles
    pkg := { s.pkg with chans := mapVals {} (fun x => { x with refreshed := 0 }) s.pkg.chans }
    life := { s.life with hbCount := 0, hbStage := 2 } }
  if s1.sens.tripped then
    bootFree { s1 with sens := { s1.sens with tripped := false }, life := { s1.life with boot := .verified, hbStage := 0 } }
  else { s1 with life := { s1.life with boot := .coreCardamom } }

/-- Thermal shutdown: package memory is not kept, the tenancy ends, the ports go DOWN, the trip is counted. -/
def thermalTrip (s : State) : State :=
  if s.sens.tripped || s.life.state = .off then s
  else
    let s1 := portsDownReset (wipeModule (dropTransfer (stopCardamom s)))
    let link := s.host
    let s2 := setModState .standby { s1 with
      life := { s1.life with boot := .done, filled := false, hbStage := 5, linkLost := false }
      integ := { s1.integ with trips := s1.integ.trips + 1 } }
    { s2 with
      host := { s2.host with trained := link.trained, narrow := link.narrow, space := link.space }
      sens := { s2.sens with tripped := true } }

/-- Every rail is off, the AON rail included: only the flash keeps what it holds. -/
def powerOff (s : State) : State :=
  let s1 := dropTransfer s
  let s2 : State :=
    { integ := { log1 := s.integ.log1, lasting := s.integ.lasting, health := s.integ.health, trips := s.integ.trips }
      mgmt := { slotA := s1.mgmt.slotA, slotB := s1.mgmt.slotB, minSvn := s1.mgmt.minSvn, flash := s1.mgmt.flash
                nextTransfer := s1.mgmt.nextTransfer }
      sec := { debugCounter := s.sec.debugCounter }
      out := s1.out, freeUsed := s1.freeUsed, pending := s.pending }
  { s2 with life := { s2.life with released := s.life.released } }

end Sys2Proof.Machine
end

