-- ==== Sys2Proof/Machine/CascadeOps.lean ====
section
/-!
DEFINITION. The board cascade: hello, ramp slots, the board table, the chain test and cascade faults
(spec/19_startup.md R502 to R507; R600).
-/
namespace Sys2Proof.Machine

/-- `CF_ADDR` of a frame (R502): destination, source, broadcast. -/
def cfAddr (dst src : Nat) (all : Bool) : Nat := (if all then 16 else dst % 4) + 4 * (src % 4)

def cfSend (code addr : Nat) (body : List Nat) (s : State) : State := emit s (cascadeOut code addr body)

/-- A frame of this module to the master, or to every position. -/
def cfUp (code : Nat) (body : List Nat) (s : State) : State := cfSend code (cfAddr 0 s.life.pos false) body s
def cfAll (code : Nat) (body : List Nat) (s : State) : State := cfSend code (cfAddr 0 s.life.pos true) body s

/-- A frame of another position on its way to the master goes on. -/
def cfRelay (code src : Nat) (body : List Nat) (s : State) : State := cfSend code (cfAddr 0 src false) body s

/-- A frame that the master sends to every position goes on down the chain. -/
def cfOn (code : Nat) (body : List Nat) (s : State) : State :=
  if s.life.pos < 3 then cfSend code (cfAddr 0 0 true) body s else s

def isMaster (s : State) : Bool := s.life.pos == 0

/-- The first 6 bytes of a serial (R503). -/
def serial6 (x : Nat) : Nat := x % 2 ^ 48

/-! ### Faults (R504) -/

/-- A cascade fault: the board table is gone, the fault is logged and reported to the master. The spec gives neither its
source code in the log nor the causes of `CS_FAULT`: both are free values. -/
def cascadeFault (s : State) : State :=
  if s.cascade.fault then s
  else
    let (k, s1) := takeFree 8 s
    let (c, s2) := takeFree 8 s1
    let s3 := esRaise 13 (log1Add k 5 8 0 0 0
      { s2 with cascade := { s2.cascade with fault := true, table := [], haveTable := false } })
    if isMaster s3 then s3 else cfUp 7 [c] s3

/-! ### Ramp slots (R505) -/

/-- Has a member sent its hello? The master counts itself. -/
def saidHello (s : State) (p : Nat) : Bool := p == 0 || (mapKeys s.cascade.hello).contains p

/-- Members present on the board: those that sent a hello and ramped in their slot. -/
def isPresent (s : State) (p : Nat) : Bool := saidHello s p && !s.cascade.absent.contains p

def serialAt (s : State) (p : Nat) : Nat :=
  if p = 0 then serial6 Config.serial else mapGet 0 s.cascade.hello p - 1

/-- The 64 frames of the chain test, with one pattern (R506). -/
def sendLoops (s : State) : State :=
  let (x, s1) := takeFree 56 s
  forAll (List.range 64) (fun a i => cfAll 5 [i, x] a)
    { s1 with cascade := { s1.cascade with lastPattern := x, loops := [] } }

/-- After the last slot: the board table, then the chain test. -/
def finishRamp (s : State) : State :=
  if s.cascade.haveTable || s.cascade.fault then s
  else
    let entry := fun (p : Nat) => if isPresent s p then BoardEntry.mk true (serialAt s p) else {}
    let t := [0, 1, 2, 3].foldl (fun m p => mapSet {} m p (entry p)) []
    let s1 := { s with cascade := { s.cascade with table := t, haveTable := true } }
    sendLoops (forAll [0, 1, 2, 3] (fun a p => cfAll 4 [p, (entry p).present.toNat, (entry p).serial] a) s1)

/-- The master grants the next slot, in ascending position. -/
def grantNext (s : State) : State :=
  let c := s.cascade
  match [0, 1, 2, 3].find? (fun p => decide (c.nextSlot ≤ p) && saidHello s p) with
  | some p =>
    let s1 := { s with cascade := { c with granted := some p, nextSlot := p + 1, grants := c.grants + 1 } }
    if p = 0 then { s1 with cascade := { s1.cascade with ownGrant := some c.grants, ramping := !s.life.ramped } }
    else cfSend 2 (cfAddr p 0 false) [c.grants] s1
  | none => finishRamp { s with cascade := { c with granted := none } }

/-- The master's first wait has ended. -/
def masterWaited (s : State) : State :=
  if isMaster s && s.life.inputOn && !s.cascade.masterWaited && !s.cascade.fault then
    grantNext { s with cascade := { s.cascade with masterWaited := true } }
  else s

/-- A slot ends without `CS_RAMP_DONE`: at the master its member is absent; a member stops ramping. -/
def slotEnds (s : State) : State :=
  let c := s.cascade
  if isMaster s then
    match c.granted with
    | some p => grantNext { s with cascade := { c with absent := c.absent ++ [p], ramping := c.ramping && p != 0 } }
    | none => s
  else if c.ramping && c.ownGrant.isSome && !c.absent.contains s.life.pos then
    { s with cascade := { c with ramping := false, absent := c.absent ++ [s.life.pos] } }
  else s

/-- A member receives its grant. -/
def takeGrant (slot : Nat) (s : State) : State :=
  if s.life.inputOn && !isMaster s && s.cascade.ownGrant.isNone && !s.cascade.fault && !s.life.ramped then
    { s with cascade := { s.cascade with ownGrant := some slot, ramping := true } }
  else s

/-- No grant has come within 2 s. -/
def grantTimeout (s : State) : State :=
  if s.life.inputOn && !isMaster s && s.cascade.ownGrant.isNone && !s.life.ramped then cascadeFault s else s

/-- A module with a cascade fault, or one that lost its slot, ramps on its own. -/
def soloRamp (s : State) : State :=
  if s.life.inputOn && !s.life.ramped && (s.cascade.fault || s.cascade.absent.contains s.life.pos) then
    { s with cascade := { s.cascade with ramping := true } }
  else s

/-- A member has ramped. -/
def rampDoneIn (p : Nat) (s : State) : State :=
  if !s.life.inputOn then s
  else if !isMaster s then cfRelay 3 p [] s
  else if s.cascade.granted = some p && p != 0 then grantNext s
  else s

/-- This module's rails have ramped (R505, R508). -/
def rampDone (s : State) : State :=
  if s.life.inputOn && s.cascade.ramping && !s.life.ramped then
    let s1 := { s with
      life := { s.life with ramped := true }
      cascade := { s.cascade with ramping := false } }
    let inSlot := s.cascade.ownGrant.isSome && !s.cascade.absent.contains s.life.pos
    let s2 := if !inSlot then s1 else if isMaster s then grantNext s1 else cfUp 3 [] s1
    if s2.life.boot = .waitRamp then
      (if s2.life.released then bootFree s2 else { s2 with life := { s2.life with boot := .waitRelease } })
    else s2
  else s

/-! ### Frames -/

/-- `CS_HELLO`. A position frame on CASC_UP comes from the neighbour above, whose position must be one less. -/
def helloIn (p serial : Nat) (onUp : Bool) (s : State) : State :=
  if !s.life.inputOn then s
  else if onUp then (if isMaster s || p + 1 != s.life.pos then cascadeFault s else s)
  else if isMaster s then
    (if 1 ≤ p && p ≤ 3 then { s with cascade := { s.cascade with hello := mapSet 0 s.cascade.hello p (serial6 serial + 1) } }
     else s)
  else cfRelay 1 p [serial6 serial] s

/-- `CS_BOARD_TABLE`. -/
def boardIn (p : Nat) (present : Bool) (serial : Nat) (s : State) : State :=
  if !s.life.inputOn || isMaster s then s
  else
    let s1 := cfOn 4 [p, present.toNat, serial6 serial] s
    if s1.cascade.fault then s1
    else
      let e : BoardEntry := ⟨present, serial6 serial⟩
      { s1 with cascade := { s1.cascade with table := mapSet {} s1.cascade.table (p % 4) e, haveTable := true, loops := [] } }

/-- One more good frame of the chain test has come from a position; the 64th of them is judged. -/
def countLoop (p seq : Nat) (good : Bool) (s : State) : State :=
  let n := mapGet 0 s.cascade.loops p + good.toNat
  if seq = 63 then
    let s1 := { s with cascade := { s.cascade with loops := mapSet 0 s.cascade.loops p 0 } }
    if n < 63 then cascadeFault s1 else s1
  else { s with cascade := { s.cascade with loops := mapSet 0 s.cascade.loops p n } }

/-- `CS_LOOP`: a member echoes the master's frame and passes it on; the master counts the echoes. -/
def loopIn (p seq pattern : Nat) (s : State) : State :=
  if !s.life.inputOn then s
  else if isMaster s then
    (if s.cascade.haveTable && p != 0 then countLoop p seq (pattern == s.cascade.lastPattern) s else s)
  else if p = 0 then
    let s1 := cfOn 5 [seq, pattern] (cfUp 5 [seq, pattern]
      { s with cascade := { s.cascade with lastPattern := pattern } })
    if s1.cascade.fault then s1 else countLoop s1.life.pos seq true s1
  else cfRelay 5 p [seq, pattern] s

/-- `CS_FAULT`. -/
def faultIn (p cause : Nat) (s : State) : State :=
  if !s.life.inputOn then s
  else if isMaster s then { s with cascade := { s.cascade with faultsSeen := mapSet 0 s.cascade.faultsSeen p (cause + 1) } }
  else cfRelay 7 p [cause] s

/-- Has the boot ROM run? Before it a reset has nothing to reset. -/
def hasBooted (s : State) : Bool := s.life.boot != .waitRamp && s.life.boot != .waitRelease

/-- States that accept `RESET_CORE` (R491). -/
def resetsCore (m : ModState) : Bool :=
  m = .unclaimed || m = .claimed || m = .notReady || m = .recovering || m = .failed

/-- `CS_RESET`: as the mailbox commands would perform it (R507). A module with a cascade fault takes none (R504). -/
def cascadeResetIn (level : Nat) (s : State) : State :=
  if !s.life.inputOn || isMaster s || s.cascade.fault || !hasBooted s then s
  else if level = 0 then (if resetsCore s.life.state then coreReset 4 s else s)
  else if level = 1 then moduleRestart 9 s
  else s

/-- The frame sent last goes out again (R600). -/
def cascadeResend (s : State) : State :=
  let last := (s.out.reverse).find? (fun o => match o with
    | .cascade _ _ _ => true
    | _ => false)
  match s.life.inputOn, last with
  | true, some o => emit { s with cascade := { s.cascade with retries := s.cascade.retries + 1 } } o
  | _, _ => s

end Sys2Proof.Machine
end

