-- ==== Sys2Proof/Machine/Cascade.lean ====
section
/-!
DEFINITION. Commands of the board cascade (spec/19_startup.md R502 to R507).
-/
namespace Sys2Proof.Machine

def execCascadeMasterWait (s : State) : Host.Outcome State Fault Refusal := .next (masterWaited s)

def execRampSlotExpire (s : State) : Host.Outcome State Fault Refusal := .next (slotEnds s)

def execCascadeGrantTimeout (s : State) : Host.Outcome State Fault Refusal := .next (grantTimeout s)

def execCascadeSoloRamp (s : State) : Host.Outcome State Fault Refusal := .next (soloRamp s)

def execCascadeRetry (s : State) : Host.Outcome State Fault Refusal := .next (cascadeResend s)

def execCsHello (pos serial : Nat) (onUp : Bool) (s : State) : Host.Outcome State Fault Refusal :=
  .next (helloIn pos serial onUp s)

def execCsRampGrant (slot : Nat) (s : State) : Host.Outcome State Fault Refusal := .next (takeGrant slot s)

def execCsRampDone (pos : Nat) (s : State) : Host.Outcome State Fault Refusal := .next (rampDoneIn pos s)

def execCsBoardTable (pos : Nat) (present : Bool) (serial : Nat) (s : State) : Host.Outcome State Fault Refusal :=
  .next (boardIn pos present serial s)

def execCsLoop (pos seq pattern : Nat) (s : State) : Host.Outcome State Fault Refusal :=
  .next (loopIn pos seq pattern s)

def execCsReset (level : Nat) (s : State) : Host.Outcome State Fault Refusal := .next (cascadeResetIn level s)

def execCsFault (pos cause : Nat) (s : State) : Host.Outcome State Fault Refusal := .next (faultIn pos cause s)

end Sys2Proof.Machine
end

