-- ==== Sys2Proof/Machine/DrainOps.lean ====
section
/-!
DEFINITION. Drains of a tile's work, and the events on which commands wait (R81, R296, R425, R486, R554 to R556, R566).
-/
namespace Sys2Proof.Machine

/-- Does a drain in force on the tile select this task? -/
def drainSelects (s : State) (t : Nat) (x : Task) : Bool := drained s t (isStepTask x) (dPrio x.desc)

/-- Is a drained tile QUIESCED: no selected task ACTIVE or FINISHING, and none of its selected ops issued (R555)? -/
def tileQuiet (s : State) (t : Nat) : Bool :=
  let x := getTile s t
  let mine := x.tasks.filter (fun kv => drainSelects s t kv.2)
  !mine.any (fun kv => kv.2.phase = .active || kv.2.phase = .finishing)
    && !x.window.any (fun e => e.state = .issued && mine.any (fun kv => kv.1 == e.task))

/-- ENGINE_STATUS code of a tile: 0 RUNNING, 1 DRAINING, 2 QUIESCED. -/
def drainCode (s : State) (t : Nat) : Nat :=
  if (getTile s t).drains.isEmpty then 0 else if tileQuiet s t then 2 else 1

/-- A drained tile has become QUIESCED: `EVENT` on the mailbox that began the drain, which ends with its last tile. -/
def drainDone (t : Nat) (s : State) : State :=
  match s.mgmt.bg.drain with
  | some (via, q) =>
    if bit q.tiles t && tileQuiet s t && !(getTile s t).quiesced then
      let s1 := modTile s t (fun x => { x with quiesced := true })
      let fin := (maskBits 8 q.tiles).all (fun i => (getTile s1 i).quiesced)
      mbEvent via (if fin then { s1 with mgmt := { s1.mgmt with bg := { s1.mgmt.bg with drain := none } } } else s1)
    else s
  | none => s

/-- A drain that closes something has come to its end. -/
def drainFor (kind index : Nat) (s : State) : State :=
  if drainIs s.mgmt.executing kind index then tryFinish s else s

/-- A granule of the SLOT_RELEASE in progress is free of claims. -/
def granuleFreed (g : Nat) (s : State) : State :=
  match s.mgmt.executing with
  | .slotRelease _ t first count =>
    if decide (first ≤ g) && decide (g < first + count) then tryFinish (releaseGranule t g s) else s
  | _ => s

/-- An engine swaps the banks of the slot being loaded, between two ops (R296). -/
def bankSwap (t engine : Nat) (s : State) : State :=
  match s.mgmt.executing with
  | .tableLoad _ slot => if smBoundary s t engine then tryFinish (swapTable t engine slot s) else s
  | _ => s

/-- The pending session has waited 30 s (R566). -/
def sessionExpires (s : State) : State := { s with sec := { s.sec with pendingSession := none } }

end Sys2Proof.Machine
end

