-- ==== Sys2Proof/Machine/Close.lean ====
section
/-!
DEFINITION. Events on which mailbox commands and background commands wait.
-/
namespace Sys2Proof.Machine

def execTableBankSwap (tile engine : Nat) (s : State) : Host.Outcome State Fault Refusal := .next (bankSwap tile engine s)

def execSessionPendingExpire (s : State) : Host.Outcome State Fault Refusal := .next (sessionExpires s)

def execDrainQuiesced (tile : Nat) (s : State) : Host.Outcome State Fault Refusal := .next (drainDone tile s)

def execCloseDrainComplete (kind index : Nat) (s : State) : Host.Outcome State Fault Refusal :=
  .next (drainFor kind index s)

def execSlotReleaseGranule (granule : Nat) (s : State) : Host.Outcome State Fault Refusal :=
  .next (granuleFreed granule s)

end Sys2Proof.Machine
end

