-- ==== Sys2Proof/Machine/Clove.lean ====
section
/-!
DEFINITION. The end of each CLOVE op: its data moves once its requests have been served (spec/12_clove.md).
-/
namespace Sys2Proof.Machine

/-- CL_COPY (R333). -/
def execClCopy (tile entry : Nat) (parity : Bool) (s : State) : Host.Outcome State Fault Refusal :=
  .next (withSnoop (.clCopy tile entry parity) (withParity tile entry 5 1 parity (clFinish tile entry 1)) s)

/-- CL_GATHER (R335, R336). -/
def execClGather (tile entry : Nat) (parity : Bool) (s : State) : Host.Outcome State Fault Refusal :=
  .next (withSnoop (.clGather tile entry parity) (withParity tile entry 5 2 parity (clFinish tile entry 2)) s)

/-- CL_SCATTER (R335, R336): rows are written in list order. -/
def execClScatter (tile entry : Nat) (parity : Bool) (s : State) : Host.Outcome State Fault Refusal :=
  .next (withSnoop (.clScatter tile entry parity) (withParity tile entry 5 3 parity (clFinish tile entry 3)) s)

/-- CL_TRANSPOSE (R337). -/
def execClTranspose (tile entry : Nat) (parity : Bool) (s : State) : Host.Outcome State Fault Refusal :=
  .next (withSnoop (.clTranspose tile entry parity) (withParity tile entry 5 4 parity (clFinish tile entry 4)) s)

/-- CL_FILL (R337). -/
def execClFill (tile entry : Nat) (parity : Bool) (s : State) : Host.Outcome State Fault Refusal :=
  .next (withSnoop (.clFill tile entry parity) (withParity tile entry 5 5 parity (clFinish tile entry 5)) s)

/-- CL_KV_GATHER (R338 to R340). -/
def execClKvGather (tile entry : Nat) (parity : Bool) (s : State) : Host.Outcome State Fault Refusal :=
  .next (withSnoop (.clKvGather tile entry parity) (withParity tile entry 5 6 parity (kvFinish tile entry 6)) s)

/-- CL_KV_APPEND (R338, R339, R341). -/
def execClKvAppend (tile entry : Nat) (parity : Bool) (s : State) : Host.Outcome State Fault Refusal :=
  .next (withSnoop (.clKvAppend tile entry parity) (withParity tile entry 5 7 parity (kvFinish tile entry 7)) s)

end Sys2Proof.Machine
end

