-- ==== Sys2Proof/Machine/Conductor.lean ====
section
/-!
DEFINITION. The commands of the step conductor: forming, step messages, commit, abort and rerun (spec/04_scheduling.md).
-/
namespace Sys2Proof.Machine

/-- STEP_FORM (R117 to R119). -/
def execStepForm (s : State) : Host.Outcome State Fault Refusal := .next (formStep s)

/-- MSG_STEP_HEADER (R120 to R123): only the job's manager sends one. -/
def execMsgStepHeader (src : Nat) (hdr : StepHeader) (s : State) : Host.Outcome State Fault Refusal :=
  .next (if fromManager s src && s.stepSet.isSome then
      withSnoop (.msgStepHeader src hdr) (fun a => match stepRecv src 0 a with
        | some b => headerIn hdr b
        | none => esDiscard a) s
    else s)

/-- MSG_TOKEN_LIST (R122, R123). -/
def execMsgTokenList (src : Nat) (toks : List Nat) (s : State) : Host.Outcome State Fault Refusal :=
  .next (if fromManager s src && s.stepSet.isSome then
      withSnoop (.msgTokenList src toks) (fun a => match stepRecv src 0 a with
        | some b => tokensIn toks b
        | none => esDiscard a) s
    else s)

/-- MSG_RESULT (R113, R321, R473): kept for the commit of the step that is running. -/
def execMsgResult (member step : Nat) (reports : List TokenReport) (status : EngStatus) (s : State) :
    Host.Outcome State Fault Refusal :=
  .next (if isManager s && jobMember s member then
      (match stepRecv member 1 s with
       | none => esDiscard s
       | some a =>
         match a.cond.current, a.cond.abort with
         | some r, none =>
           if r.step == step then
             { a with cond := { a.cond with
               results := a.cond.results ++ reports.map (fun t => (member, t))
               stepStatus := engMerge a.cond.stepStatus status } }
           else a
         | _, _ => a)
    else s)

/-- MSG_FAULT (R129, R132): of the uncommitted step it aborts the step; of a committed one it is logged. -/
def execMsgFault (member step code taskId _tile : Nat) (s : State) : Host.Outcome State Fault Refusal :=
  .next (if isManager s && jobMember s member then
      (match stepRecv member 1 s with
       | none => esDiscard s
       | some a =>
         if step < a.cond.nextStep then esLateFault a
         else match a.cond.current with
           | some r => if r.step == step then memberFault code taskId a else a
           | none => a)
    else s)

/-- MSG_ABORT (R133, R552), from the job's manager. -/
def execMsgAbort (step code : Nat) (s : State) : Host.Outcome State Fault Refusal :=
  .next (match s.job with
    | none => s
    | some j => match stepRecv j.manager 0 s with
      | some a => abortIn step code a
      | none => esDiscard s)

/-- ABORT_PACKETS_SETTLED (R83, R84, R133). -/
def execAbortPacketsSettled (s : State) : Host.Outcome State Fault Refusal :=
  .next (withSnoop .abortPacketsSettled abortSettled s)

/-- MSG_ABORT_DONE (R134). -/
def execMsgAbortDone (member step : Nat) (s : State) : Host.Outcome State Fault Refusal :=
  .next (if isManager s && jobMember s member then
      (match stepRecv member 1 s with
       | none => esDiscard s
       | some a =>
         match a.cond.abort with
         | some x => if x.step == step then
             { a with cond := { a.cond with abort := some { x with waitDone := x.waitDone.filter (· != member) } } }
           else a
         | none => a)
    else s)

/-- STEP_RERUN (R84, R134, R135). -/
def execStepRerun (s : State) : Host.Outcome State Fault Refusal := .next (rerunStep s)

/-- STEP_COMMIT (R116, R129, R131, R634): once the step barrier's generation is complete. -/
def execStepCommit (s : State) : Host.Outcome State Fault Refusal := .next (withSnoop .stepCommit commitStep s)

/-- MSG_COMMIT (R130, R154, R261, R262, R446), from the job's manager. -/
def execMsgCommit (step : Nat) (notices : List PageNotice) (s : State) : Host.Outcome State Fault Refusal :=
  .next (withSnoop (.msgCommit step notices) (fun a => match a.job with
    | none => a
    | some j => match stepRecv j.manager 0 a with
      | some b => commitIn step notices b
      | none => esDiscard a) s)

end Sys2Proof.Machine
end

