-- ==== Sys2Proof/Machine/Cumin.lean ====
section
/-!
DEFINITION. CUMIN: the matrix multiply of one op, its operands' layout, its order of summation and its status
(spec/07_cumin.md, R187 to R211).
-/
namespace Sys2Proof.Machine

/-! ### Operands (R190 to R199) -/

/-- One stationary tile as stored: rows of element codes and their scale codes. -/
structure CmTile where
  rows : List (List Nat)
  scs : List (List Nat)
deriving DecidableEq, Repr

/-- Operand A of one problem at `p`: its stored rows and its scales. -/
def cmReadA (op : OpWord) (p : SlotAt) (a : Bool × State) : CmTile × (Bool × State) :=
  let f := cmFa op
  let n := if cmTA op then cmM op else cmK op
  let rows := if cmTA op then cmK op else cmM op
  let w := pitch (fmtBits f) n
  let (r, a1) := rdRows 1 f n w p rows a
  if cmScA op then
    let (s, a2) := rdScales 1 (atLine p (rows * w)) rows (ceilDiv (cmK op) (cmBlk op)) a1
    (⟨r, s⟩, a2)
  else (⟨r, []⟩, a1)

/-- One tile of operand B: `rows` stored rows of `n` elements, then their scales. -/
def cmReadTile (op : OpWord) (p : SlotAt) (rows n : Nat) (a : Bool × State) : CmTile × (Bool × State) :=
  let (r, a1) := rdRows 1 (cmFb op) n (cmPbt op) p rows a
  if cmScB op then
    let (s, a2) := rdScales 1 (atLine p (rows * cmPbt op)) rows (cmS op / cmBlk op) a1
    (⟨r, s⟩, a2)
  else (⟨r, []⟩, a1)

/-- Tiles of operand B from tile `t` on; `left` reduction indices remain. -/
def cmReadB (op : OpWord) (p : SlotAt) (left : Nat) : Nat → Bool × State → List CmTile × (Bool × State)
  | 0, a => ([], a)
  | n + 1, a =>
    let per := if cmTB op then 128 else cmS op
    let rows := if cmTB op then min 128 left else cmN op
    let els := if cmTB op then cmHalf op * 128 + cmN op else cmS op
    let (t, a1) := cmReadTile op p rows els a
    let (ts, a2) := cmReadB op (atLine p (cmTs op)) (left - per) n a1
    (t :: ts, a2)

def cmTiles (op : OpWord) : Nat := ceilDiv (cmK op) (if cmTB op then 128 else cmS op)

/-- Element (m, k) of A. -/
def cmElemA (op : OpWord) (t : CmTile) (m k : Nat) : FVal :=
  if cmTA op then decodeElem (cmFa op) (cell t.rows k m)
  else decodeAt (cmFa op) (cmScA op) (cmBlk op) (t.scs.getD m []) k (cell t.rows m k)

/-- Expansion of a scaled element to BF16 (R191). -/
def bf16Expand : FVal → FVal
  | .fin n m e => if m = 0 || magLt m e 1 (-126) then fzero n
    else if magLt 255 120 m e then .inf n else .fin n m e
  | v => v

/-- Element (k, n) of B. -/
def cmElemB (op : OpWord) (ts : List CmTile) (n k : Nat) : FVal :=
  if cmTB op then
    let t := ts.getD (k / 128) ⟨[], []⟩
    let c := cmHalf op * 128 + n
    let v := decodeAt (cmFb op) (cmScB op) (cmBlk op) (t.scs.getD (k % 128) []) c (cell t.rows (k % 128) c)
    if cmScB op then bf16Expand v else v
  else
    let t := ts.getD (k / cmS op) ⟨[], []⟩
    decodeAt (cmFb op) (cmScB op) (cmBlk op) (t.scs.getD n []) (k % cmS op) (cell t.rows n (k % cmS op))

/-- Was a scale code 0xFF read for an index that takes part (R210)? -/
def cmNanScale (op : OpWord) (a : CmTile) (ts : List CmTile) : Bool :=
  (cmScA op && a.scs.any (fun r => r.any (· == 0xFF)))
    || (cmScB op && ts.zipIdx.any (fun t => t.1.scs.any (fun r =>
        r.zipIdx.any (fun c => c.1 == 0xFF
          && (cmTB op || decide (t.2 * cmS op + c.2 * cmBlk op < cmK op))))))

/-! ### Arithmetic (R172 to R174, R202, R203) -/

/-- An output element before conversion: its value, whether the last FP32 rounding flushed it, whether everything it
was computed from was finite, and whether an integer sum saturated. -/
structure CmElem where
  val : FVal
  flush : Bool
  fin : Bool
  isat : Bool
deriving DecidableEq, Repr

/-- The sum of one chunk: products and sums rounded one by one, in ascending order. -/
def chunkSum : List FVal → Option Rounded
  | [] => none
  | p :: ps => some (ps.foldl (fun s q => rnd32 (addExact s.val (rnd32 q).val)) (rnd32 p))

def addChunk (acc : Option Rounded) (s : Option Rounded) : Option Rounded :=
  match acc, s with
  | some a, some b => some (rnd32 (addExact a.val b.val))
  | none, b => b
  | a, none => a

/-- A floating-point element from its exact products and C. -/
def cmFloat (op : OpWord) (prods : List FVal) (c : Option FVal) (fin : Bool) : CmElem :=
  let acc0 := c.map (fun v => (⟨v, false, false⟩ : Rounded))
  match ((chunk (cmKt op) prods).map chunkSum).foldl addChunk acc0 with
  | some r => ⟨r.val, r.flush, fin, false⟩
  | none => ⟨fzero false, false, fin, false⟩

/-- An integer element: the exact sum, saturated once to INT32. -/
def cmInteger (prods : List FVal) (c : Option Int) : CmElem :=
  let r := satInt 32 (prods.foldl (fun a p => a + intOf p) (c.getD 0))
  ⟨fvalOfInt r.1, false, true, r.2⟩

/-- Row `m` of one problem's output. -/
def cmRow (op : OpWord) (a : CmTile) (ts : List CmTile) (c : List (List Nat)) (m : Nat) : List CmElem :=
  (List.range (cmN op)).map (fun n =>
    let pairs := (List.range (cmK op)).map (fun k => (cmElemA op a m k, cmElemB op ts n k))
    let prods := pairs.map (fun p => mulExact p.1 p.2)
    if cmInt op then
      cmInteger prods (if opAccum op then some (signedOf 32 (cell c m n)) else none)
    else
      let cv := if opAccum op then some (fp32Val (cell c m n)) else none
      cmFloat op prods cv (pairs.all (fun p => isFinite p.1 && isFinite p.2) && cv.all isFinite))

/-! ### One problem, and the op -/

def cmOutFmtOf (s : State) (tile : Nat) (e : Entry) (op : OpWord) : OutFmt :=
  ⟨cmOutFmt op, cmScO op, cmBlk op, clsFlag op 12, clsFlag op 13, srKeyOf s tile e⟩

/-- Compute and write problem `p`; the flags add up. -/
def cmProblem (f : OutFmt) (op : OpWord) (pa pb pc po : SlotAt) (p : Nat) (acc : OpFlags × (Bool × State)) :
    OpFlags × (Bool × State) :=
  let m := cmM op
  let at0 := fun (q : SlotAt) (len : Nat) => atLine q (p * cmGap len)
  let (a, x1) := cmReadA op (at0 pa (cmLenA op m)) acc.2
  let (b, x2) := cmReadB op (at0 pb (cmLenB op)) (cmK op) (cmTiles op) x1
  let (c, x3) := if opAccum op
    then rdRows 1 0 (cmN op) (pitch 32 (cmN op)) (at0 pc (cmLenC op m)) m x2
    else (([] : List (List Nat)), x2)
  let rows := (List.range m).map (cmRow op a b c)
  let out := rows.zipIdx.map (fun r => convRow f (r.2 * cmN op + p * m * cmN op) (r.1.map (fun e => (e.val, e.fin))))
  let w := pitch (fmtBits (cmOutFmt op)) (cmN op)
  let o := at0 po (cmLenO op m)
  let x4 := wrRows 1 (cmOutFmt op) w o (out.map (·.codes)) x3
  let x5 := if cmScO op then wr 1 (atLine o (m * w)) (out.flatMap (fun r => r.scales.map (BitVec.ofNat 8))) x4 else x4
  let fl : OpFlags :=
    { ev := evOr (out.foldl (fun g r => evOr g r.ev) {}) { flush := rows.any (fun r => r.any (·.flush)) }
      isat := rows.any (fun r => r.any (·.isat))
      nanScale := cmNanScale op a b }
  (flagsOr acc.1 fl, x5)

/-- Every problem of a matrix multiply (R202 to R211): an op with no rows computes nothing (R205). -/
def cmWork (tile : Nat) (e : Entry) (s : State) : EngRun :=
  let op := entryOp s e
  if cmM op = 0 then ({}, (false, s))
  else
    let f := cmOutFmtOf s tile e op
    let r := (List.range (cmProblems op)).foldl
      (fun a p => cmProblem f op (opndAt s tile e 0) (opndAt s tile e 1) (opndAt s tile e 2) (opndAt s tile e 3) p a)
      ({}, (false, s))
    ({ cumin := cuminByte r.1 }, r.2)

/-- A matrix multiply ends. -/
def cmFinish (tile uid : Nat) (s : State) : State :=
  match running s tile uid 1 1 with
  | none => s
  | some e => endRun tile uid (cmWork tile e s)

/-- CM_MM (R187). -/
def execCmMm (tile entry : Nat) (parity : Bool) (s : State) : Host.Outcome State Fault Refusal :=
  .next (withParity tile entry 1 1 parity (cmFinish tile entry) s)

end Sys2Proof.Machine
end

