-- ==== Sys2Proof/Machine/StartOps.lean ====
section
/-!
DEFINITION. The events of start-up: input, PERST#, CARDAMOM, memory, the checker test (spec/19_startup.md R508 to R510;
R497, R530, R580, R592, R601).
-/
namespace Sys2Proof.Machine

/-- The input has come into range: AON comes up, the board position is latched, a member says hello (R502, R508). -/
def inputIn (pos : Nat) (s : State) : State :=
  if s.life.inputOn then s
  else
    let s1 := setModState .booting { s with life := { s.life with inputOn := true, pos := pos % 4, aonNs := 0 } }
    if pos % 4 = 0 then s1 else cfUp 1 [serial6 Config.serial] s1

/-- The input has been out of range for a time in microseconds (R580). -/
def inputOut (us : Nat) (s : State) : State :=
  if s.life.inputOn && decide (10 < us) then powerOff s else s

/-- PERST# is asserted for a time (R510, R582, R592, R601). -/
def perstOn (ns : Nat) (s : State) : State :=
  if ns < 1000 || (s.sens.tripped && !allCool s) then s
  else
    let s1 := { s with life := { s.life with released := false } }
    if s.life.inputOn && hasBooted s then
      moduleReset 7 false { s1 with sens := { s1.sens with tripped := false } }
    else s1

/-- PERST# is released: the boot ROM's findings are the command's operands. -/
def perstOff (pendingOk activeOk otherOk : Bool) (ds : List Nat) (s : State) : State :=
  let s1 := { s with life := { s.life with released := true } }
  if s.life.inputOn && s.life.boot = .waitRelease then bootVerify pendingOk activeOk otherOk ds s1 else s1

/-- CARDAMOM starts at a boot, or again after a core reset or on the exit from standby. -/
def cardamomStarts (m2digest fwVersion : Nat) (s : State) : State :=
  match s.life.boot with
  | .verified => cardamomBoot m2digest fwVersion s
  | .coreCardamom => cardamomRestart m2digest s
  | _ => s

/-- Memory training has failed: logged, under a source code that the spec does not give, and FAILED (R510, R546). -/
def trainingFailed (s : State) : State :=
  let (k, s1) := takeFree 8 s
  enterFailed (log1Add k 3 8 0 0 0 { s1 with life := { s1.life with boot := .done, rcRecovering := 0 } })

/-- Package-memory training ends, at start-up or after a core reset. -/
def memoryTrained (ok : Bool) (s : State) : State :=
  match s.life.boot with
  | .trainMemory => if ok then { s with life := { s.life with boot := .fill } } else trainingFailed s
  | .coreCardamom => if ok then s else trainingFailed s
  | .coreScrub => if ok then s else trainingFailed s
  | _ => s

/-- The fill of step 8: zeros with valid check bits, every granule EMPTY. -/
def fillDone (s : State) : State :=
  if s.life.boot = .fill then
    let s1 := slotFill (pkgFill s)
    { s1 with life := { s1.life with boot := .checker, filled := true } }
  else s

/-- The ports may train: step 10 of start-up. -/
def portsMayTrain (s : State) : State := backReady { s with life := { s.life with boot := .portsTraining } }

/-- Entry of a failed checker test on its first failing tile (R533, R535); the unit is an open value. -/
def checkerEntry (tiles : Nat) (s : State) : LogEntry × State :=
  let (u, s1) := takeFree 8 s
  ({ kind := 0x0F, cls := 5, tile := (maskBits 8 tiles).headD 0, unit := u, addr := 0, time := s.life.aonNs, step := stepLow s }, s1)

/-- The checker test of step 9 ends (R510, R530, R533): a failure starts the pattern BIST. Its duration is open. -/
def checkerDone (tiles fails : Nat) (s : State) : State :=
  if s.life.boot != .checker then s
  else
    let (us, s1) := takeFree 32 s
    let t := tiles % 256
    if t = 0 then
      portsMayTrain { s1 with integ := { s1.integ with records := mapSet {} s1.integ.records 1 { status := 2, elapsed := us } } }
    else
      let (e, s2) := checkerEntry t s1
      let r : TestRec := { status := 3, tiles := t, elapsed := us, fails := fails, first := e }
      { s2 with
        integ := { s2.integ with records := mapSet {} s2.integ.records 1 r }
        life := { s2.life with boot := .bist } }

/-- The BIST after it has passed: the failure is logged and start-up goes on. -/
def checkerLogged (s : State) : State :=
  let e := (mapGet {} s.integ.records 1).first
  portsMayTrain (log1Add 0x0F 5 e.tile e.unit 0 0 s)

end Sys2Proof.Machine
end

