-- ==== Sys2Proof/Machine/IntegrityOps.lean ====
section
/-!
DEFINITION. Scrubbers, self-tests, the lasting-fault table, weight reloads, the pattern BIST and loopback tests
(spec/20_integrity.md R515 to R533; R89, R546).
-/
namespace Sys2Proof.Machine

/-! ### Lasting faults (R520 to R522, R536) -/

/-- Enter a lasting fault, and judge the health state. -/
def lastingAdd (loc : Loc) (pattern : Nat) (s : State) : State :=
  let l := s.integ.lasting
  if l.any (fun x => x.loc == loc && subMask pattern x.pattern) then s
  else
    let clash := l.any (fun x => x.loc == loc)
    let l1 := if l.length < 64 then l ++ [⟨loc, pattern, s.life.aonNs, 0⟩] else l
    let s1 := vector0 (esRaise 17 { s with integ := { s.integ with lasting := l1 } })
    let s2 := worsen .serviceDue s1
    if clash || 64 ≤ l1.length then cannotHold s2 else s2

/-- Class of a self-test by its two reads (R520): 1 transient, 2 lasting, 3 cannot hold data. -/
def testClass (r : TestReads) : Nat :=
  if r.first = 2 || r.second = 2 then 3 else if r.first = 1 || r.second = 1 then 2 else 1

/-- What a class does besides its mark in the log. -/
def classEffect (loc : Loc) (pattern cls : Nat) (s : State) : State :=
  if cls = 2 then lastingAdd loc pattern s
  else if cls = 3 then cannotHold (lastingAdd loc pattern s)
  else s

/-- Mark the pending entry of a location in its tile's log. -/
def markEntry (loc : Loc) (pattern cls : Nat) : List LogEntry → List LogEntry
  | [] => []
  | e :: es =>
    if e.cls == 0 && e.kind == locKind loc && e.unit == locUnit loc && e.addr == locAddr loc && e.pattern == logPattern loc pattern
    then { e with cls := cls } :: es
    else e :: markEntry loc pattern cls es

/-- The two writes of a self-test (R519): the location ends with its data and good check bits. -/
def testWrites (loc : Loc) (s : State) : State :=
  match loc with
  | .pkg t c w =>
    let cw := t * 2 ^ 30 + c * 2 ^ 24 + w
    evCount t 0x3C c 0 1 (dramWrite 3 cw (dramWrite 3 cw s))
  | .slot t l h => halfWrite t (2 * l + h) (halfWrite t (2 * l + h) s)

/-- Does no request of classes 0 to 2 wait for a controller (R363)? Class 3 is served only then. -/
def mcFree (s : State) (t c : Nat) : Bool :=
  (getMc s t c).queue.isEmpty && (mapGet [] s.fabric.accums (t * 64 + c)).isEmpty

/-- May a self-test run now (R519)? Of package memory in class 3, while nothing else waits for the controller, or promoted. -/
def mayTest (s : State) (x : SelfTest) : Bool :=
  match x.loc with
  | .pkg t c _ => x.promoted || mcFree s t c
  | .slot _ _ _ => true

/-- The targeted self-test of a location (R519, R520). -/
def selfTest (loc : Loc) (r : TestReads) (s : State) : State :=
  match s.integ.tests.find? (fun x => x.loc == loc) with
  | none => s
  | some x =>
    if !mayTest s x then s else
    let s1 := testWrites loc { s with integ := { s.integ with tests := s.integ.tests.erase x } }
    let cls := testClass r
    let t := locTile loc
    let s2 := { s1 with integ := { s1.integ with log0 := mapMod [] s1.integ.log0 t (markEntry loc x.pattern cls) } }
    classEffect loc x.pattern cls s2

def promoteTest (loc : Loc) (s : State) : State :=
  { s with integ := { s.integ with tests := s.integ.tests.map (fun x => if x.loc == loc then { x with promoted := true } else x) } }

/-! ### Scrubbers (R89, R515 to R517) -/

/-- Do the scrubbers run? From the verifying lap of a reset on, and while the module serves. -/
def scrubs (s : State) : Bool :=
  s.life.filled && (s.life.boot = .coreScrub || s.life.boot = .portsTraining || (s.life.boot = .done && s.life.state != .standby))

/-- Laps that a tile has finished: those of its channel furthest behind. -/
def tileLaps (s : State) (t : Nat) : Nat :=
  (List.range 64).foldl (fun a c => min a (getMc s t c).scrubLaps) (getMc s t 0).scrubLaps

/-- A tile's package lap has ended. -/
def pkgLapEnds (t : Nat) (s : State) : State :=
  let us := (s.life.aonNs - mapGet 0 s.pkg.lapStart t) / 1000
  { s with pkg := { s.pkg with
    lapLast := mapSet 0 s.pkg.lapLast t (min us (2 ^ 32 - 1)), lapStart := mapSet 0 s.pkg.lapStart t s.life.aonNs
    pkgOverdue := mapSet false s.pkg.pkgOverdue t false } }

/-- The verifying lap is over once every channel has finished it: a core reset goes on to its restoration. -/
def verified (s : State) : State :=
  if s.life.boot = .coreScrub && s.pkg.verifying.isEmpty then (if s.life.state = .standby then wake s else restore s) else s

/-- A channel's scrubber steps to the next codeword. -/
def scrubStep (t c : Nat) (s : State) : State :=
  let pos := (getMc s t c).scrubPos + 1
  if pos < 2 ^ 24 then modMc s t c (fun x => { x with scrubPos := pos })
  else
    let before := tileLaps s t
    let s1 := modMc s t c (fun x => { x with scrubPos := 0, scrubLaps := satAdd 32 x.scrubLaps 1 })
    let s2 := if before < tileLaps s1 t then pkgLapEnds t s1 else s1
    verified { s2 with pkg := { s2.pkg with verifying := mapSet false s2.pkg.verifying (t * 64 + c) false } }

/-- The scrubber's read of a codeword, which does not pass through the cache (R357). -/
def scrubRead (cw : Nat) (s : State) : State :=
  let read := dramRead 3 cw ((dpaOf s cw).getD (2 ^ 39))
  match (cacheSet s cw).find? (fun x => x.tag == cacheTag cw) with
  | some l => scrubUnder cw l.dirty read s
  | none => (read s).2

/-- The step that reads a block which the scrubber has made RELOADING aborts, as `ENGINE_ABORT` aborts it (R526). -/
def scrubAbort (s : State) : State :=
  match s.job with
  | none => s
  | some j => (cancelTasks ⟨255, 1, 0, j.id⟩ (if isManager s then mgrAbort fAborted true (esFault fAborted 0 s) else s)).2

/-- A channel's scrubber reads its next codeword. -/
def scrubChannel (t c : Nat) (s : State) : State :=
  if !scrubs s || decide (8 ≤ t) || decide (64 ≤ c) || !mcFree s t c then s
  else
    let cw := t * 2 ^ 30 + c * 2 ^ 24 + (getMc s t c).scrubPos
    let s1 := evCount t 0x3D c 0 1 s
    let s2 := scrubRead cw s1
    let found := s.integ.reloading.length < s2.integ.reloading.length
    scrubStep t c (if found then scrubAbort s2 else s2)

/-- A tile's slot scrubber reads its next line. -/
def scrubSlot (t : Nat) (s : State) : State :=
  if !scrubs s || decide (8 ≤ t) then s
  else
    let line := (getSlot s t).scrubPos
    let s1 := evCount t 0x27 0 0 1 (tagRead t (line / 64) (slotRead 6 t (line * 64) 64 s).2)
    if line + 1 < 2097152 then modSlot s1 t (fun x => { x with scrubPos := line + 1 })
    else modSlot s1 t (fun x => { x with
      scrubPos := 0, scrubLaps := satAdd 32 x.scrubLaps 1
      scrubLast := min ((s1.life.aonNs - x.scrubStart) / 1000) (2 ^ 32 - 1), scrubStart := s1.life.aonNs, scrubOverdue := false })

/-- A lap has passed the lap-overdue limit (R517). -/
def lapOverdue (t : Nat) (slot : Bool) (s : State) : State :=
  if !scrubs s || decide (8 ≤ t) then s
  else if slot then
    (if (getSlot s t).scrubOverdue then s
     else esRaise 15 (log1Add 0x12 5 t 1 0 0 (modSlot s t (fun x => { x with scrubOverdue := true }))))
  else if mapGet false s.pkg.pkgOverdue t then s
  else esRaise 15 (log1Add 0x12 5 t 0 0 0
    { s with pkg := { s.pkg with pkgOverdue := mapSet false s.pkg.pkgOverdue t true } })

/-! ### Weight reloads (R526 to R528) -/

def weightRegion (s : State) (i : Nat) : Option WeightParams := (mapGet none s.integ.regions i)

def setReloading (l : List WeightBlock) (s : State) : State := { s with integ := { s.integ with reloading := l } }

/-- Entry of the reload in the event log. -/
def reloadLog (w : WeightBlock) (s : State) : State := log1Add 0x11 5 8 w.region w.block 0 s

/-- A failed reload (R528): the block is stored poisoned and LOST; the manager of the job forms no further step. -/
def reloadFails (w : WeightBlock) (p : WeightParams) (s : State) : State :=
  let base := p.base + 65536 * w.block
  let s1 := (lineOffsets 65536).foldl (fun a o => poisonCw (base + o) a) s
  let s2 := setReloading (s1.integ.reloading.map (fun x => if x.region == w.region && x.block == w.block
    then { x with lost := true } else x)) s1
  let s3 := reloadLog w s2
  if isManager s3 && (s3.job.map (·.id)) = some p.job && s3.stepSet.isSome then
    let step := match s3.cond.current with
      | some r => r.step
      | none => s3.cond.nextStep
    jobFaultRecord step fPoison s3.cond.aborts { s3 with cond := { s3.cond with held := true, reloadAgain := false } }
  else s3

/-- The codeword found bad in a block is tested with the verified data (R526 step 4): its log entry takes the class. -/
def retest (s : State) (x : Nat × TestReads) : State :=
  let cw := cwOf s (x.1 * 64)
  let loc := cwLoc cw
  let cls := testClass x.2
  let mine := fun (e : LogEntry) => e.cls == 4 && e.kind == 1 && e.tile == locTile loc && e.unit == locUnit loc && e.addr == locAddr loc
  let pat := match s.integ.log1.find? mine with
    | some e => e.pattern
    | none => 0
  let s1 := testWrites loc s
  classEffect loc pat cls { s1 with integ := { s1.integ with log1 := s1.integ.log1.map (fun e =>
    if mine e then { e with cls := cls } else e) } }

/-- All blocks that a held job's `JOB_RESUME` reloads again have verified: the hold by R528 ends, and the abort count starts
again. Without that command the hold stays. -/
def reloadsDone (s : State) : State :=
  if s.cond.reloadAgain && s.integ.reloading.isEmpty then
    { s with cond := { s.cond with held := false, reloadAgain := false, aborts := 0 } }
  else s

/-- The block has verified: its codewords are tested and it is readable again. -/
def reloadGood (w : WeightBlock) (reads : List TestReads) (s : State) : State :=
  let bad := w.bad.eraseDups
  let s1 := (bad.zip (reads ++ List.replicate bad.length ⟨0, 0⟩)).foldl retest s
  reloadsDone (reloadLog w (setReloading (s1.integ.reloading.filter (fun x => !(x.region == w.region && x.block == w.block))) s1))

/-- The block's data: a module copy is read from package memory; host and peer sources come from outside. -/
def reloadData (w : WeightBlock) (p : WeightParams) (data : List Byte) (sourceOk : Bool) (s : State) :
    (List Byte × Bool) × State :=
  if p.source = 2 then
    let (r, s1) := pkgRead 1 1 (p.src + 65536 * w.block) 65536 s
    ((r.1, !r.2), s1)
  else ((data, sourceOk && data.length == 65536), s)

/-- One attempt to reload the block found first. -/
def reloadNext (data : List Byte) (sourceOk verified : Bool) (reads : List TestReads) (s : State) : State :=
  match s.life.cardamomRuns, s.integ.reloading.find? (fun x => !x.lost) with
  | true, some w =>
    (match weightRegion s w.region with
     | none => setReloading (s.integ.reloading.erase w) s
     | some p =>
       let (d, s1) := reloadData w p data sourceOk s
       if !d.2 then reloadFails w p s1
       else
         let s2 := pkgWrite 1 1 (p.base + 65536 * w.block) d.1 false s1
         let (dig, s3) := pkgRead 1 1 (p.digests + 32 * w.block) 32 s2
         if dig.2 then reloadFails w p s3
         else if verified && Config.sha3 d.1 == ofBytes dig.1 then reloadGood w reads s3
         else if w.attempts = 0 then
           setReloading (s3.integ.reloading.map (fun x => if x.region == w.region && x.block == w.block
             then { x with attempts := 1 } else x)) s3
         else reloadFails w p s3)
  | _, _ => s

/-! ### BIST and loopback (R506, R531 to R533) -/

/-- Zero with valid check bits over a tile's package memory and, or, its slot memory; tags are no part of the pattern BIST
(R76, R531). -/
def zeroPkgTile (t : Nat) (s : State) : State :=
  { s with pkg := { s.pkg with
    bytes := s.pkg.bytes.filter (fun kv => kv.1 / 2 ^ 36 != t)
    under := s.pkg.under.filter (fun kv => kv.1 / 2 ^ 30 != t), poison := s.pkg.poison.filter (fun kv => kv.1 / 2 ^ 30 != t)
    errors := s.pkg.errors.filter (fun kv => kv.1 / 2 ^ 30 != t), cache := s.pkg.cache.filter (fun kv => kv.1 / 8192 != t) } }

def zeroSlotTile (t : Nat) (s : State) : State :=
  modSlot s t (fun x => { x with bytes := [], errors := [] })

def bistZero (tiles memory : Nat) (s : State) : State :=
  (maskBits 8 tiles).foldl (fun a t =>
    let b := if bit memory 0 then zeroPkgTile t a else a
    if bit memory 1 then zeroSlotTile t b else b) s

/-- A location that returned a wrong value: in the lasting-fault table and the event log; its pattern is open. -/
def bistBad (s : State) (loc : Loc) : State :=
  let (p, s1) := takeFree (if locKind loc == 1 then 72 else 266) s
  log1Add 0x10 3 (locTile loc) (locUnit loc) (locAddr loc) (logPattern loc p) (lastingAdd loc p s1)

/-- Result record of a BIST. -/
def bistRecord (bad : List Loc) (elapsed : Nat) (s : State) : TestRec :=
  match bad with
  | [] => { status := 2, elapsed := elapsed }
  | l :: _ =>
    let e := (s.integ.log1.find? (fun x => x.kind == 0x10 && x.addr == locAddr l && x.unit == locUnit l)).getD {}
    { status := 3, tiles := bad.foldl (fun m x => setBit m (locTile x) true) 0, elapsed := elapsed, fails := bad.length
      first := e }

/-- The pattern BIST completes, at start-up after a failed checker test or as a background command. -/
def bistDone (bad : List Loc) (elapsed : Nat) (s : State) : State :=
  let finish := fun (x : State) =>
    let x1 := bad.foldl bistBad x
    { x1 with integ := { x1.integ with records := mapSet {} x1.integ.records 2 (bistRecord bad elapsed x1) } }
  if s.life.boot = .bist then
    let s1 := finish s
    if bad.isEmpty then checkerLogged s1 else cannotHold { s1 with life := { s1.life with boot := .done } }
  else match s.mgmt.bg.bist with
    | none => s
    | some (via, tiles, memory, _) =>
      let s1 := finish (bistZero tiles memory { s with mgmt := { s.mgmt with bg := { s.mgmt.bg with bist := none } } })
      let s2 := mbEvent via s1
      if bad.isEmpty then s2 else cannotHold s2

/-- A loopback test completes. A failure's entry is open: no source of R535 names it. -/
def loopbackDone (board : Bool) (lostPos lostPlane : List Nat) (elapsed : Nat) (s : State) : State :=
  match s.mgmt.bg.loopback with
  | none => s
  | some (via, b, _) =>
    if b != board then s
    else
      let n := lostPos.sum + lostPlane.sum
      let (k, s1) := takeFree 8 s
      let r : TestRec := {
        status := if n = 0 then 2 else 3, elapsed := elapsed, fails := n
        first := if n = 0 then {} else { kind := k, cls := 5, tile := 8, time := s.life.aonNs, step := stepLow s }
        lostPos := if board then lostPos else [], lostPlane := lostPlane }
      mbEvent via { s1 with
        mgmt := { s1.mgmt with bg := { s1.mgmt.bg with loopback := none } }
        integ := { s1.integ with records := mapSet {} s1.integ.records (if board then 4 else 3) r } }

end Sys2Proof.Machine
end

