-- ==== Sys2Proof/Machine/TenancyOps.lean ====
section
/-!
DEFINITION. Identity, attestation, the tenant session, claim, release and debug unlock (spec/22_security.md R559 to R572,
R578; spec/18_mailbox.md R491). A response whose layout the spec leaves open holds its fields in the order that R491
lists them, each little-endian (DESIGN CHOICE).
-/
namespace Sys2Proof.Machine

/-- A string of bytes cut or filled with zeros to a length. -/
def fit (n : Nat) (bs : List Byte) : List Byte := bs.take n ++ List.replicate (n - bs.length) 0

/-- A request whose reserved fields the command checks itself, after its own authorisation (R490). -/
def ownCheck (q : Req) : Req := { q with rsvZero := true }

/-! ### Identity (R559, R560, R612) -/

/-- The board position as attestation shows it: 0xFF without a board table. -/
def shownPos (s : State) : Nat := if s.cascade.haveTable then s.life.pos else 0xFF

/-- Answer to `IDENTIFY`. -/
def identifyBytes (s : State) : List Byte :=
  le 16 Config.serial ++ ascii "UMA9-512L"
    ++ [modStateCode s.life.state, healthCode s.integ.health, s.life.pos, s.fabric.planId].map (BitVec.ofNat 8)
    ++ le 4 s.mgmt.slotA.version ++ le 4 s.mgmt.slotB.version ++ [activeSlot s, 0x22].map (BitVec.ofNat 8)

/-- Seed of the attestation key: it follows M0 to M3. -/
def akSeed (s : State) : Nat :=
  Config.hmac (le 32 Config.uds) (ascii "UMA9AK" ++ (List.range 4).flatMap (fun i => le 32 (mapGet 0 s.sec.meas i)))

/-- What the certificate of an index carries besides what manufacture fixed. -/
def certCarried (index : Nat) (s : State) : List Nat :=
  if index = 3 then akSeed s :: (List.range 4).map (mapGet 0 s.sec.meas) ++ [s.sec.m4Boot] else []

/-- Up to 4,064 bytes of a certificate. -/
def certPiece (index offset : Nat) (s : State) : List Byte :=
  (List.range (min 4064 (Config.certLength index - offset))).map (fun i =>
    BitVec.ofNat 8 (Config.certByte index (certCarried index s) (offset + i)))

def readCert (index offset : Nat) (s : State) : Answer :=
  if index ≤ 3 && offset ≤ Config.certLength index then .now stSuccess (certPiece index offset s) s
  else refuse stInvalidParam s

/-! ### Attestation (R563) -/

/-- Id of the pending or claimed session, or 0. -/
def shownSession (s : State) : Nat :=
  match s.sec.session, s.sec.pendingSession with
  | some x, _ => x.id
  | none, some x => x.id
  | none, none => 0

/-- The 512 bytes of a report. -/
def reportBody (nonce mask : Nat) (s : State) : List Byte :=
  layout 512 ([(0, 4, ofBytes (ascii "UATT")), (4, 2, 1), (6, 2, mask), (8, 16, Config.serial),
    (24, 1, modStateCode s.life.state), (25, 1, healthCode s.integ.health), (26, 1, s.sec.debugScope),
    (27, 1, shownPos s), (28, 1, s.fabric.planId), (29, 1, activeSlot s),
    (30, 2, if s.sec.claimed then s.sec.epoch else 0), (32, 4, s.mgmt.fwVersion),
    (36, 4, (fwSlotOf s (activeSlot s)).svn), (40, 4, s.mgmt.minSvn), (48, 8, shownSession s), (64, 32, nonce)]
    ++ (maskBits 8 mask).map (fun i => (96 + 32 * i, 32, mapGet 0 s.sec.meas i)))

def attestNow (nonce mask : Nat) (s : State) : Answer :=
  if mask < 256 then
    let body := reportBody nonce mask s
    .now stSuccess (body ++ fit 3309 (Config.mldsaSign (akSeed s) body)) s
  else refuse stInvalidParam s

/-! ### Answering a peer's attestation (R573, R574) -/

/-- The certificate of an index, whole. -/
def certWhole (index : Nat) (s : State) : List Byte :=
  (List.range (Config.certLength index)).map (fun i => BitVec.ofNat 8 (Config.certByte index (certCarried index s) i))

/-- What `PA_RESP` carries: the ciphertext to the peer's key, the report of M0 to M5 under the exchange's nonce with its signature,
and certificates 1 to 3, each after its length. -/
def peerReply (m nonce ek draw : Nat) (s : State) : List Nat :=
  let ct := fit 1088 (Config.kemCipher ek draw)
  let n := Config.sha3 (ascii "UMA9PEER" ++ le 1 m ++ le 1 (ownId s) ++ le 32 nonce ++ le 32 (Config.sha3 (le 1184 ek))
    ++ le 32 (Config.sha3 ct))
  let body := reportBody n 0x3F s
  [ofBytes ct, ofBytes body, ofBytes (fit 3309 (Config.mldsaSign (akSeed s) body))]
    ++ [1, 2, 3].flatMap (fun i => [Config.certLength i, ofBytes (certWhole i s)])

/-- A peer asks to attest this module: it is answered only by a CLAIMED module, and only for a planned member. -/
def answerPeer (m nonce ek : Nat) (s : State) : State :=
  if s.life.state == .claimed && s.fabric.members.contains m then
    let draw := Config.random s.sec.draws
    let s1 := { s with sec := { s.sec with draws := s.sec.draws + 1 } }
    let s2 := modPeer s1 m (fun p => { p with
      answered := true, secretIn := Config.kemSecret ek draw, generation := 0, pairKey := 0 })
    settlePair m (match mgmtPort s2 (portOfPlane s2 (hubPlane s2 m)) with
      | some port => mgmtVia port m 0 mgmtPaResp (peerReply m nonce ek draw s2) s2
      | none => s2)
  else s

/-! ### Session (R564 to R567) -/

/-- Part 0: the offer is held, and a session that was pending is discarded. -/
def openPart0 (pk ek : Nat) (s : State) : Answer :=
  accept { s with sec := { s.sec with offer := some (pk, ek), pendingSession := none } }

/-- The session of an offer: its id, its secret and the ciphertext, from two draws of the random source. -/
def newSession (pk ek : Nat) (s : State) : Session × List Byte × State :=
  let id := Config.random s.sec.draws % 2 ^ 64
  let draw := Config.random (s.sec.draws + 1)
  let ct := fit 1088 (Config.kemCipher ek draw)
  let tk := Config.sha3 (le 1952 pk)
  let secret := Config.hmac (le 32 (Config.kemSecret ek draw))
    (ascii "UMA9SESS" ++ le 8 id ++ le 32 tk ++ le 32 (Config.sha3 (le 1184 ek)) ++ le 32 (Config.sha3 ct))
  (⟨id, secret, 0, tk⟩, ct, { s with sec := { s.sec with draws := s.sec.draws + 2 } })

/-- Part 1: the offer's signature is checked and the session is pending. -/
def openPart1 (sigOk rsvZero : Bool) (s : State) : Answer :=
  match s.sec.offer with
  | none => refuse stInvalidParam s
  | some (pk, ek) =>
    if !sigOk then refuse stNotPermitted (dropPending s)
    else if !rsvZero then refuse stInvalidParam s
    else
      let (x, ct, s1) := newSession pk ek s
      .now stSuccess (le 8 x.id ++ ct) { s1 with sec := { s1.sec with offer := none, pendingSession := some x } }

def openSession (q : Req) (part pk ek : Nat) (sigOk : Bool) (s : State) : Answer :=
  if part = 1 then openPart1 sigOk q.rsvZero s
  else if part = 0 && q.rsvZero then openPart0 pk ek s
  else refuse stInvalidParam s

/-! ### Claim (R561, R568, R292, R410, R421, R529, R531, R629) -/

/-- Tables as a claim and a release leave them: the native functions in slots 0 to 10 of every engine (R292, R297). -/
def nativeSlots : SMap TableSlot :=
  (List.range 256).filterMap (fun k => if k % 16 ≤ 10 then some (k, { loaded := true }) else none)

/-- The measured bytes of a claim: offsets 8 to 143 of its request. -/
def claimBytes (policy nfw : Nat) (allow : List Nat) : List Byte :=
  le 4 policy ++ le 1 nfw ++ le 3 0 ++ (List.range 4).flatMap (fun i => le 32 (allow.getD i 0))

/-- The tenant epoch after a claim: 65,535 passes to 1. -/
def epochAfter (e : Nat) : Nat := if e < 65535 then e + 1 else 1

/-- The claim takes effect. M5 is extended once, with the digest of key and request bytes together (DEDUCED). -/
def claimFor (x : Session) (policy nfw : Nat) (allow : List Nat) (s : State) : State :=
  let s1 := clearFlips (extendMeas 5 (Config.sha3 (le 32 x.tenantKey ++ claimBytes policy nfw allow)) s)
  setModState .claimed { s1 with
    life := { s1.life with linkLost := false }
    fabric := { s1.fabric with chans := [], winEpochs := [], notices := [] }
    cfg := { tables := nativeSlots }
    sec := { s1.sec with
      session := some x, offer := none, pendingSession := none, claimed := true, epoch := epochAfter s1.sec.epoch
      policy := policy, allow := allow.take nfw } }

def claim (session policy nfw : Nat) (allow : List Nat) (s : State) : Answer :=
  match s.sec.pendingSession with
  | none => refuse stNotPermitted s
  | some x =>
    if session != x.id || decide (4 < nfw) || decide (4 ≤ policy) || !(allow.drop nfw).all (· == 0) then refuse stInvalidParam s
    else if s.mgmt.bg.bist.isSome then refuse stBusy s
    else
      let s1 := claimFor x policy nfw allow s
      .now stSuccess (le 2 s1.sec.epoch) s1

/-! ### Release (R571, R572) -/

/-- Step 1: tasks are cancelled, and every descriptor read and not retired gets its record. -/
def releaseRecords (s : State) : State :=
  let s1 := (cancelTasks selAll s).2
  writeAll (forAll (mapKeys s1.host.rings) (fun a r =>
    ((unbroken (getRing a r)).filter (fun d => !d.taken)).foldl (endDesc {} r) a) s1)

/-- Step 2: release notices, every channel in RESET, every window closed. -/
def releaseFabric (s : State) : State :=
  let admitted := (s.fabric.peers.filter (fun kv => kv.2.admitted)).map (·.1)
  let s1 := forAll admitted (fun a p => mgmtSend p mgmtRelease [] a) s
  let s2 := forAll (openKeys s1 (fun _ _ => true)) (fun a k => resetChan k a) s1
  forAll (openWindows s2 (fun _ => true)) (fun a w => closeWin w a) (forAll admitted (fun a p => endAdmission p a) s2)

/-- A tile without its tasks. -/
def emptyTile (x : Tile) : Tile :=
  { x with
    tasks := [], queue := [], window := [], groups := 0, drains := [], quiesced := false
    engines := mapVals {} (fun e => { e with busy := false, uid := 0 }) x.engines }

/-- The host link without rings, window and keys; what configuration space and the module itself hold stays. -/
def emptyHost (h : HostLink) : HostLink :=
  { trained := h.trained, narrow := h.narrow, space := h.space, timeoutMs := h.timeoutMs, msix := h.msix, msixPending := h.msixPending
    esHoldoff := h.esHoldoff, esPending := h.esPending, wakes := h.wakes, nextD2h := h.nextD2h }

/-- What the tenancy held ends with it: jobs, rings, windows, channels in use and pools (R548). -/
def endTenancy (s : State) : State :=
  { s with
    tiles := mapVals {} emptyTile s.tiles
    job := none, stepSet := none, cond := {}, fennel := {}
    fabric := { s.fabric with
      windows := [], notices := [], accums := [], caps := [], touchUsed := [], attest := none
      peers := mapVals {} (fun p => { gone := p.gone, serial := p.serial, pos := p.pos }) s.fabric.peers }
    host := emptyHost s.host
    integ := { s.integ with regions := [], reloading := [] }
    evc := {}
    life := { s.life with linkLost := false }
    sec := { s.sec with
      session := none, pendingSession := none, offer := none, claimed := false, policy := 0, allow := []
      meas := mapSet 0 s.sec.meas 5 0 } }

/-- Step 4: the hardware fill. -/
def releaseFill (s : State) : State :=
  let s1 := clearFlips (slotFill (pkgFill s))
  { s1 with
    pkg := { s1.pkg with
      regions := [], touch := [], chans := mapVals {} (fun x => { x with queue := [] }) s1.pkg.chans }
    fences := {}, cfg := { tables := nativeSlots } }

/-- Step 5: a codeword that stays non-zero cannot hold data. -/
def readBack (bad : List Loc) (s : State) : State :=
  let l := bad.filter (fun x => locKind x == 1)
  if l.isEmpty then s else cannotHold (l.foldl bistBad s)

/-- Step 6 when the firmware no longer measures as at boot: CARDAMOM does not restart. -/
def restartFails (s : State) : State :=
  enterFailed { s with
    life := { s.life with cardamomRuns := false, hbStage := 5 }
    mgmt := { s.mgmt with mb0 := { s.mgmt.mb0 with ready := false } } }

/-- Steps 4 to 6: the wipe, and what follows it once CARDAMOM has restarted. -/
def wipeThen (m2digest : Nat) (bad : List Loc) (f : State → Answer) (s : State) : Answer :=
  let s1 := readBack bad (releaseFill s)
  if measureAgain m2digest s1 then f s1 else .later (restartFails s1)

/-- The release in its order. -/
def releaseTenant (m2digest : Nat) (bad : List Loc) (s : State) : Answer :=
  let s1 := endTenancy (releaseFabric (releaseRecords s))
  let s2 := { s1 with mgmt := { s1.mgmt with bg := {} } }
  wipeThen m2digest bad (fun a => accept (setModState (readyState a) a)) s2

/-! ### Debug unlock (R578) -/

/-- A good token: wipe, count, measure, open the scope. -/
def unlock (scope digest m2digest : Nat) (bad : List Loc) (s : State) : Answer :=
  wipeThen m2digest bad (fun a =>
    let s1 := extendMeas 4 digest { a with sec := { a.sec with debugCounter := a.sec.debugCounter + 1 } }
    accept { s1 with sec := { s1.sec with debugScope := scope } }) s

def debugUnlock (q : Req) (scope serial counter digest m2digest : Nat) (bad : List Loc) (sigOk : Bool) (s : State) : Answer :=
  if !sigOk || serial != Config.serial || counter != s.sec.debugCounter then refuse stNotPermitted s
  else if !q.rsvZero || scope == 0 || decide (4 ≤ scope) then refuse stInvalidParam s
  else unlock scope digest m2digest bad s

end Sys2Proof.Machine
end

