-- ==== Sys2Proof/Machine/StoreOps.lean ====
section
/-!
DEFINITION. The region table, the host window, rings, page pools, slot release, arbitration and weight regions as their
commands set them (R81, R244, R245, R350 to R352, R363, R460, R461, R467, R468, R525).
-/
namespace Sys2Proof.Machine

/-! ### Region table -/

/-- Slices that an entry claims, as tile × 512 + slice. -/
def slicesOf (e : RegionEntry) : List Nat :=
  if e.wide then tileList.map (fun t => t * 512 + e.slice) else tileList.map (fun i => e.tile * 512 + e.slice + i)

/-- Is an entry one that R350 and R352 allow? -/
def entryOk (e : RegionEntry) : Bool :=
  !e.rsv && decide (e.slice < 512) && (if e.wide then e.tile == 0 else decide (e.tile < 8) && e.slice % 8 == 0)

/-- Does no slice come twice? The mask holds those seen. -/
def slicesOnce : Nat → List Nat → Bool
  | _, [] => true
  | seen, x :: xs => !bit seen x && slicesOnce (seen + 2 ^ x) xs

def tableStatus (l : List RegionEntry) : Nat :=
  if l.length != 512 then stLength
  else if l.all entryOk && slicesOnce 0 (l.flatMap slicesOf) then stSuccess
  else stInvalidParam

/-- Is placement in use? -/
def placementBusy (s : State) : Bool :=
  tileList.any (fun t => !(getTile s t).tasks.isEmpty) || s.fennel.pool.isSome || s.stepSet.isSome || s.host.hdmCommitted
    || s.fabric.windows.any (fun kv => kv.2.isOpen && (kv.2.params.map (·.kind)).getD 0 == 1)

/-- The table in its canonical form: an entry at its default is not listed. -/
def tableFrom (l : List RegionEntry) : SMap RegionEntry :=
  l.zipIdx.foldl (fun m x => if x.1 == regionDefault x.2 then m else mapSet regionNone m x.2 x.1) []

def setRegions (l : List RegionEntry) (s : State) : Answer :=
  let st := tableStatus l
  if st != stSuccess then refuse st s
  else if placementBusy s then refuse stBusy s
  else accept { s with pkg := { s.pkg with regions := tableFrom l } }

/-- An entry's 32 bits. -/
def entryWord (e : RegionEntry) : Nat := e.slice + e.tile * 2 ^ 9 + e.wide.toNat * 2 ^ 31

def regionBytes (s : State) : List Byte := (List.range 512).flatMap (fun i => le 4 (entryWord (regionOf s i)))

/-! ### Host window, arbitration, timeout -/

def setHdmSize (units : Nat) (s : State) : Answer :=
  if !ideSecure s then refuse stNotReady s
  else if 2048 < units then refuse stInvalidParam s
  else if s.host.hdmCommitted then refuse stBusy s
  else accept { s with host := { s.host with hdmUnits := units } }

def setArb (share threshold : Nat) (s : State) : Answer :=
  if 32 ≤ share && share ≤ 64 && 1 ≤ threshold && threshold ≤ 16 then
    accept { s with pkg := { s.pkg with share := share, threshold := threshold } }
  else refuse stInvalidParam s

def setTimeout (ms : Nat) (s : State) : Answer :=
  if 1 ≤ ms && ms ≤ 250 then accept { s with host := { s.host with timeoutMs := ms } } else refuse stInvalidParam s

/-! ### Rings -/

/-- Number, base, entries and line address of a ring (R467). -/
def ringShape (r : RingParams) : Bool :=
  decide (r.ring < 64) && r.base % 4096 == 0 && decide (r.base < 2 ^ 64) && decide (r.lineAddr < 2 ^ 64)
    && (List.range 11).any (fun i => r.entries == 64 * 2 ^ i) && r.lineAddr % 64 == 0

/-- The ring exists from now on; its tail line is fetched and watched (R458). A ring that exists is in use (DEDUCED). -/
def createRing (r : RingParams) (s : State) : Answer :=
  if !ideSecure s then refuse stNotReady s
  else if !(ringShape r && decide (r.cq < 64) && (getCq s r.cq).state == .active) then refuse stInvalidParam s
  else if (getRing s r.ring).state != .none then refuse stBusy s
  else accept (fetchTail r.ring (modRing s r.ring (fun _ =>
    { state := .active, base := r.base, entries := r.entries, tailAddr := r.lineAddr, cq := r.cq })))

def createCq (r : RingParams) (s : State) : Answer :=
  if !ideSecure s then refuse stNotReady s
  else if !(ringShape r && decide (3 ≤ r.vector) && decide (r.vector ≤ 63) && decide (r.moderation ≤ 1000)) then
    refuse stInvalidParam s
  else if (getCq s r.ring).state != .none then refuse stBusy s
  else accept (fetchHead r.ring (modCq s r.ring (fun _ =>
    { state := .active, base := r.base, entries := r.entries, headAddr := r.lineAddr, vector := r.vector
      moderation := r.moderation })))

/-- The ring reads nothing more; its command answers once nothing is in flight. -/
def destroyRing (q : Req) (ring : Nat) (s : State) : Answer :=
  if decide (64 ≤ ring) || (getRing s ring).state == .none then refuse stInvalidParam s
  else beginLong (.ringDestroy q ring) (modRing s ring (fun r => { r with state := .destroying }))

/-- Does a work ring name the completion ring? -/
def cqNamed (s : State) (c : Nat) : Bool := (List.range 64).any (fun r => (getRing s r).state != .none && (getRing s r).cq == c)

/-- A completion ring in ERROR has nothing left to write. -/
def destroyCq (q : Req) (c : Nat) (s : State) : Answer :=
  if decide (64 ≤ c) || (getCq s c).state == .none then refuse stInvalidParam s
  else if cqNamed s c then refuse stBusy s
  else beginLong (.cqDestroy q c) (modCq s c (fun x =>
    if x.state == .error then { x with state := .destroying, waiting := [], writing := none }
    else { x with state := .destroying }))

/-! ### Page pools (R244, R245) -/

def memEnd : Nat := 2 ^ 39

/-- Do the module's job and the command name the same job? -/
def namesJob (s : State) (job : Nat) : Bool := (s.job.map (·.id)) == some job

/-- Address areas of a pool as (first, bytes): the tiles' pages, descriptors, page tables, lists. -/
def poolAreas (p : PoolParams) : List (Nat × Nat) :=
  let top := (tileList.filter (fun t => p.count.getD t 0 != 0)).foldl (fun a t =>
    max a (p.first.getD t 0 + p.count.getD t 0)) 0
  tileList.map (fun t => (p.base.getD t 0, p.count.getD t 0 * pageBytes p))
    ++ [(p.desc, 16 * top), (p.ptBase, 4096 * p.ptStride), (p.work, 2048 * p.listBytes)]

/-- Do two areas share a byte? -/
def areasMeet (a b : Nat × Nat) : Bool := decide (a.1 < b.1 + b.2) && decide (b.1 < a.1 + a.2) && a.2 != 0 && b.2 != 0

/-- Do the areas that hold a byte lie inside package memory and apart from one another? -/
def areasApart : List (Nat × Nat) → Bool
  | [] => true
  | a :: l => (a.2 == 0 || decide (a.1 + a.2 ≤ memEnd)) && l.all (fun b => !areasMeet a b) && areasApart l

/-- The fields' ranges. -/
def poolShape (p : PoolParams) : Bool :=
  decide (p.pageSize ≤ 3) && decide (1 ≤ p.layers) && decide (p.layers ≤ 256) && p.home.length == p.layers
    && p.home.all (fun t => decide (t < 8)) && p.first.length == 8 && p.count.length == 8 && p.base.length == 8
    && p.base.all (fun b => b % pageBytes p == 0) && p.desc % 64 == 0 && p.ptBase % 64 == 0 && p.ptStride % 64 == 0
    && decide (32 ≤ p.maxLen) && decide (p.maxLen ≤ 4194304) && p.work % 64 == 0 && p.listBytes % 64 == 0
    && decide (1024 ≤ p.listBytes)

/-- The tiles' page id ranges: disjoint, below 2^22, and not empty on a home tile. -/
def poolPages (p : PoolParams) : Bool :=
  let ranges := tileList.map (fun t => (p.first.getD t 0, p.count.getD t 0))
  ranges.all (fun r => decide (r.1 + r.2 ≤ 2 ^ 22)) && (ranges.zipIdx.all (fun x => ranges.zipIdx.all (fun y =>
      x.2 == y.2 || !areasMeet x.1 y.1)))
    && p.home.all (fun t => p.count.getD t 0 != 0)

def poolOk (p : PoolParams) : Bool :=
  poolShape p && poolPages p && decide (4 * p.layers * maxBlocks p ≤ p.ptStride) && areasApart (poolAreas p)

/-- Does the codeword's address lie in a range of package memory? -/
def cwIn (s : State) (base len cw : Nat) : Bool :=
  match dpaOf s cw with
  | some d => decide (base ≤ d) && decide (d < base + len)
  | none => false

/-- Write zeros over a range of whole codewords: what the memory lists there goes, and every line that the host may cache
is touched. -/
def zeroRange (base len : Nat) (s : State) : State :=
  { s with pkg := { s.pkg with
    bytes := s.pkg.bytes.filter (fun kv => !cwIn s base len (kv.1 / 64))
    poison := s.pkg.poison.filter (fun kv => !cwIn s base len kv.1)
    under := s.pkg.under.filter (fun kv => !cwIn s base len kv.1)
    errors := s.pkg.errors.filter (fun kv => !cwIn s base len kv.1)
    touch := s.pkg.touch ++ (s.host.filter.filter (fun l => decide (base ≤ l * 64) && decide (l * 64 < base + len))).map
      (fun l => (l, true)) } }

/-- Link a tile's pages into its free list in ascending id order: the highest is pushed first. -/
def linkPages (p : PoolParams) (s : State) (tile : Nat) : State :=
  let n := p.count.getD tile 0
  forAll (List.range n) (fun a i => pushFree tile p (p.first.getD tile 0 + (n - 1 - i)) a) s

def configPool (p : PoolParams) (s : State) : Answer :=
  if !namesJob s p.job || !poolOk p then refuse stInvalidParam s
  else if s.stepSet.isSome then refuse stBusy s
  else
    let s1 := zeroRange p.ptBase (4096 * p.ptStride) s
    accept (tileList.foldl (linkPages p) { s1 with fennel := { pool := some p, committed := s1.cond.committed } })

/-! ### Slot granules (R81) -/

def releaseSlots (q : Req) (tile first count : Nat) (s : State) : Answer :=
  if decide (8 ≤ tile) || decide (32768 < first + count) then refuse stInvalidParam s
  else beginLong (.slotRelease q tile first count)
    (forAll (List.range count) (fun a i => releaseGranule tile (first + i) a) s)

/-! ### Weight regions (R525) -/

/-- The fields of a declaration. -/
def weightShape (w : WeightParams) : Bool :=
  decide (w.index < 16) && decide (w.source ≤ 3)
    && (if w.source = 3 then decide (w.channel < 4096) && decide (w.window < 256) else w.channel == 0 && w.window == 0)
    && (w.source == 0 || (w.base % 65536 == 0 && w.length % 65536 == 0 && decide (w.base + w.length ≤ memEnd)
      && w.digests % 64 == 0 && decide (w.digests + 32 * (w.length / 65536) ≤ memEnd)
      && match w.source with
        | 1 => w.src % 64 == 0 && decide (w.src < 2 ^ 64)
        | 2 => w.src % 65536 == 0 && decide (w.src + w.length ≤ memEnd)
        | _ => true))

/-- Areas that a region must not overlap: its own digest table and module copy, every other region and its module copy. -/
def weightOthers (w : WeightParams) (s : State) : List (Nat × Nat) :=
  let copy := fun (x : WeightParams) => if x.source = 2 then [(x.src, x.length)] else []
  (w.digests, 32 * (w.length / 65536)) :: copy w
    ++ s.integ.regions.flatMap (fun kv => match kv.2 with
      | some x => if kv.1 = w.index then [] else (x.base, x.length) :: copy x
      | none => [])

def weightOk (w : WeightParams) (s : State) : Bool :=
  weightShape w && (w.source == 0 || (namesJob s w.job && (weightOthers w s).all (fun a => !areasMeet (w.base, w.length) a)))

/-- Declare, replace or remove a region; what was LOST of the old one is forgotten. -/
def setWeights (w : WeightParams) (s : State) : Answer :=
  if !weightOk w s then refuse stInvalidParam s
  else if s.integ.reloading.any (fun b => b.region == w.index && !b.lost) then refuse stBusy s
  else accept { s with integ := { s.integ with
    regions := mapSet none s.integ.regions w.index (if w.source = 0 then none else some w)
    reloading := s.integ.reloading.filter (fun b => b.region != w.index) } }

end Sys2Proof.Machine
end

