-- ==== Sys2Proof/Machine/FabricCmdOps.lean ====
section
/-!
DEFINITION. The plan, members, peers, jobs, channels, windows and ports as the commands of group 5 set them (R109, R384,
R389, R390, R394, R396, R407 to R409, R420, R421, R425, R428, R443, R445, R573, R577).
-/
namespace Sys2Proof.Machine

/-! ### Plan and members -/

def planOk (fabricId : Nat) (plan : List PlanEntry) : Bool :=
  decide (fabricId ≤ 254) && decide (plan.length ≤ 10) && plan.all (fun e => decide (e.plane ≤ 9) && decide (e.swport ≤ 143))

/-- An accepted plan acts on every port at once. -/
def setPlan (fabricId generation : Nat) (plan : List PlanEntry) (s : State) : Answer :=
  if !planOk fabricId plan then refuse stInvalidParam s
  else if s.job.isSome then refuse stBusy s
  else
    let s1 := { s with fabric := { s.fabric with planId := fabricId, planGen := generation % 2 ^ 64, plan := plan } }
    accept (rebuildRoutes (backReady (forAll portList replanPort s1)))

/-- The set in its canonical form. -/
def idSet (ids : List Nat) : List Nat := (List.range 256).filter ids.contains

def setMembers (ids : List Nat) (s : State) : Answer :=
  let l := idSet ids
  if ids.any (fun i => decide (256 ≤ i)) then refuse stInvalidParam s
  else if s.fabric.members.any (fun m => !l.contains m && jobMember s m) then refuse stBusy s
  else accept { s with fabric := { s.fabric with members := l } }

/-! ### Peers (R573, R577) -/

/-- Step 1 of the exchange: a fresh nonce and encapsulation key go to the peer. One that is not planned is not asked, and
its admission ends. -/
def attestPeer (q : Req) (peer : Nat) (s : State) : Answer :=
  if decide (254 < peer) || peer == ownId s then refuse stInvalidParam s
  else if !s.fabric.members.contains peer then .now stSuccess (le 8 1 ++ le 32 0) (endAdmission peer s)
  else
    let n := Config.random s.sec.draws
    let ek := Config.random (s.sec.draws + 1)
    let s1 := mgmtSend peer mgmtPaReq [n, ek] { s with sec := { s.sec with draws := s.sec.draws + 2 } }
    .later { s1 with
      mgmt := { s1.mgmt with executing := .peerAttest q peer }
      fabric := { s1.fabric with attest := some peer } }

/-! ### Jobs -/

/-- Members besides this module. -/
def otherMembers (s : State) (members : List Nat) : List Nat := members.filter (· != ownId s)

/-- Hub channels of a job: to or from the manager, and to each board peer (R407). -/
def hubChannels (s : State) (members : List Nat) (manager : Nat) : List Nat :=
  let others := otherMembers s members
  let step := if manager == ownId s then others else [manager]
  step.flatMap (fun m => [chanKey m 0, chanKey m 1]) ++ (others.filter (boardPeer s)).map (fun m => chanKey m 2)

/-- Channel contexts in use (R406). -/
def contextsUsed (s : State) : Nat := (openKeys s (fun _ _ => true)).length

/-- Are the members different planned ids, with this module and the manager among them, and every other one attested? -/
def membersOk (members : List Nat) (manager : Nat) (s : State) : Bool :=
  members.Nodup && members.contains (ownId s) && members.contains manager
    && (otherMembers s members).all (fun m => s.fabric.members.contains m && attested s m)

def joinJob (job : Nat) (members : List Nat) (manager : Nat) (s : State) : Answer :=
  if !membersOk members manager s then refuse stInvalidParam s
  else if !(otherMembers s members).all (available s) then refuse stNotReady s
  else
    let keys := hubChannels s members manager
    if s.job.isSome || decide (4096 < contextsUsed s + keys.length) then refuse stBusy s
    else accept (forAll keys (fun a k => openChan k (portOfPlane a (hubPlane a (keyPeer k))) 0 0 a)
      { s with job := some ⟨job, members, manager, false⟩, cond := {} })

/-- The step that is discarded, the hub channels and the conductor's state go; the pool stays. -/
def leaveJob (job : Nat) (s : State) : Answer :=
  match s.job with
  | none => refuse stInvalidParam s
  | some j =>
    if j.id != job then refuse stInvalidParam s
    else if uncommitted s || s.stepSet.isSome then refuse stBusy s
    else
      let s1 := discardStep s
      let s2 := forAll (openKeys s1 (fun k _ => decide (keyNum k < 3))) (fun a k => closeChan k a) s1
      accept { s2 with job := none, cond := {} }

/-! ### Channels -/

/-- The local request of an open: the channel is OPENING until the peer's request comes, and the response is sent once it is
OPEN (R409). -/
def openChannel (q : Req) (number peer port low high : Nat) (s : State) : Answer :=
  if decide (number < 8) || decide (4095 < number) || !available s peer || !attested s peer || decide (9 < port)
      || !portUp s port || decide (4096 ≤ low) || decide (4096 ≤ high) then refuse stInvalidParam s
  else if (generalKey s number).isSome || decide (4096 ≤ contextsUsed s) then refuse stBusy s
  else beginLong (.chanOpen q (chanKey peer number)) (openChan (chanKey peer number) port low high s)

/-- A request that waits and a channel in RESET end at once; an OPEN channel closes once what it sent is acknowledged. -/
def closeChannel (q : Req) (number peer : Nat) (s : State) : Answer :=
  let k := chanKey peer number
  if decide (number < 8) || decide (4095 < number) || (getChan s k).state == .closed then refuse stInvalidParam s
  else if (getChan s k).state == .opened then
    beginLong (.chanClose q k) (modChan s k (fun c => { c with state := .closing }))
  else accept (closeChan k s)

/-! ### Windows -/

def winAccumulates (w : WindowParams) : Bool := bit w.ops 1

/-- Where a window lies: a slot window's base is a line of its tile, kept as a byte address (R420). -/
def winPlaced (w : WindowParams) : WindowParams :=
  { w with base := if w.kind = 0 then 64 * w.base else w.base, peers := idSet w.peers }

/-- The table of R420, but for the peers and the number. -/
def winShape (w : WindowParams) : Bool :=
  let b := (winPlaced w).base
  decide (w.kind ≤ 1) && decide (w.ops < 8)
    && (if w.kind = 0 then decide (w.tile < 8) && b % 4096 == 0 && w.bound % 4096 == 0 && decide (b + w.bound ≤ 2 ^ 27)
          && decide (w.ops < 2) && decide (1 ≤ w.consumers) && decide (w.consumers ≤ 63) && w.staging.isNone
        else b % 64 == 0 && w.bound % 64 == 0 && decide (b + w.bound ≤ memEnd) && w.consumers == 0)
    && (if w.kind = 0 || w.staging.isSome then decide (1 ≤ w.expected) && decide (w.expected ≤ 65535) else w.expected == 0)
    && (match w.fence with | some c => decide (c < 4096) | none => true)
    && (match w.staging with | some b' => b' % 64 == 0 && decide (b' + w.bound ≤ memEnd) && winAccumulates w | none => true)

/-- The table of R443, for a window that permits accumulates. -/
def winReduces (w : WindowParams) (s : State) : Bool :=
  !winAccumulates w || (decide (w.targetFmt ≤ 1) && (if w.staging.isSome then decide (w.publish ≤ 2) else w.publish == 0)
    && (s.stepSet.isNone || match w.fence with | some c => isStepCounter s c | none => false))

def winParamsOk (w : WindowParams) (s : State) : Bool :=
  decide (w.number ≤ 255) && !(w.number == 255 && openTrust s) && winShape w && winReduces w s
    && w.peers.all (fun p => decide (p < 256) && jobMember s p && attested s p)

/-- Touch bits in use once the window has its own. -/
def touchWith (w : WindowParams) (s : State) : SMap Nat :=
  match w.staging with
  | some b => addTouch b w.bound s s.fabric.touchUsed
  | none => s.fabric.touchUsed

/-- Open a window: its epoch follows the last one used, and each peer receives its notice (R421, R445). -/
def openWindow (w : WindowParams) (s : State) : Answer :=
  if !winParamsOk w s then refuse stInvalidParam s
  else
    let touch := touchWith w s
    if (getWin s w.number).isOpen || touch.any (fun kv => decide (65536 < kv.2)) then refuse stBusy s
    else
      let e := nextEpoch (mapGet 0 s.fabric.winEpochs w.number)
      let x : Window := { isOpen := true, params := some (winPlaced w), epoch := e, stepBound := s.stepSet.isSome }
      let s1 := { s with fabric := { s.fabric with
        touchUsed := touch, winEpochs := mapSet 0 s.fabric.winEpochs w.number e
        windows := mapSet {} s.fabric.windows w.number x } }
      .now stSuccess (le 2 e) (forAll (winPlaced w).peers (fun a p => sendNotice w.number p a) (winBegin w.number s1))

def closeWindow (q : Req) (w : Nat) (s : State) : Answer :=
  if decide (255 < w) || !(getWin s w).isOpen then refuse stInvalidParam s
  else beginLong (.windowClose q w) (modWin s w (fun x => { x with closing := true }))

/-- Epoch, in-flight count and the counts of R448; a closed window's read zero. -/
def windowBytes (x : Window) : List Byte :=
  le 2 x.epoch ++ le 4 x.inflight.length
    ++ [x.counts.epochs, x.counts.nan, x.counts.inf, x.counts.stale, x.counts.incomplete].flatMap (le 4) ++ le 12 0

def windowStatus (w : Nat) (s : State) : Answer :=
  if 255 < w then refuse stInvalidParam s else .now stSuccess (windowBytes (getWin s w)) s

/-- Open trust for the module's job (R428). -/
def trustJob (job : Nat) (s : State) : Answer :=
  match s.job with
  | none => refuse stInvalidParam s
  | some j =>
    if j.id == job && bit s.sec.policy 0 && (otherMembers s j.members).all (attested s) && !(getWin s 255).isOpen then
      accept { s with job := some { j with openTrust := true } }
    else refuse stInvalidParam s

/-! ### Ports -/

/-- A record of `PORT_STATUS` (R396). -/
def portBytes (s : State) (p : Nat) : List Byte :=
  let x := getPort s p
  layout 32 [(0, 1, portStateCode x.state), (1, 1, x.cause), (2, 1, x.minor), (3, 1, x.planeSeen),
    (4, 1, ((s.fabric.plan[p]?).map (·.plane)).getD 0xFF), (5, 1, x.swport), (6, 2, x.loopNs), (8, 4, x.trains),
    (12, 4, x.replays), (16, 4, x.uncorr), (20, 1, x.laneBad), (21, 1, x.reach.toNat + 2 * x.fromSaved.toNat)]

/-- Run a change over the ports of a mask. -/
def overPorts (mask : Nat) (f : Nat → State → State) (s : State) : Answer :=
  if mask < 1024 then accept ((maskBits 10 mask).foldl (fun a p => f p a) s) else refuse stInvalidParam s

def retrainPort (p : Nat) (s : State) : State :=
  if (getPort s p).disabled then s else startTraining p (portDown p pcRetrain s)

def disablePort (p : Nat) (s : State) : State :=
  backReady (portDown p pcDisabled (modPort s p (fun x => { x with disabled := true })))

/-- Training starts at once (DESIGN CHOICE: no interval is stated). -/
def enablePort (p : Nat) (s : State) : State :=
  if (getPort s p).disabled then startTraining p (modPort s p (fun x => { x with disabled := false })) else s

end Sys2Proof.Machine
end

