-- ==== Sys2Proof/Machine/EngineOps.lean ====
section
/-!
DEFINITION. Step task sets, job resumption, drains and aborts, engine configurations and tables, fences and barriers as the
commands of group 6 set them (R54, R58, R60, R84, R93, R110, R135, R142, R148, R154, R217, R218, R251, R267, R292 to R296,
R318, R528, R554 to R556).
-/
namespace Sys2Proof.Machine

def readCaps (cls : Nat) (s : State) : Answer :=
  if 1 ≤ cls && cls ≤ 8 then .now stSuccess (capBytes cls) s else refuse stInvalidParam s

/-! ### Registering a step task set (R110, R251, R267) -/

/-- The abort limit: 3 where the request leaves it at 0 (R135; DESIGN CHOICE: how the default is asked for). -/
def limitOf (n : Nat) : Nat := if n = 0 then 3 else n

/-- Bytes of the eight overlays, which follow the lists. -/
def overlayBytes (p : PoolParams) (f : StepSetParams) : Nat :=
  16 * p.layers * (ceilDiv f.tokenBudget 32 + f.seqsPerStep)

/-- Do the overlays fit behind the lists? -/
def overlaysFit (p : PoolParams) (f : StepSetParams) : Bool :=
  let a := (p.work + 2048 * p.listBytes, overlayBytes p f)
  decide (a.1 + a.2 ≤ memEnd) && (poolAreas p).dropLast.all (fun b => !areasMeet a b)

/-- Bytes of the step buffer. -/
def bufferBytes (f : StepSetParams) : Nat := tokenListAt f + 4 * f.tokenBudget

def setShape (f : StepSetParams) : Bool :=
  decide (1 ≤ f.tokenBudget) && decide (f.tokenBudget ≤ 32768) && decide (1 ≤ f.seqsPerStep) && decide (f.seqsPerStep ≤ 4096)
    && decide (f.drafts ≤ 16) && decide (f.reserve ≤ f.tokenBudget) && decide (f.abortLimit ≤ 15)
    && decide (1 ≤ f.barLocal) && decide (f.barLocal ≤ 512) && f.counters.all (fun c => decide (c < 4096))
    && decide (f.seed < 2 ^ 64) && (f.tasks ++ f.residency).all (fun t => decide (t.tile < 8) && t.addr % 64 == 0)
    && f.buffer % 64 == 0 && decide (f.buffer + bufferBytes f ≤ memEnd)

/-- The registration's own rules: a job of this module with its pool, and fields in range. -/
def setOk (f : StepSetParams) (s : State) : Bool :=
  namesJob s f.job && setShape f && match s.fennel.pool with
    | some p => p.job == f.job && overlaysFit p f
    | none => false

/-- The member's capacity in blocks. -/
def capacityOf (p : PoolParams) : Nat :=
  let l := (tileList.filter (fun t => p.home.contains t)).map (fun t => p.count.getD t 0 / (homeLayers p t).length)
  match l with
  | [] => 0
  | x :: xs => xs.foldl min x

/-- A refused task: fault code, `TASK_ID` and op index (R58). -/
structure TaskRefusal where
  code : Nat
  taskId : Nat
  index : Nat
deriving DecidableEq, Repr

/-- Judge one step task. -/
def judgeStep (f : StepSetParams) (t : SetTask) (s : State) : (Option TaskRefusal × Task) × State :=
  let (r, s1) := admission t.tile t.addr (some f) s
  let d := r.1
  let k : Task := { desc := d, addr := t.addr, source := .stepSet, phase := .parked }
  match r.2 with
  | .refuse code index => ((some ⟨code, dTaskId d, index⟩, k), s1)
  | .accepted ops compat => ((none, { k with ops := ops, compat := compat }), s1)

/-- Judge step tasks in order, up to the first that is refused. -/
def judgeSteps (f : StepSetParams) : List SetTask → State → (Option TaskRefusal × List (Nat × Task)) × State
  | [], s => ((none, []), s)
  | t :: ts, s =>
    let (r, s1) := judgeStep f t s
    match r.1 with
    | some e => ((some e, []), s1)
    | none =>
      let (q, s2) := judgeSteps f ts s1
      ((q.1, (t.tile, r.2) :: q.2), s2)

/-- Judge residency tasks: a readable descriptor that is bound to no step. -/
def judgeLoads : List SetTask → State → Option TaskRefusal × State
  | [], s => (none, s)
  | t :: ts, s =>
    let (r, s1) := readDesc t.addr s
    if r.2 then (some ⟨fPoison, dTaskId r.1, noOp⟩, s1)
    else if dStepBind r.1 then (some ⟨fFormat, dTaskId r.1, noOp⟩, s1)
    else judgeLoads ts s1

/-- Is there room for the step tasks on every tile (R93)? -/
def placesFor (f : StepSetParams) (s : State) : Bool :=
  tileList.all (fun t =>
    let n := (f.tasks.filter (fun x => x.tile == t)).length
    decide (n ≤ 48) && decide ((getTile s t).tasks.length + n ≤ 64))

/-- The set is registered: its tasks are resident and parked, barrier 0 is the step barrier. The residency tasks are only
noted: software has submitted them on its rings (R84, R111; DEDUCED). -/
def registerSet (f : StepSetParams) (capacity : Nat) (ks : List (Nat × Task)) (s : State) : State :=
  match s.job with
  | none => s
  | some j =>
    let f1 := { f with abortLimit := limitOf f.abortLimit }
    let s1 := { s with
      stepSet := some ⟨f1, capacity⟩
      cond := { s.cond with memberLimits := mapSet 0 s.cond.memberLimits (ownId s) (capacity + 1) } }
    let s2 := ks.foldl (fun a x => addTask x.1 x.2 a) s1
    releaseWaits (barSetup ⟨0, j.manager, j.members.length, f.barLocal, 1, 0⟩ s2)

def register (f : StepSetParams) (s : State) : Answer :=
  if !setOk f s then refuse stInvalidParam s
  else
    let (r, s1) := judgeSteps f f.tasks s
    let (e, s2) := match r.1 with
      | some e => (some e, s1)
      | none => judgeLoads f.residency s1
    match e with
    | some x => .now stInvalidParam (le 2 x.code ++ le 4 x.taskId ++ le 4 x.index) (esTaskRefused s2)
    | none =>
      if s.stepSet.isSome || !placesFor f s then refuse stBusy s
      else
        let c := (s.fennel.pool.map capacityOf).getD 0
        .now stSuccess (le 4 c) (registerSet f c r.2 s2)

/-- Release: the step that is discarded, the tasks' places, bases and step barrier go. Sequences and step numbers stay
(DESIGN CHOICE). -/
def releaseSet (job : Nat) (s : State) : Answer :=
  if !namesJob s job then refuse stInvalidParam s
  else if s.stepSet.isNone then refuse stWrongState s
  else if uncommitted s then refuse stBusy s
  else
    let s1 := discardStep s
    let s2 := forAll tileList (fun a t => forAll (stepTasks a t) (fun b k => freeTask t k b) a) s1
    accept { s2 with
      stepSet := none
      fences := { s2.fences with bases := [], barriers := mapSet {} s2.fences.barriers 0 {} }
      cond := { s2.cond with
        aborts := 0, held := false, reloadAgain := false, stopped := false, memberLimits := [], residencyWait := 0, owed := []
        doneOwed := none, lostSeen := [] } }

/-- `JOB_RESUME`: LOST blocks are reloaded first, and the hold ends once all of them verify (R135, R528). -/
def resumeJob (job : Nat) (s : State) : Answer :=
  if !(namesJob s job && isManager s) then refuse stInvalidParam s
  else if !s.cond.held then refuse stWrongState s
  else
    let mine := fun (b : WeightBlock) => b.lost && (match weightRegion s b.region with | some w => w.job == job | none => false)
    if s.integ.reloading.any mine then
      accept { s with
        cond := { s.cond with reloadAgain := true }
        integ := { s.integ with reloading := s.integ.reloading.map (fun b =>
          if mine b then { b with lost := false, attempts := 0 } else b) } }
    else accept { s with cond := { s.cond with held := false, reloadAgain := false, aborts := 0 } }

/-! ### Drains and aborts (R554 to R556) -/

def selOk' (q : EngineSel) : Bool :=
  decide (1 ≤ q.tiles) && decide (q.tiles < 256) && decide (q.sel ≤ 2)
    && (if q.sel = 2 then decide (1 ≤ q.classes) && decide (q.classes < 16) else q.classes == 0)
    && (q.sel == 1 || q.job == 0)

def drain (q : Req) (x : EngineSel) (s : State) : Answer :=
  if !selOk' x then refuse stInvalidParam s
  else if s.mgmt.bg.drain.isSome then refuse stBusy s
  else
    let s1 := (maskBits 8 x.tiles).foldl (fun a t => modTile a t (fun y => { y with
      drains := if y.drains.contains x then y.drains else y.drains ++ [x], quiesced := false })) s
    .now stInProgress [] { s1 with mgmt := { s1.mgmt with
      bg := { s1.mgmt.bg with drain := some (q.via, x) }, bgAborted := setBit s1.mgmt.bgAborted 0 false } }

/-- Tasks of the module that are not step tasks, resident or waiting. -/
def looseTasks (s : State) : Nat :=
  (tileList.map (fun t => ((getTile s t).tasks.filter (fun kv => !isStepTask kv.2)).length + (getTile s t).queue.length)).sum

/-- The selected step tasks of the named tiles. -/
def selectedSteps (x : EngineSel) (s : State) : List (Nat × Nat) :=
  (maskBits 8 x.tiles).flatMap (fun t =>
    ((stepTasks s t).filter (fun k => selects x s.job true (dPrio (getTask s t k).desc))).map (fun k => (t, k)))

/-- The uncommitted step of selected tasks that are all parked is aborted too (R556 action 3). -/
def abortParked (x : EngineSel) (s : State) : State :=
  match selectedSteps x s with
  | [] => s
  | (t, k) :: l =>
    if ((t, k) :: l).all (fun y => (getTask s y.1 y.2).phase == .parked) && (s.cond.current.isSome || (liveRun s).isSome) then
      stepFault fAborted (dTaskId (getTask s t k).desc) t false (esFault fAborted (dTaskId (getTask s t k).desc) s)
    else s

/-- Lift a drain; a step task that waited for it is bound. -/
def liftDrain (x : EngineSel) (s : State) : State :=
  let s1 := (maskBits 8 x.tiles).foldl (fun a t => modTile a t (fun y => { y with drains := y.drains.filter (· != x) })) s
  let s2 := match s1.mgmt.bg.drain with
    | some (_, y) => if y == x then { s1 with mgmt := { s1.mgmt with bg := { s1.mgmt.bg with drain := none } } } else s1
    | none => s1
  forAll tileList (fun a t => forAll (stepTasks a t) (fun b k =>
    if (getTask b t k).rebind && (getTask b t k).phase == .parked then bindTask t k b else b) a) s2

def engineAbort (x : EngineSel) (s : State) : Answer :=
  if !selOk' x then refuse stInvalidParam s
  else
    let s1 := (cancelTasks x (abortParked x s)).2
    .now stSuccess (le 4 (looseTasks s - looseTasks s1)) (liftDrain x s1)

/-- Per tile the resident tasks and the drain's state, then whether a drain's result reads `ABORTED` (R487). -/
def engineBytes (s : State) : List Byte :=
  (tileList.flatMap (fun t => [(getTile s t).tasks.length, drainCode s t]) ++ [s.mgmt.bgAborted % 2]).map (BitVec.ofNat 8)

/-! ### Attention configurations (R217, R218) -/

/-- Rules of the record table. -/
def configOk (c : List Byte) : Bool :=
  let q := sfF c 2 1
  let kv := sfF c 3 1
  let mask := sfF c 5 1
  let rot := sfF c 6 1
  let dims := sfRotDims c
  let fq := q % 16
  let fkv := kv % 16
  decide (sfF c 0 1 ≤ 6) && decide (1 ≤ sfG c) && decide (sfG c ≤ 16)
    && decide (q < 64) && (fq == 1 || fq == 3 || fq == 4) && (!bit q 4 || fq != 1) && (!bit q 5 || bit q 4)
    && decide (kv < 64) && !bit kv 4 && (fkv == 1 || fkv == 3 || fkv == 4 || fkv == 7) && (!bit kv 5 || fkv == 7)
    && decide (sfFo c ≤ 3) && decide (mask < 16) && (!bit mask 3 || bit mask 2)
    && decide (rot < 8) && (!bit rot 0 || !bit q 4) && (!bit rot 1 || fkv == 1)
    && fin32 (sfScale c) && bits (sfScale c) 30 23 != 0
    && (if bit mask 2 then decide (1 ≤ sfW c) && decide (sfW c ≤ 65536) else sfW c == 0)
    && sfCap c % 128 == 0 && decide (128 ≤ sfCap c) && decide (sfCap c ≤ 524288)
    && dims % 2 == 0 && decide (dims ≤ sfD c) && (dims != 0 || rot % 4 == 0)
    && decide (sfF c 24 4 < 2 ^ 21) && sfF c 7 1 == 0 && sfF c 22 2 == 0 && sfF c 28 36 == 0

/-- Does a resident task name the configuration? -/
def configNamed (s : State) (i : Nat) : Bool :=
  tileList.any (fun t => (getTile s t).tasks.any (fun kv => kv.2.ops.any (fun o => opClass o == 2 && sfCfgIx o == i)))

def loadConfig (i : Nat) (c : List Byte) (s : State) : Answer :=
  if c.length != 64 then refuse stLength s
  else if decide (64 ≤ i) || !configOk c then refuse stInvalidParam s
  else if configNamed s i then refuse stBusy s
  else accept { s with cfg := { s.cfg with
    attn := mapSet none s.cfg.attn i (some c), attnSource := mapSet none s.cfg.attnSource i (some c) } }

/-! ### Segment tables (R292 to R296) -/

def engineList : List (Nat × Nat) := tileList.flatMap (fun t => [(t, 0), (t, 1)])

/-- The table goes to the shadow banks; engines between ops swap at once. -/
def shadowTable (slot : Nat) (img : List Byte) (s : State) : State :=
  let m := engineList.foldl (fun a e => mapMod {} a (tableKey e.1 e.2 slot) (fun x =>
    { x with shadow := img, shadowReady := true })) s.cfg.tables
  let s1 := { s with cfg := { s.cfg with tables := m, tableSource := mapSet [] s.cfg.tableSource slot img } }
  forAll engineList (fun a e => if smBoundary a e.1 e.2 then swapTable e.1 e.2 slot a else a) s1

def loadTable (q : Req) (slot dpa : Nat) (s : State) : Answer :=
  if decide (15 < slot) || dpa % 64 != 0 || decide (memEnd < dpa + 832) then refuse stInvalidParam s
  else
    let (r, s1) := pkgRead 1 0 dpa 832 s
    if r.2 then refuse stHwError s1
    else if !tableOk r.1 then refuse stInvalidParam s1
    else beginLong (.tableLoad q slot) (shadowTable slot r.1 s1)

/-- An image: of a slot's active bank (0), of the compatibility bank (1) or of an internal evaluator (2), which is a copy
of native slot 0, 2 or 4. An empty slot's bytes are open. -/
def readTable (kind index : Nat) (s : State) : Answer :=
  if kind = 0 && index ≤ 15 then
    if (mapGet {} s.cfg.tables (tableKey 0 0 index)).loaded then .now stSuccess (fit 832 (slotTable s 0 0 index).img) s
    else
      let (v, s1) := takeFree (8 * 832) s
      .now stSuccess (le 832 v) s1
  else if kind = 1 && index ≤ 10 then .now stSuccess (fit 832 (compatImage index)) s
  else if kind = 2 && index ≤ 2 then .now stSuccess (fit 832 (nativeImage (2 * index))) s
  else refuse stInvalidParam s

/-! ### Fences and barriers (R142, R148, R154) -/

def setFence (c : Nat) (v : BitVec 64) (s : State) : Answer :=
  if 4096 ≤ c then refuse stInvalidParam s
  else if isStepCounter s c then refuse stBusy s
  else accept (noteWaits (fencePut c v.toNat (noteWaits s)))

def readFences (first count : Nat) (s : State) : Answer :=
  if 1 ≤ count && count ≤ 512 && first + count ≤ 4096 then
    .now stSuccess ((List.range count).flatMap (fun i => le 8 (fenceVal s (first + i)))) s
  else refuse stInvalidParam s

def barrierOk (b : BarrierParams) : Bool :=
  decide (b.barrier < 64) && decide (b.root ≤ 254) && decide (1 ≤ b.members) && decide (b.members ≤ 144)
    && decide (1 ≤ b.localCount) && decide (b.localCount ≤ 512) && decide (b.arrCh < 4096) && decide (b.relCh < 4096)

def configBarrier (b : BarrierParams) (s : State) : Answer :=
  if !barrierOk b then refuse stInvalidParam s
  else if b.barrier == 0 && s.stepSet.isSome then refuse stBusy s
  else accept (releaseWaits (barSetup b s))

end Sys2Proof.Machine
end

