-- ==== Sys2Proof/Machine/Engines.lean ====
section
/-!
DEFINITION. The mailbox commands of group 6: engines, step sets, tables, fences and barriers (R491).
-/
namespace Sys2Proof.Machine

/-- ENGINE_CAPS_READ (R54). -/
def execEngineCapsRead (q : Req) (cls : Nat) (s : State) : Host.Outcome State Fault Refusal :=
  .next (mailbox (.engineCapsRead q cls) 0x0601 vMb0 sUCNRF false false q (readCaps cls) s)

/-- STEP_SET_REGISTER (R58, R60, R110, R251, R267). -/
def execStepSetRegister (q : Req) (f : StepSetParams) (s : State) : Host.Outcome State Fault Refusal :=
  .next (mailbox (.stepSetRegister q f) 0x0602 vMb0 sC false false q (register f) s)

/-- STEP_SET_RELEASE (R491). -/
def execStepSetRelease (q : Req) (job : Nat) (s : State) : Host.Outcome State Fault Refusal :=
  .next (mailbox (.stepSetRelease q job) 0x0603 vMb0 (sC + sNp) false false q (releaseSet job) s)

/-- JOB_RESUME (R135, R528). -/
def execJobResume (q : Req) (job : Nat) (s : State) : Host.Outcome State Fault Refusal :=
  .next (mailbox (.jobResume q job) 0x0604 vMb0 sC false false q (resumeJob job) s)

/-- ENGINE_DRAIN (R554, R555). -/
def execEngineDrain (q : Req) (sel : EngineSel) (s : State) : Host.Outcome State Fault Refusal :=
  .next (mailbox (.engineDrain q sel) 0x0605 vMb0 (sC + sNp + sR) false false q (drain q sel) s)

/-- ENGINE_ABORT (R554, R556). -/
def execEngineAbort (q : Req) (sel : EngineSel) (s : State) : Host.Outcome State Fault Refusal :=
  .next (mailbox (.engineAbort q sel) 0x0606 vMb0 (sC + sNp + sR) false false q (engineAbort sel) s)

/-- ENGINE_STATUS (R487, R555). -/
def execEngineStatus (q : Req) (s : State) : Host.Outcome State Fault Refusal :=
  .next (mailbox (.engineStatus q) 0x0607 vMb0 sUCNRF false false q (fun a => .now stSuccess (engineBytes a) a) s)

/-- SF_CONFIG_LOAD (R217, R218). -/
def execSfConfigLoad (q : Req) (index : Nat) (record : List Byte) (s : State) : Host.Outcome State Fault Refusal :=
  .next (mailbox (.sfConfigLoad q index record) 0x0608 vMb0 sC false false q (loadConfig index record) s)

/-- SM_TABLE_LOAD (R295, R296). -/
def execSmTableLoad (q : Req) (slot dpa : Nat) (s : State) : Host.Outcome State Fault Refusal :=
  .next (mailbox (.smTableLoad q slot dpa) 0x0609 vMb0 sC false false q (loadTable q slot dpa) s)

/-- SM_TABLE_READ (R292). -/
def execSmTableRead (q : Req) (kind index : Nat) (s : State) : Host.Outcome State Fault Refusal :=
  .next (mailbox (.smTableRead q kind index) 0x060A vMb0 sC false false q (readTable kind index) s)

/-- FENCE_SET (R142). -/
def execFenceSet (q : Req) (counter : Nat) (value : BitVec 64) (s : State) : Host.Outcome State Fault Refusal :=
  .next (mailbox (.fenceSet q counter value) 0x060B vMb0 (sC + sNp) false false q (setFence counter value) s)

/-- FENCE_READ (R142). -/
def execFenceRead (q : Req) (first count : Nat) (s : State) : Host.Outcome State Fault Refusal :=
  .next (mailbox (.fenceRead q first count) 0x060C vMb0 (sC + sNp + sR) false false q (readFences first count) s)

/-- BARRIER_CONFIG (R148, R154). -/
def execBarrierConfig (q : Req) (b : BarrierParams) (s : State) : Host.Outcome State Fault Refusal :=
  .next (mailbox (.barrierConfig q b) 0x060D vMb0 sC false false q (configBarrier b) s)

end Sys2Proof.Machine
end

