-- ==== Sys2Proof/Machine/Fabric.lean ====
section
/-!
DEFINITION. The fabric's packet commands and channel timers (spec/15_fabric.md).
-/
namespace Sys2Proof.Machine

/-- WRITE (R419, R423, R428). -/
def execWrite (port : Nat) (p : Packet) (s : State) : Host.Outcome State Fault Refusal :=
  .next (withSnoop (.write port p) (inSequence port 0x01 p (onWrite p)) s)

/-- READ (R426). -/
def execRead (port : Nat) (p : Packet) (s : State) : Host.Outcome State Fault Refusal :=
  .next (withSnoop (.read port p) (inSequence port 0x02 p (onRead p)) s)

/-- READ_RESP (R426). -/
def execReadResp (port : Nat) (p : Packet) (s : State) : Host.Outcome State Fault Refusal :=
  .next (withSnoop (.readResp port p) (inSequence port 0x03 p (onReadResp p)) s)

/-- ACCUM (R434 to R437). -/
def execAccum (port : Nat) (p : Packet) (s : State) : Host.Outcome State Fault Refusal :=
  .next (withSnoop (.accum port p) (inSequence port 0x04 p (onAccum p)) s)

/-- FENCE_INC (R145, R147). -/
def execFenceInc (port : Nat) (p : Packet) (s : State) : Host.Outcome State Fault Refusal :=
  .next (withSnoop (.fenceInc port p) (inSequence port 0x05 p (onFenceInc p)) s)

/-- BAR_ARRIVE (R151). -/
def execBarArrive (port : Nat) (p : Packet) (s : State) : Host.Outcome State Fault Refusal :=
  .next (withSnoop (.barArrive port p) (inSequence port 0x06 p (onBarArrive p)) s)

/-- BAR_RELEASE (R151). -/
def execBarRelease (port : Nat) (p : Packet) (s : State) : Host.Outcome State Fault Refusal :=
  .next (withSnoop (.barRelease port p) (inSequence port 0x07 p (onBarRelease p)) s)

/-- ACK (R412, R416). -/
def execAck (port : Nat) (p : Packet) (s : State) : Host.Outcome State Fault Refusal :=
  .next (outOfSequence port 0x10 p (onAck p) s)

/-- NAK (R411). -/
def execNak (port : Nat) (p : Packet) (s : State) : Host.Outcome State Fault Refusal :=
  .next (outOfSequence port 0x11 p (onNak p) s)

/-- REFUSE (R427). -/
def execRefuse (port : Nat) (p : Packet) (s : State) : Host.Outcome State Fault Refusal :=
  .next (outOfSequence port 0x12 p (onRefuse p) s)

/-- ACK_TIMER (R412): what has been applied and not acknowledged for 1 µs is acknowledged. -/
def execAckTimer (peer chan : Nat) (s : State) : Host.Outcome State Fault Refusal :=
  let k := chanKey peer chan
  .next (if (getChan s k).rxUnacked != 0 && ((getChan s k).state == .opened || (getChan s k).state == .closing)
    then sendAck k s else s)

/-- CHANNEL_RETRANSMIT_TIMER (R411): everything from the oldest unacknowledged packet on is sent again. -/
def execChannelRetransmitTimer (peer chan : Nat) (s : State) : Host.Outcome State Fault Refusal :=
  let k := chanKey peer chan
  .next (if (getChan s k).state == .opened || (getChan s k).state == .closing
    then resendAll k ((getChan s k).retained.filter (·.sentOut)) s else s)

/-- BUSY_RESEND_TIMER (R423): a packet refused with `BUSY` goes out again, and what follows it. -/
def execBusyResendTimer (peer chan : Nat) (s : State) : Host.Outcome State Fault Refusal :=
  let k := chanKey peer chan
  .next (match (getChan s k).busySeq with
    | some n => resendFrom k n (modChan s k (fun c => { c with busySeq := none }))
    | none => s)

/-- BUSY_CAP_RECOVER (R416). -/
def execBusyCapRecover (port dest : Nat) (s : State) : Host.Outcome State Fault Refusal :=
  .next (if mapGet 0 s.fabric.caps (port * 256 + dest) = 0 then s else growCap port dest s)

/-- SLOT_WINDOW_CLAIM (R423): a window claims a granule of its bound that has become EMPTY. -/
def execSlotWindowClaim (window granule : Nat) (s : State) : Host.Outcome State Fault Refusal :=
  let x := getWin s window
  .next (match x.params with
    | some p =>
      if x.isOpen && !x.closing && p.kind == 0 && decide (p.base / 4096 ≤ granule)
          && decide (granule < (p.base + p.bound) / 4096) && !x.claimed.contains granule
          && getTag s p.tile granule == tagEmpty && outClaim s p.tile granule == 0 then
        modWin (claimOut (ownerWin window) p.tile granule s) window (fun y => { y with claimed := y.claimed ++ [granule] })
      else s
    | none => s)

end Sys2Proof.Machine
end

