-- ==== Sys2Proof/Machine/FabricCmds.lean ====
section
/-!
DEFINITION. The mailbox commands of group 5: plan, peers, jobs, channels, windows and ports (R491).
-/
namespace Sys2Proof.Machine

/-- FABRIC_PLAN_SET (R389, R390). -/
def execFabricPlanSet (q : Req) (fabricId generation : Nat) (plan : List PlanEntry) (s : State) :
    Host.Outcome State Fault Refusal :=
  .next (mailbox (.fabricPlanSet q fabricId generation plan) 0x0501 vMb0 (sB + sU + sC + sN) false false q
    (setPlan fabricId generation plan) s)

/-- FABRIC_MEMBERS_SET (R394). -/
def execFabricMembersSet (q : Req) (ids : List Nat) (s : State) : Host.Outcome State Fault Refusal :=
  .next (mailbox (.fabricMembersSet q ids) 0x0502 vMb0 (sU + sC + sN) false false q (setMembers ids) s)

/-- PEER_ATTEST (R573, R577). -/
def execPeerAttest (q : Req) (peer : Nat) (s : State) : Host.Outcome State Fault Refusal :=
  .next (mailbox (.peerAttest q peer) 0x0503 vMb0 sC false false q (attestPeer q peer) s)

/-- FABRIC_JOB_JOIN (R109, R394, R407, R574). -/
def execFabricJobJoin (q : Req) (job : Nat) (members : List Nat) (manager : Nat) (s : State) :
    Host.Outcome State Fault Refusal :=
  .next (mailbox (.fabricJobJoin q job members manager) 0x0504 vMb0 sC false false q (joinJob job members manager) s)

/-- FABRIC_JOB_LEAVE (R491). -/
def execFabricJobLeave (q : Req) (job : Nat) (s : State) : Host.Outcome State Fault Refusal :=
  .next (mailbox (.fabricJobLeave q job) 0x0505 vMb0 (sC + sNp) false false q (leaveJob job) s)

/-- CHANNEL_OPEN (R407 to R410). -/
def execChannelOpen (q : Req) (number peer port low high : Nat) (s : State) : Host.Outcome State Fault Refusal :=
  .next (mailbox (.channelOpen q number peer port low high) 0x0506 vMb0 sC false false q
    (openChannel q number peer port low high) s)

/-- CHANNEL_CLOSE (R409). -/
def execChannelClose (q : Req) (number peer : Nat) (s : State) : Host.Outcome State Fault Refusal :=
  .next (mailbox (.channelClose q number peer) 0x0507 vMb0 (sC + sNp) false false q (closeChannel q number peer) s)

/-- WINDOW_OPEN (R420, R421, R443, R445). -/
def execWindowOpen (q : Req) (w : WindowParams) (s : State) : Host.Outcome State Fault Refusal :=
  .next (mailbox (.windowOpen q w) 0x0508 vMb0 sC false false q (openWindow w) s)

/-- WINDOW_CLOSE (R425). -/
def execWindowClose (q : Req) (window : Nat) (s : State) : Host.Outcome State Fault Refusal :=
  .next (mailbox (.windowClose q window) 0x0509 vMb0 (sC + sNp) false false q (closeWindow q window) s)

/-- WINDOW_STATUS (R448). -/
def execWindowStatus (q : Req) (window : Nat) (s : State) : Host.Outcome State Fault Refusal :=
  .next (mailbox (.windowStatus q window) 0x050A vMb0 (sC + sNp) false false q (windowStatus window) s)

/-- FABRIC_OPEN_TRUST (R428). -/
def execFabricOpenTrust (q : Req) (job : Nat) (s : State) : Host.Outcome State Fault Refusal :=
  .next (mailbox (.fabricOpenTrust q job) 0x050B vMb0 sC true false q (trustJob job) s)

/-- PORT_STATUS (R396). -/
def execPortStatus (q : Req) (s : State) : Host.Outcome State Fault Refusal :=
  .next (mailbox (.portStatus q) 0x050C v0M sAll false false q
    (fun a => .now stSuccess (portList.flatMap (portBytes a)) a) s)

/-- PORT_RETRAIN (R384). -/
def execPortRetrain (q : Req) (mask : Nat) (s : State) : Host.Outcome State Fault Refusal :=
  .next (mailbox (.portRetrain q mask) 0x050D v0M sUCNF false false q (overPorts mask retrainPort) s)

/-- PORT_DISABLE (R384). -/
def execPortDisable (q : Req) (mask : Nat) (s : State) : Host.Outcome State Fault Refusal :=
  .next (mailbox (.portDisable q mask) 0x050E v0M sUCNF false false q (overPorts mask disablePort) s)

/-- PORT_ENABLE (R384). -/
def execPortEnable (q : Req) (mask : Nat) (s : State) : Host.Outcome State Fault Refusal :=
  .next (mailbox (.portEnable q mask) 0x050F v0M sUCNF false false q (overPorts mask enablePort) s)

end Sys2Proof.Machine
end

