-- ==== Sys2Proof/Machine/Fennel.lean ====
section
/-!
DEFINITION. The commands of FENNEL: its two ops and its background work (spec/09_fennel.md).
-/
namespace Sys2Proof.Machine

/-- FN_APPEND (R257). -/
def execFnAppend (tile entry : Nat) (parity : Bool) (s : State) : Host.Outcome State Fault Refusal :=
  .next (withSnoop (.fnAppend tile entry parity) (withParity tile entry 6 1 parity (fnFinish tile entry 1)) s)

/-- FN_GATHER (R258). -/
def execFnGather (tile entry : Nat) (parity : Bool) (s : State) : Host.Outcome State Fault Refusal :=
  .next (withSnoop (.fnGather tile entry parity) (withParity tile entry 6 2 parity (fnFinish tile entry 2)) s)

/-- FENNEL_BACKGROUND (R249, R263): one entry of pending work, or one page reclaimed. -/
def execFennelBackground (tile : Nat) (s : State) : Host.Outcome State Fault Refusal :=
  .next (withSnoop (.fennelBackground tile) (background tile) s)

end Sys2Proof.Machine
end

