-- ==== Sys2Proof/Machine/FirmwareOps.lean ====
section
/-!
DEFINITION. Firmware slots and the one firmware transfer (spec/18_mailbox.md R493 to R497, R501).
-/
namespace Sys2Proof.Machine

/-- Bytes of a slot in the flash (R493). -/
def slotBytes : Nat := 56 * 2 ^ 20

/-- States of a slot (R494). -/
def fwReceiving : Nat := 1
def fwReceived : Nat := 2
def fwVerified : Nat := 3
def fwPending : Nat := 4
def fwActive : Nat := 5

/-- Owner of a transfer: 0 MB0, 1 MBM, 2 PLDM. -/
def fwOwner : Via → Nat
  | .mb0 => 0
  | _ => 1

/-- Is a transfer open: begun, and its image not complete? -/
def transferOpen (s : State) : Option Transfer :=
  match s.mgmt.transfer with
  | some t => if (fwSlotOf s t.slot).state == fwReceiving then some t else none
  | none => none

def eraseSlot (slot : Nat) (s : State) : State :=
  { s with mgmt := { s.mgmt with flash := s.mgmt.flash.filter (fun kv => kv.1 / slotBytes != slot) } }

/-- Open a transfer into a slot that is erased for it. -/
def openTransfer (owner slot size : Nat) (s : State) : Nat × State :=
  let id := s.mgmt.nextTransfer % 2 ^ 16
  let s1 := modFwSlot slot (fun _ => { state := fwReceiving, size := size }) (eraseSlot slot (dropTransfer s))
  (id, { s1 with mgmt := { s1.mgmt with nextTransfer := id + 1, transfer := some ⟨owner, id, slot, size, 0, 0, 0⟩ } })

/-- Status of a request to begin a transfer (R494, R495). -/
def beginStatus (owner slot size : Nat) (s : State) : Nat :=
  if decide (1 < slot) || decide (size < 4096) || decide (58720256 < size) || (fwSlotOf s slot).state == fwActive then
    stInvalidParam
  else match transferOpen s with
    | some t => if t.owner == owner then stSuccess else stBusy
    | none => stSuccess

def fwBegin (q : Req) (slot size : Nat) (s : State) : Answer :=
  let st := beginStatus (fwOwner q.via) slot size s
  if st == stSuccess then
    let r := openTransfer (fwOwner q.via) slot size s
    .now stSuccess (le 2 r.1) r.2
  else refuse st s

/-- Take a chunk of an image; `full` is the length of every chunk but the last. None where R495 refuses it. -/
def takeChunk (t : Transfer) (full offset : Nat) (data : List Byte) (s : State) : Option State :=
  let n := data.length
  if n == 0 || decide (full < n) then none
  else if t.got != 0 && offset == t.lastOff && n == t.lastLen then some s
  else if (fwSlotOf s t.slot).state == fwReceiving && offset == t.got && decide (t.got + n ≤ t.size)
      && (n == full || t.got + n == t.size) then
    let s1 := { s with mgmt := { s.mgmt with
      flash := memWrite s.mgmt.flash (t.slot * slotBytes + offset) data
      transfer := some { t with got := t.got + n, lastOff := offset, lastLen := n } } }
    some (if t.got + n == t.size then modFwSlot t.slot (fun x => { x with state := fwReceived }) s1 else s1)
  else none

/-- Bytes received so far. -/
def gotBytes (s : State) : Nat := (s.mgmt.transfer.map (·.got)).getD 0

/-- The transfer with an id. -/
def transferOf (s : State) (id : Nat) : Option Transfer :=
  match s.mgmt.transfer with
  | some t => if t.id == id then some t else none
  | none => none

def fwTransfer (id offset : Nat) (data : List Byte) (s : State) : Answer :=
  match transferOf s id with
  | none => refuse stInvalidParam s
  | some t => match takeChunk t 4064 offset data s with
    | some s1 => .now stSuccess (le 4 (gotBytes s1)) s1
    | none => refuse stInvalidParam s

/-- The image of a slot. -/
def imageOf (s : State) (slot : Nat) : List Byte := memRead s.mgmt.flash (slot * slotBytes) (fwSlotOf s slot).size

/-- Reason for which an image fails (R496), 0 for none: `verdict` is 1 for the signature, 2 for the part number. -/
def verifyReason (t : Transfer) (verdict svn : Nat) (s : State) : Nat :=
  if (fwSlotOf s t.slot).state != fwReceived then 4
  else if verdict == 1 || verdict == 2 then verdict
  else if svn < s.mgmt.minSvn then 3
  else 0

/-- The slot has verified. -/
def markVerified (t : Transfer) (version svn : Nat) (s : State) : State :=
  modFwSlot t.slot (fun x => { x with
    state := fwVerified, version := version, svn := svn, measure := Config.sha3 (imageOf s t.slot) }) s

def fwVerify (id verdict version svn : Nat) (s : State) : Answer :=
  match transferOf s id with
  | none => refuse stInvalidParam s
  | some t =>
    let r := verifyReason t verdict svn s
    if r == 0 then
      let s1 := markVerified t version svn s
      .now stSuccess (le 4 version ++ le 4 svn ++ le 32 (fwSlotOf s1 t.slot).measure)
        { s1 with mgmt := { s1.mgmt with transfer := none } }
    else .now stVerifyFailed (le 1 r) s

/-- A VERIFIED slot becomes PENDING; one that is PENDING returns to VERIFIED (R497; DEDUCED: the slot that the command
names, since only one slot is not ACTIVE). None for any other. -/
def activateSlot (slot : Nat) (s : State) : Option State :=
  if 1 < slot then none
  else if (fwSlotOf s slot).state == fwVerified then some (modFwSlot slot (fun x => { x with state := fwPending }) s)
  else if (fwSlotOf s slot).state == fwPending then some (modFwSlot slot (fun x => { x with state := fwVerified }) s)
  else none

/-- States that accept `FW_ACTIVATE` in a mode (R491). -/
def activateStates (mode : Nat) : Nat := if mode = 1 then sU + sNm + sF else sUCNF

def fwActivate (q : Req) (slot mode : Nat) (s : State) : Answer :=
  if 1 < mode then refuse stInvalidParam s
  else match activateSlot slot s with
    | none => refuse stInvalidParam s
    | some s1 =>
      if mode = 1 then .later (moduleRestart 8 (respond q 0x0305 stSuccess [] s1)) else accept s1

/-- End a transfer whose image has not verified: its slot is EMPTY. -/
def cancelTransfer (t : Transfer) (s : State) : State :=
  let st := (fwSlotOf s t.slot).state
  let s1 := if st == fwReceiving || st == fwReceived then modFwSlot t.slot (fun _ => {}) s else s
  { s1 with mgmt := { s1.mgmt with transfer := none } }

def fwCancel (id : Nat) (s : State) : Answer :=
  match transferOf s id with
  | none => refuse stInvalidParam s
  | some t => accept (cancelTransfer t s)

/-- A slot record of `FW_INFO`. -/
def slotRecord (x : FwSlot) : List Byte :=
  layout 64 [(0, 1, x.state), (4, 4, x.version), (8, 4, x.svn), (12, 4, x.size),
    (32, 32, if fwVerified ≤ x.state then x.measure else 0)]

def fwInfoBytes (s : State) : List Byte :=
  slotRecord s.mgmt.slotA ++ slotRecord s.mgmt.slotB ++ le 4 s.mgmt.minSvn ++ le 1 s.mgmt.fiBoot

/-! ### PLDM type 5 (R501) -/

/-- Does the module answer PLDM messages? Before an endpoint id is assigned it answers none (R498). -/
def pldmServed (s : State) : Bool := s.mgmt.eid != 0 && s.mgmt.mb0.ready

/-- A reply: completion code 0 for success (PRESUMED, DSP0240); the code of a refusal is an open value. -/
def pldmAnswer (ok : Bool) (s : State) : State :=
  if ok then emit s (.pldmReply [0])
  else
    let (c, s1) := takeFree 8 s
    emit s1 (.pldmReply [c])

/-- A type 5 request in a state that accepts the firmware commands. -/
def pldmUpdate (f : State → Option State) (s : State) : State :=
  if !pldmServed s then s
  else if !stateAccepts s sUCNF then pldmAnswer false s
  else match f s with
    | some s1 => pldmAnswer true s1
    | none => pldmAnswer false s

def requestUpdate (slot size : Nat) (s : State) : Option State :=
  if beginStatus 2 slot size s == stSuccess then some (openTransfer 2 slot size s).2 else none

/-- The transfer that PLDM began. -/
def pldmTransfer (s : State) : Option Transfer :=
  match s.mgmt.transfer with
  | some t => if t.owner == 2 then some t else none
  | none => none

/-- Verification of a complete image, reported by VerifyComplete: 0 or the reason of R496 (DESIGN CHOICE: its form). -/
def pldmVerify (verdict version svn : Nat) (s : State) : State :=
  match pldmTransfer s with
  | some t =>
    if (fwSlotOf s t.slot).state != fwReceived then s
    else
      let r := verifyReason t verdict svn s
      emit (if r == 0 then markVerified t version svn s else s) (.pldmReply [r])
  | none => s

/-- A chunk that the module asked for; the last one starts the verification. -/
def firmwareData (offset : Nat) (data : List Byte) (verdict version svn : Nat) (s : State) : State :=
  match pldmTransfer s with
  | some t =>
    if !pldmServed s || !stateAccepts s sUCNF || (fwSlotOf s t.slot).state != fwReceiving then s
    else match takeChunk t 1024 offset data s with
      | some s1 => pldmVerify verdict version svn s1
      | none => s
  | none => s

/-- ActivateFirmware: the verified slot of the update, for the next module reset only. -/
def activateFirmware (selfContained : Bool) (s : State) : Option State :=
  match pldmTransfer s with
  | some t =>
    if selfContained || (fwSlotOf s t.slot).state != fwVerified then none
    else
      let s1 := modFwSlot t.slot (fun x => { x with state := fwPending }) s
      some { s1 with mgmt := { s1.mgmt with transfer := none } }
  | none => none

def cancelUpdate (s : State) : Option State := (pldmTransfer s).map (fun t => cancelTransfer t s)

end Sys2Proof.Machine
end

