-- ==== Sys2Proof/Machine/Firmware.lean ====
section
/-!
DEFINITION. The firmware commands (R491 group 3) and PLDM type 5 (R501).
-/
namespace Sys2Proof.Machine

/-- FW_INFO (R494). -/
def execFwInfo (q : Req) (s : State) : Host.Outcome State Fault Refusal :=
  .next (mailbox (.fwInfo q) 0x0301 v0M sAll false false q (fun a => .now stSuccess (fwInfoBytes a) a) s)

/-- FW_BEGIN (R495). -/
def execFwBegin (q : Req) (slot size : Nat) (s : State) : Host.Outcome State Fault Refusal :=
  .next (mailbox (.fwBegin q slot size) 0x0302 v0M sUCNF false false q (fwBegin q slot size) s)

/-- FW_TRANSFER (R495). -/
def execFwTransfer (q : Req) (id offset : Nat) (data : List Byte) (s : State) : Host.Outcome State Fault Refusal :=
  .next (mailbox (.fwTransfer q id offset data) 0x0303 v0M sUCNF false false q (fwTransfer id offset data) s)

/-- FW_VERIFY (R496). -/
def execFwVerify (q : Req) (id verdict version svn : Nat) (s : State) : Host.Outcome State Fault Refusal :=
  .next (mailbox (.fwVerify q id verdict version svn) 0x0304 v0M sUCNF false false q (fwVerify id verdict version svn) s)

/-- FW_ACTIVATE (R497). -/
def execFwActivate (q : Req) (slot mode : Nat) (s : State) : Host.Outcome State Fault Refusal :=
  .next (mailbox (.fwActivate q slot mode) 0x0305 v0M (activateStates mode) false false q (fwActivate q slot mode) s)

/-- FW_CANCEL (R495). -/
def execFwCancel (q : Req) (id : Nat) (s : State) : Host.Outcome State Fault Refusal :=
  .next (mailbox (.fwCancel q id) 0x0306 v0M sUCNF false false q (fwCancel id) s)

/-- REQUEST_UPDATE (R501). -/
def execRequestUpdate (slot size : Nat) (s : State) : Host.Outcome State Fault Refusal :=
  .next (pldmUpdate (requestUpdate slot size) s)

/-- REQUEST_FIRMWARE_DATA (R501). -/
def execRequestFirmwareData (offset : Nat) (data : List Byte) (verdict version svn : Nat) (s : State) :
    Host.Outcome State Fault Refusal :=
  .next (firmwareData offset data verdict version svn s)

/-- ACTIVATE_FIRMWARE (R501). -/
def execActivateFirmware (selfContained : Bool) (s : State) : Host.Outcome State Fault Refusal :=
  .next (pldmUpdate (activateFirmware selfContained) s)

/-- CANCEL_UPDATE (R501). -/
def execCancelUpdate (s : State) : Host.Outcome State Fault Refusal := .next (pldmUpdate cancelUpdate s)

end Sys2Proof.Machine
end

