-- ==== Sys2Proof/Machine/HostLink.lean ====
section
/-!
DEFINITION. The commands of the host link: training and loss, rings and records, host requests, the HDM window, IDE keys and
interrupts (spec/17_host_link.md).
-/
namespace Sys2Proof.Machine

/-- CXL_LINK_TRAINED (R454, R508 step 5): once configuration space answers. -/
def execCxlLinkTrained (width rate : Nat) (flit256 : Bool) (s : State) : Host.Outcome State Fault Refusal :=
  let answers := s.life.state != .off && s.life.boot != .waitRamp && s.life.boot != .waitRelease
  .next (if answers then
      (let thin := decide (width < 16) || decide (rate < 64) || !flit256
       backReady { s with host := { s.host with
         trained := true, narrow := thin, space := { s.host.space with cacheCapable := !thin, memCapable := !thin } } })
    else s)

/-- Does a lost link reset the core (R455)? Not while start-up runs, whose exceptions R510 lists, nor while a thermal trip holds
the module in STANDBY (R592). -/
def linkResets (s : State) : Bool :=
  match s.life.state with
  | .off => false
  | .booting => false
  | .standby => !s.sens.tripped
  | _ => true

/-- A link that is lost while PERST# is released (R455). -/
def linkDown (s : State) : State := if linkResets s then loseLink (coreReset 5 s) else loseLink s

/-- CXL_LINK_DOWN (R455, R544). -/
def execCxlLinkDown (s : State) : Host.Outcome State Fault Refusal := .next (if s.host.trained then linkDown s else s)

/-- IDE_INTEGRITY_FAILURE (R465): only a stream that is secure can fail. -/
def execIdeIntegrityFailure (s : State) : Host.Outcome State Fault Refusal :=
  .next (if (mapGet {} s.host.ide 0).secure || (mapGet {} s.host.ide 1).secure then linkDown (esRaise 12 (ideLost s)) else s)

/-- SNPINV (R27, R459). -/
def execSnpinv (head : Bool) (ring : Nat) (s : State) : Host.Outcome State Fault Refusal := .next (watcherWake head ring s)

/-- TASK (R57, R470): the ring's next descriptor, a TASK or of a reserved kind. -/
def execTask (ring : Nat) (s : State) : Host.Outcome State Fault Refusal :=
  .next (withDesc ring wantTask (submitTask ring) s)

/-- SEQ_NEW (R111, R115, R266, R268). -/
def execSeqNew (ring : Nat) (s : State) : Host.Outcome State Fault Refusal :=
  .next (withDesc ring (fun d => wdKind d == 0x10) (fun d a => applyUpdate ring d (newSeq (newSeqOf ring d) a)) s)

/-- SEQ_FINISH (R111, R115). -/
def execSeqFinish (ring : Nat) (s : State) : Host.Outcome State Fault Refusal :=
  .next (withDesc ring (fun d => wdKind d == 0x11) (fun d a => applyUpdate ring d (finishSeq (wdF d 20 2) a)) s)

/-- SEQ_SAMPLE (R111, R115). -/
def execSeqSample (ring : Nat) (s : State) : Host.Outcome State Fault Refusal :=
  .next (withDesc ring (fun d => wdKind d == 0x12)
    (fun d a => applyUpdate ring d (sampleSeq (wdF d 20 2) (wdF d 22 2) a)) s)

/-- COMPLETION_RECORD_WRITE (R471, R472): the record at the front of the ring's queue, once there is room. -/
def execCompletionRecordWrite (cq : Nat) (s : State) : Host.Outcome State Fault Refusal :=
  .next (if s.life.boot = .done && !s.life.linkLost then startRecord cq s else s)

/-- D2H_READ_DATA (R27, R117, R458, R469). -/
def execD2hReadData (id : Nat) (data : List Byte) (s : State) : Host.Outcome State Fault Refusal := .next (readData id data s)

/-- D2H_WRITE_COMPLETION (R155, R466, R471). -/
def execD2hWriteCompletion (id : Nat) (s : State) : Host.Outcome State Fault Refusal := .next (writeDone id s)

/-- HOST_TIMEOUT (R117, R460, R462). -/
def execHostTimeout (id : Nat) (s : State) : Host.Outcome State Fault Refusal := .next (hostTimeout id s)

/-- HDM_DECODER_COMMIT (R461). -/
def execHdmDecoderCommit (base : Nat) (s : State) : Host.Outcome State Fault Refusal := .next (hdmCommit base s)

/-- HDM_READ (R461 to R463). -/
def execHdmRead (offset : Nat) (caches : Bool) (s : State) : Host.Outcome State Fault Refusal :=
  .next (hostRead (.hdmRead offset caches) offset caches s)

/-- HDM_WRITE (R461, R463). -/
def execHdmWrite (offset : Nat) (data : List Byte) (poison : Bool) (s : State) : Host.Outcome State Fault Refusal :=
  .next (hostWrite (.hdmWrite offset data poison) offset data poison s)

/-- BISNP_RESPONSE (R462): with the line's dirty data, if there is any. -/
def execBisnpResponse (line : Nat) (dirty : List Byte) (s : State) : Host.Outcome State Fault Refusal :=
  .next (snoopAnswer line dirty s)

/-- KEY_PROG (R570). -/
def execKeyProg (stream dir sub keySet refresh key : Nat) (s : State) : Host.Outcome State Fault Refusal :=
  .next (keyProg stream dir sub keySet refresh key s)

/-- K_SET_GO (R464, R546, R570): with both streams active again after a link loss, the rings go on. -/
def execKSetGo (stream keySet : Nat) (s : State) : Host.Outcome State Fault Refusal :=
  let s1 := keyGo stream keySet s
  .next (if s1.life.linkLost && s1.host.trained && ideSecure s1 && s1.life.boot = .done then
      askAll (fetchWatched { s1 with life := { s1.life with linkLost := false } })
    else s1)

/-- CQ_MODERATION_EXPIRE (R466). -/
def execCqModerationExpire (cq : Nat) (s : State) : Host.Outcome State Fault Refusal := .next (moderationEnds cq s)

/-- ES_MSIX_HOLDOFF (R619). -/
def execEsMsixHoldoff (s : State) : Host.Outcome State Fault Refusal := .next (holdoffEnds s)

end Sys2Proof.Machine
end

