-- ==== Sys2Proof/Machine/Integrity.lean ====
section
/-!
DEFINITION. Commands of scrubbing, self-tests, weight reloads and tests (spec/20_integrity.md).
-/
namespace Sys2Proof.Machine

def execPkgScrub (tile chan : Nat) (s : State) : Host.Outcome State Fault Refusal := .next (scrubChannel tile chan s)

def execSlotScrub (tile : Nat) (s : State) : Host.Outcome State Fault Refusal := .next (scrubSlot tile s)

def execScrubLapOverdue (tile : Nat) (slot : Bool) (s : State) : Host.Outcome State Fault Refusal :=
  .next (lapOverdue tile slot s)

def execTargetedSelfTest (loc : Loc) (reads : TestReads) (s : State) : Host.Outcome State Fault Refusal :=
  .next (selfTest loc reads s)

def execSelfTestPromote (loc : Loc) (s : State) : Host.Outcome State Fault Refusal := .next (promoteTest loc s)

def execWeightBlockReload (data : List Byte) (sourceOk verified : Bool) (reads : List TestReads) (s : State) :
    Host.Outcome State Fault Refusal :=
  .next (withSnoop (.weightBlockReload data sourceOk verified reads) (reloadNext data sourceOk verified reads) s)

def execBistComplete (bad : List Loc) (elapsed : Nat) (s : State) : Host.Outcome State Fault Refusal :=
  .next (bistDone bad elapsed s)

def execLoopbackComplete (board : Bool) (lostPos lostPlane : List Nat) (elapsed : Nat) (s : State) :
    Host.Outcome State Fault Refusal := .next (loopbackDone board lostPos lostPlane elapsed s)

end Sys2Proof.Machine
end

