-- ==== Sys2Proof/Machine/MaceOps.lean ====
section
/-!
DEFINITION. `MA_ACCUM`: cutting slot operand A into stamped packets, and handing them to a peer or to the module's own
adders (spec/16_collectives.md, R430 to R437, R450, R451).
-/
namespace Sys2Proof.Machine

/-- Elements of one packet (R434). -/
def maPerPacket (op : OpWord) : Nat := if maFmt op = 0 then 1024 else 2048

/-- Packets of one contribution: row, first element, elements. -/
def maCuts (op : OpWord) : List (Nat × Nat × Nat) :=
  let e := maE op
  let n := maPerPacket op
  (List.range (maRows op)).flatMap (fun r =>
    (List.range (ceilDiv e n)).map (fun i => (r, n * i, min n (e - n * i))))

/-- Payload of one packet: its elements, then an FP8 contribution's scales. -/
def maPayload (op : OpWord) (p : SlotAt) (x : Nat × Nat × Nat) (a : Bool × State) : List Byte × (Bool × State) :=
  let w := fmtBits (maFmt op)
  let row := atLine p (maRowLines op * x.1)
  let (bs, a1) := rd 5 { row with byte := row.byte + x.2.1 * w / 8 } (x.2.2 * w / 8) a
  if maFp8 op then
    let sc := atLine p (maRowLines op * maRows op)
    let (ss, a2) := rd 5 { sc with byte := sc.byte + (x.1 * maE op + x.2.1) / maBlk op } (x.2.2 / maBlk op) a1
    (bs ++ ss, a2)
  else (bs, a1)

/-- Target byte of a packet, from the target's first byte. -/
def maAt (op : OpWord) (x : Nat × Nat × Nat) : Nat := (x.1 * maE op + x.2.1) * tgtBytes (maTgt op)

/-- The run tag of the sending task: that of the bound header in a step task, else 0 (R437). To a window of another module a step
task stamps it always: only the target knows whether its window is step-bound, and takes 0 where it is not. -/
def maTag (s : State) (tile : Nat) (e : Entry) : Nat :=
  if isStepTask (getTask s tile e.task) then
    (match s.cond.bound with
     | some h => runTagOf h
     | none => 0)
  else 0

/-- `PH_AUX` of a contribution without its window epoch. -/
def maAux (op : OpWord) (tag : Nat) : Nat :=
  2 ^ 16 * maRidx op + 2 ^ 24 * tag + (if maBlk op = 16 then 2 ^ 32 else 0)

/-- A contribution's packets in order, the last marked; without rows, one empty packet (R450). -/
def maPackets (op : OpWord) : List ((Nat × Nat × Nat) × Bool) :=
  let l := maCuts op
  if l.isEmpty then [((0, 0, 0), true)] else l.zipIdx.map (fun x => (x.1, decide (x.2 + 1 = l.length)))

/-- Where a contribution goes. -/
inductive MaTarget where
  | peer (key window first : Nat)
  | window (number first : Nat)
  | memory (dpa : Nat)
deriving DecidableEq, Repr

def maTarget (s : State) (tile : Nat) (e : Entry) (op : OpWord) : Option MaTarget :=
  let off := 64 * maOffset op
  let dpa := dPkgBase (getTask s tile e.task).desc + off
  if maDest op = 0 then some (.window (maWindow op) off)
  else if maDest op = 1 then (generalKey s (maChannel op)).map (fun k => .peer k (maWindow op) off)
  else if maPos op = s.life.pos then some (.memory dpa)
  else (peerAt s (maPos op)).map (fun p => .peer (chanKey p 2) 0 dpa)

/-- Progress of sending: stopped by a fault code (0 while none), with the state. -/
abbrev MaRun := Nat × State

/-- One packet to a peer. -/
def maSendOne (tile uid : Nat) (op : OpWord) (tag key w first : Nat) (p : SlotAt) (a : MaRun)
    (x : (Nat × Nat × Nat) × Bool) : MaRun :=
  if a.1 != 0 then a
  else
    let (bs, (bad, s1)) := maPayload op p x.1 (false, a.2)
    if bad then (fPoison, s1)
    else
      let stamp := if keyNum key = 2 then 0 else stampEpoch s1 (keyPeer key) w
      (0, sendForOp key tile uid
        { op := 0x04, window := w, fmt := maFmt op, last := x.2, offset := first + maAt op x.1,
          aux := maAux op tag + stamp, payload := bs } s1)

/-- One packet to a window of the module itself: checked as a remote one is, but for its peer set. -/
def maLocalOne (op : OpWord) (tag w first stream : Nat) (p : SlotAt) (a : MaRun)
    (x : ((Nat × Nat × Nat) × Bool) × Nat) : MaRun :=
  if a.1 != 0 then a
  else
    let (bs, (bad, s1)) := maPayload op p x.1.1 (false, a.2)
    if bad then (fPoison, s1)
    else
      let win := getWin s1 w
      let off := first + maAt op x.1.1
      let blk16 := maBlk op = 16
      let vals := contribVals (maFmt op) blk16 bs
      let r := accumReason s1 win true win.epoch off (tgtBytes (winTarget win) * vals.length) (maFmt op) (tagAt win tag) (maRidx op)
      let r' := if r = 0 && winTarget win != maTgt op then rFormat else r
      if r' != 0 then
        (fWindowRefused, esRefusal (log4Add w (ownId s1) 0 off r' s1))
      else if stamped win && stampCase s1 win (tagAt win tag) (maRidx op) == .discarded then
        (0, evHub 0x9B 0 1 (addCounts w { stale := 1 } s1))
      else (0, queueWindow stream x.2 w off vals false x.1.2 s1)

/-- One packet to package memory of the module itself (a board address that names it). -/
def maMemoryOne (op : OpWord) (dpa stream : Nat) (p : SlotAt) (a : MaRun) (x : ((Nat × Nat × Nat) × Bool) × Nat) :
    MaRun :=
  if a.1 != 0 then a
  else
    let (bs, (bad, s1)) := maPayload op p x.1.1 (false, a.2)
    if bad then (fPoison, s1)
    else (0, queueVals stream x.2 0 false (maTgt op) (dpa + maAt op x.1.1)
      (contribVals (maFmt op) (maBlk op = 16) bs) false s1)

/-- A local contribution has been handed to the adders: the op waits until they have applied it. -/
def maHandOver (tile : Nat) (e : Entry) (stream : Nat) (a : MaRun) : State :=
  if a.1 != 0 then failOp tile e.uid a.1 a.2
  else settleLocal stream (freeInstance tile e
    (modEntry tile e.uid (fun y => { y with ended := true, sent := 1 }) a.2))

/-- The stream that the adders know a local contribution by. -/
def maStream (tile uid : Nat) : Nat := 2 * opOwner tile uid + 1

/-- A contribution's packets to a peer. -/
def maSend (tile : Nat) (e : Entry) (key w first : Nat) (s : State) : MaRun :=
  let op := entryOp s e
  (maPackets op).foldl (maSendOne tile e.uid op (maTag s tile e) key w first (opndAt s tile e 0)) (0, s)

/-- A contribution's packets to a window of this module. -/
def maFold (tile : Nat) (e : Entry) (w first : Nat) (s : State) : MaRun :=
  let op := entryOp s e
  (maPackets op).zipIdx.foldl (maLocalOne op (maTag s tile e) w first (maStream tile e.uid) (opndAt s tile e 0)) (0, s)

/-- A contribution's packets to package memory of this module. -/
def maStore (tile : Nat) (e : Entry) (dpa : Nat) (s : State) : MaRun :=
  let op := entryOp s e
  (maPackets op).zipIdx.foldl (maMemoryOne op dpa (maStream tile e.uid) (opndAt s tile e 0)) (0, s)

/-- Is a local window busy with an earlier epoch or its fold, so that the contribution waits? -/
def maWaits (s : State) (tile : Nat) (e : Entry) (w : Nat) : Bool :=
  let x := getWin s w
  x.isOpen && ((stamped x && stampCase s x (tagAt x (maTag s tile e)) (maRidx (entryOp s e)) == .busy) || (x.folding && !x.stepBound))

/-- An op whose packets are queued on its channel holds its instance until the last is sent (R430), and completes once the target
has acknowledged them. -/
def awaitSent (tile uid : Nat) (s : State) : State :=
  match findEntry s tile uid with
  | none => s
  | some e =>
    let s1 := modEntry tile uid (fun x => { x with ended := true }) s
    if e.sent = 0 then (if e.fault = 0 then completeOp tile uid {} s1 else failOp tile uid e.fault s1) else s1

/-- The end of `MA_ACCUM`'s sending. A local window that is busy with an earlier epoch keeps the op waiting. -/
def maFinish (tile uid : Nat) (s : State) : State :=
  match running s tile uid 7 1 with
  | none => s
  | some e =>
    match maTarget s tile e (entryOp s e) with
    | none => failOp tile uid fAborted s
    | some (.peer key w first) =>
      let r := maSend tile e key w first s
      if r.1 != 0 then failOp tile uid r.1 r.2 else awaitSent tile uid r.2
    | some (.window w first) =>
      if maWaits s tile e w then s else maHandOver tile e (maStream tile e.uid) (maFold tile e w first s)
    | some (.memory dpa) => maHandOver tile e (maStream tile e.uid) (maStore tile e dpa s)

end Sys2Proof.Machine
end

