-- ==== Sys2Proof/Machine/PowerOps.lean ====
section
/-!
DEFINITION. The memory controllers' service order and refresh, sensors, the power manager and ALERT# (R361 to R370,
R500, R538, R584 to R586, R591, R592, R599).
-/
namespace Sys2Proof.Machine

/-! ### Memory controllers (R361 to R364) -/

/-- Age of a request in nanoseconds, modulo the stamp's 16 bits. -/
def reqAge (now : Nat) (r : MemReq) : Nat := (now + 65536 - r.stamp % 65536) % 65536

/-- Has a request of class 1 or 2 waited 16 µs? -/
def reqLate (now : Nat) (r : MemReq) : Bool := (r.cls == 1 || r.cls == 2) && (r.promoted || decide (16000 ≤ reqAge now r))

/-- Does `a` go before `b` by R362: lower class, then older, then lower tile? -/
def reqBefore (now : Nat) (a b : MemReq) : Bool :=
  if a.cls != b.cls then decide (a.cls < b.cls)
  else if reqAge now a != reqAge now b then decide (reqAge now b < reqAge now a)
  else decide (a.tile < b.tile)

/-- The first of a list by an order; among equals the one that came first. -/
def firstBy {α : Type} (before : α → α → Bool) : List α → Option α
  | [] => none
  | x :: xs => match firstBy before xs with
    | none => some x
    | some y => if before y x then some y else some x

/-- Is the class 0 share limit in force on a controller (R363)? -/
def shareInForce (s : State) (now : Nat) (q : List MemReq) : Bool :=
  decide (s.pkg.share < 64) && q.any (fun r => (r.cls == 1 || r.cls == 2) && decide (s.pkg.threshold * 1000 < reqAge now r))

/-- An accumulate as its controller weighs it: a request of class 1 (R440). -/
def accReq (a : Accum) : MemReq := ⟨1, a.stamp, a.tile, 0, a.addr, true, 0, false⟩

/-- What waits at a controller and no fold holds back: the engines' requests, and the accumulates, each with its request. -/
def waitingAt (s : State) (t c : Nat) : List (MemReq × Option Accum) :=
  ((getMc s t c).queue.map (fun r => (r, none)) ++ (mapGet [] s.fabric.accums (t * 64 + c)).map (fun a => (accReq a, some a))).filter
    (fun x => !foldHolds s x.1.addr)

/-- What a controller serves next (R362 to R364): a late request goes ahead of every younger one; class 0 keeps to its share of
64 slots, also where an older one would go before a late one. -/
def nextServed (s : State) (t c : Nat) : Option (MemReq × Option Accum) :=
  let now := (getTile s t).timeNs
  let q := waitingAt s t c
  let older := fun (a b : MemReq × Option Accum) => decide (reqAge now b.1 < reqAge now a.1)
  let before := fun (a b : MemReq × Option Accum) => reqBefore now a.1 b.1
  let pool := match firstBy older (q.filter (fun x => reqLate now x.1)) with
    | some old => q.filter (fun x => decide (reqAge now old.1 ≤ reqAge now x.1))
    | none => q
  if shareInForce s now (q.map (·.1)) && decide (s.pkg.share ≤ (getMc s t c).class0)
  then firstBy before (pool.filter (fun x => x.1.cls != 0)) else firstBy before pool

/-- The engines' request that a controller serves next, unless an accumulate goes first. -/
def nextReq (s : State) (t c : Nat) : Option MemReq :=
  match nextServed s t c with
  | some (r, none) => some r
  | _ => none

/-- The accumulate that a controller serves next, unless a request goes first. -/
def nextAccum (s : State) (t c : Nat) : Option Accum :=
  match nextServed s t c with
  | some (_, a) => a
  | none => none

/-- A service slot of a controller goes to a request of a class (R363). -/
def takeSlot (t c cls : Nat) (s : State) : State :=
  modMc s t c (fun x =>
    let turn := decide (63 ≤ x.slotCount)
    { x with
      slotCount := if turn then 0 else x.slotCount + 1
      class0 := if turn then 0 else if cls == 0 then x.class0 + 1 else x.class0 })

/-- An adder applies the accumulate whose turn it is (R439, R440). -/
def serveAccum (t c : Nat) (s : State) : State :=
  match nextAccum s t c with
  | none => s
  | some a => adderServe (t * 64 + c) a (takeSlot t c 1 s)

/-- A latency band's event (R627). -/
def latencyEvent (ns : Nat) : Nat :=
  if ns ≤ 120 then 0x34 else if ns ≤ 500 then 0x35 else if ns ≤ 2000 then 0x36 else 0x37

/-- Serve one request: a read has its effects on cache and codes here; a CLOVE op's data moves when it completes. -/
def serveReq (t c : Nat) (s : State) : State :=
  match nextReq s t c with
  | none => s
  | some r =>
    let age := reqAge (getTile s t).timeNs r
    let s1 := takeSlot t c r.cls (modMc s t c (fun x => { x with queue := x.queue.erase r }))
    if r.write then s1
    else evCount t (latencyEvent age) c r.cls 1 (readCw r.cls r.hint r.addr s1).2

/-- The oldest request of class 1 or 2 that has waited 16 µs is promoted (R364). -/
def promoteReq (t c : Nat) (s : State) : State :=
  let now := (getTile s t).timeNs
  let q := (getMc s t c).queue.filter (fun r => (r.cls == 1 || r.cls == 2) && !r.promoted)
  match firstBy (fun a b => decide (reqAge now b < reqAge now a)) q with
  | none => s
  | some r => evCount t 0x39 c r.cls 1 (modMc s t c (fun x => { x with
      queue := x.queue.map (fun y => if y = r then { y with promoted := true } else y) }))

/-! ### Refresh (R369, R370) -/

/-- Band of a temperature. -/
def bandOf (c : Nat) : Nat := if c ≤ 85 then 0 else if c ≤ 95 then 1 else 2

/-- Upper limit of a band. -/
def bandLimit : Nat → Nat
  | 0 => 85
  | _ => 95

/-- Refresh interval of a band in nanoseconds. -/
def refreshNs : Nat → Nat
  | 0 => 3900 | 1 => 1950 | _ => 980

/-- Has a channel's interval run out since its last refresh? -/
def refreshDue (s : State) (t c : Nat) : Bool :=
  let x := getMc s t c
  x.refreshed == 0 || decide (x.refreshed + refreshNs (mapGet 0 s.pkg.band t) ≤ (getTile s t).timeNs + 1)

/-- One refresh of a channel at its band's interval: 117 slots lost. Memory in self-refresh needs none. -/
def refreshChan (t c : Nat) (s : State) : State :=
  if !s.life.filled || s.life.state = .standby || decide (8 ≤ t) || decide (64 ≤ c) || !refreshDue s t c then s
  else evCount t 0x33 c 0 117 (modMc s t c (fun x => { x with
    refreshes := x.refreshes + 1, refreshed := (getTile s t).timeNs + 1 }))

/-- The hottest of a list of sensors. -/
def hot (l : List Nat) : Nat := l.foldl max 0

/-- Hottest DRAM sensor of a tile (R369, R613). -/
def tileHot (s : State) (t : Nat) : Nat := hot (mapGet [] s.sens.dram t)

/-- A tile returns to the next longer interval. -/
def relaxBand (t : Nat) (s : State) : State :=
  let b := mapGet 0 s.pkg.band t
  if b != 0 && decide (tileHot s t + 2 ≤ bandLimit (b - 1)) then
    { s with pkg := { s.pkg with band := mapSet 0 s.pkg.band t (b - 1) } }
  else s

/-! ### Temperatures (R591) -/

/-- Two successive samples beyond a limit. -/
def twoAbove (limit old new : Nat) : Bool := decide (limit < old) && decide (limit < new)
def twoBelow (limit old new : Nat) : Bool := decide (old < limit) && decide (new < limit)

/-- A warning or an action: its PLDM event and the error summary's bit. -/
def tempEvent (sensor value : Nat) (s : State) : State := esRaise 14 (pldmSend sensor value s)

/-- The same for a junction, for which R500 lists no sensor: the id is open. -/
def junctionEvent (value : Nat) (s : State) : State :=
  let (i, s1) := takeFree 16 s
  tempEvent i value s1

/-- Two samples of `n` sensors, sensor by sensor. -/
def samplePairs (n : Nat) (old new : List Nat) : List (Nat × Nat) := (List.range n).map (fun i => (old.getD i 0, new.getD i 0))

/-- The next value of a warning or an action that begins once a sensor is above one limit and ends once every sensor is below
another. -/
def latch (was : Bool) (above below : Nat) (pairs : List (Nat × Nat)) : Bool :=
  if pairs.any (fun p => twoAbove above p.1 p.2) then true
  else if pairs.all (fun p => twoBelow below p.1 p.2) then false else was

/-- A tile's DRAM layers: their hottest sensor counts (R591). -/
def sampleDram (t old new : Nat) (s : State) : State :=
  let x := getTile s t
  let warn := latch x.warnDram 95 96 [(old, new)]
  let hold := latch x.tempHold 105 100 [(old, new)]
  let s1 := modTile s t (fun y => { y with warnDram := warn, tempHold := hold })
  let s2 := { s1 with pkg := { s1.pkg with band := mapMod 0 s1.pkg.band t (fun b => max b (bandOf new)) } }
  let s3 := if warn && !x.warnDram then tempEvent (t + 1) new s2 else s2
  if hold && !x.tempHold then tempEvent (t + 1) new s3 else s3

/-- A tile's 8 junction sensors. -/
def sampleJunction (t : Nat) (old new : List Nat) (s : State) : State :=
  let x := getTile s t
  let warn := latch x.warnJunction 95 96 (samplePairs 8 old new)
  let half := latch x.halved 105 100 (samplePairs 8 old new)
  let s1 := modTile s t (fun y => { y with warnJunction := warn, halved := half })
  let s2 := if warn && !x.warnJunction then junctionEvent (hot new) s1 else s1
  if half && !x.halved then junctionEvent (hot new) s2 else s2

/-- The hub die's 8 sensors. -/
def sampleHub (old new : List Nat) (s : State) : State :=
  let warn := latch s.sens.hubWarn 95 96 (samplePairs 8 old new)
  let lim := latch s.sens.hubLimited 105 100 (samplePairs 8 old new)
  let s1 := { s with sens := { s.sens with hubWarn := warn, hubLimited := lim } }
  let s2 := if warn && !s.sens.hubWarn then tempEvent 9 (hot new) s1 else s1
  if lim && !s.sens.hubLimited then tempEvent 9 (hot new) s2 else s2

/-- Does a sensor stand at 115 °C or above in two successive samples? -/
def fatalTemp (pairs : List (Nat × Nat)) : Bool := pairs.any (fun p => decide (115 ≤ p.1) && decide (115 ≤ p.2))

/-- The samples of a tile that can shut the module down: its hottest DRAM sensor's, and its junctions'. -/
def tilePairs (s : State) (t : Nat) (x : TileTemps) : List (Nat × Nat) :=
  (tileHot s t, hot x.dram) :: samplePairs 8 (mapGet [] s.sens.junction t) x.junction

/-- One sample of every sensor. -/
def sampleTemps (ts : List TileTemps) (hub : List Nat) (s : State) : State :=
  if !s.life.inputOn then s
  else
    let at' := fun (t : Nat) => ts.getD t ⟨[], []⟩
    let old := s.sens
    let fatal := fatalTemp (samplePairs 8 old.hub hub) || tileList.any (fun t => fatalTemp (tilePairs s t (at' t)))
    let s1 := { s with sens := { s.sens with
      dram := tileList.foldl (fun m t => mapSet [] m t (at' t).dram) []
      junction := tileList.foldl (fun m t => mapSet [] m t (at' t).junction) [], hub := hub } }
    let s2 := forAll tileList (fun a t => sampleJunction t (mapGet [] old.junction t) (at' t).junction
      (sampleDram t (tileHot s t) (hot (at' t).dram) a)) s1
    let s3 := sampleHub old.hub hub s2
    if fatal then thermalTrip s3 else s3

/-- Hottest DRAM sensor of the module (R613). -/
def hottest (s : State) : Nat := tileList.foldl (fun a t => max a (tileHot s t)) 0

/-- Is ALERT# driven low (R599)? -/
def alertLow (s : State) : Bool :=
  s.life.state != .off && (decide (s.integ.health = .failed) || s.sens.hubLimited
    || tileList.any (fun t => (getTile s t).tempHold || (getTile s t).halved) || (decide (s.life.state = .standby) && s.sens.tripped))

/-! ### Power (R584 to R586) -/

/-- Average of the newest `n` samples, in mW. -/
def powerAvg (n : Nat) (s : State) : Nat := ((s.sens.power.take n).sum) / n

/-- P1 and P100 in mW (R584), and the samples of the last 100 ms at which P1 stood above 2,200 W. -/
def powerP1 (s : State) : Nat := powerAvg 100 s
def powerP100 (s : State) : Nat := powerAvg 10000 s
def powerOver (s : State) : Nat := s.sens.overs.countP id

/-- Does the measured input keep the three limits of R585, and the hub's limit (R591)? 10 ms are 1,000 samples. -/
def powerKept (s : State) : Bool :=
  decide (powerP1 s ≤ 2600000) && decide (powerP100 s ≤ 2200000) && decide (powerOver s ≤ 1000)
    && (!s.sens.hubLimited || decide (powerP1 s ≤ 1600000))

/-- Report a reading, in thousandths of its unit, that crosses a limit; the event carries whole units (DESIGN CHOICE). -/
def crossed (sensor limit old new : Nat) (s : State) : State :=
  if decide (limit < old) != decide (limit < new) then pldmSend sensor (new / 1000) s else s

/-- One sample of the input: mV and mA. -/
def samplePower (mv ma : Nat) (s : State) : State :=
  if !s.life.inputOn then s
  else
    let mw := mv * ma / 1000
    let old := s.sens
    let s1 := { s with sens := { s.sens with millivolts := mv, milliamps := ma, power := (mw :: s.sens.power).take 10000 } }
    let s2 := crossed 0x0A 60000 old.millivolts mv (crossed 0x0A 39999 old.millivolts mv s1)
    let s3 := crossed 0x0C 2200000 (old.millivolts * old.milliamps / 1000) mw (crossed 0x0B 70000 old.milliamps ma s2)
    let above := decide (2200000 < powerP1 s3)
    let s4 := { s3 with sens := { s3.sens with overs := (above :: s3.sens.overs).take 10000 } }
    if above then evHub 0xB9 0 10000 s4 else s4

/-- The manager's grants (R586): the budgets bind where the manager finds that demand would break a limit of R585, and
always while the measured input keeps them not; a tile's budget is halved while a junction holds it so. -/
def grantBudgets (asked : Bool) (grants : List Nat) (s : State) : State :=
  let binds := asked || !powerKept s
  forAll tileList (fun a t => modTile a t (fun x => { x with
    budget := if x.halved then some (grants.getD t 0 / 2) else if binds then some (grants.getD t 0) else none })) s

/-! ### Heartbeat (R538) -/

def heartbeat (s : State) : State :=
  if s.life.cardamomRuns then { s with life := { s.life with hbCount := (s.life.hbCount + 1) % 2 ^ 64 } } else s

end Sys2Proof.Machine
end

