-- ==== Sys2Proof/Machine/Mace.lean ====
section
/-!
DEFINITION. The commands of MACE: its op, an adder's turn, and a fold that passes a channel (spec/16_collectives.md).
-/
namespace Sys2Proof.Machine

/-- MA_ACCUM (R430 to R437, R450, R451). -/
def execMaAccum (tile entry : Nat) (parity : Bool) (s : State) : Host.Outcome State Fault Refusal :=
  .next (withParity tile entry 7 1 parity (maFinish tile entry) s)

/-- MACE_APPLY (R438 to R440, R444): the adder of a channel applies the accumulate whose turn it is among what waits for
the controller. -/
def execMaceApply (tile chan : Nat) (s : State) : Host.Outcome State Fault Refusal :=
  .next (withSnoop (.maceApply tile chan) (serveAccum tile chan) s)

/-- FOLD_COMPLETE (R446): the fold has passed a controller's codewords (`chan` is tile × 64 + channel). -/
def execFoldComplete (window chan : Nat) (s : State) : Host.Outcome State Fault Refusal :=
  .next (modWin s window (fun x =>
    let l := x.foldWait.filter (· != chan)
    { x with foldWait := l, folding := x.folding && !l.isEmpty }))

end Sys2Proof.Machine
end

