-- ==== Sys2Proof/Machine/Members.lean ====
section
/-!
DEFINITION. The management commands between modules: channel opens, window and release notices, pair keys, peer
attestation, and the fabric manager's member messages (spec/15_fabric.md, spec/21_recovery.md, spec/22_security.md).
-/
namespace Sys2Proof.Machine

/-- CHANNEL_OPEN_REQUEST (R409): from an attested peer. -/
def execChannelOpenRequest (peer chan : Nat) (s : State) : Host.Outcome State Fault Refusal :=
  .next (if attested s peer then payOwed peer (peerOpens (chanKey peer chan) s) else s)

/-- WINDOW_NOTICE (R421, R575). -/
def execWindowNotice (peer counter : Nat) (tagOk : Bool) (window epoch ops bound : Nat) (s : State) :
    Host.Outcome State Fault Refusal :=
  .next (match mgmtRecv peer counter tagOk s with
    | some a => { a with fabric := { a.fabric with
        notices := mapSet ⟨0, 0, 0⟩ a.fabric.notices (peer * 256 + window) ⟨epoch, ops, bound⟩ } }
    | none => esAuth s)

/-- RELEASE_NOTICE (R571, R575, R577). -/
def execReleaseNotice (peer counter : Nat) (tagOk : Bool) (s : State) : Host.Outcome State Fault Refusal :=
  .next (match mgmtRecv peer counter tagOk s with
    | some a => withSnoop (.releaseNotice peer counter tagOk) (memberGone peer) a
    | none => esAuth s)

/-- PAIR_REKEY (R410, R576). -/
def execPairRekey (peer counter : Nat) (tagOk : Bool) (secret : Nat) (s : State) : Host.Outcome State Fault Refusal :=
  .next (match mgmtRecv peer counter tagOk s with
    | some a => rekeyPair peer secret a
    | none => esAuth s)

/-- PA_REQ (R573, R574). -/
def execPaReq (peer nonce ek : Nat) (s : State) : Host.Outcome State Fault Refusal := .next (answerPeer peer nonce ek s)

/-- PA_RESP (R573, R574, R577): the exchange in progress ends with a result code and the digest of report and signature. -/
def execPaResp (peer : Nat) (r : PeerReport) (s : State) : Host.Outcome State Fault Refusal :=
  .next (match s.mgmt.executing with
    | .peerAttest q p =>
      if p != peer then s
      else
        let code := peerResult s r
        let s1 := freeExecutor { s with fabric := { s.fabric with attest := none } }
        let s2 := if code = 0 then settlePair peer (modPeer s1 peer (fun x => { x with
            admitted := true, secretOut := r.secret, serial := r.serial, pos := r.pos, generation := 0, pairKey := 0 }))
          else endAdmission peer s1
        respond q 0x0503 stSuccess (le 8 code ++ le 32 r.digest) s2
    | _ => s)

/-- FM_MEMBER_DOWN (R550, R551). -/
def execFmMemberDown (id : Nat) (s : State) : Host.Outcome State Fault Refusal :=
  .next (if id == ownId s then s else memberDown id s)

/-- FM_MEMBER_UP (R552). -/
def execFmMemberUp (id : Nat) (s : State) : Host.Outcome State Fault Refusal :=
  .next (if id == ownId s then s else memberUp id s)

/-- FM_MEMBER_GONE (R553, R577). -/
def execFmMemberGone (id : Nat) (s : State) : Host.Outcome State Fault Refusal :=
  .next (if id == ownId s then s else withSnoop (.fmMemberGone id) (memberGone id) s)

end Sys2Proof.Machine
end

