-- ==== Sys2Proof/Machine/Pepper.lean ====
section
/-!
DEFINITION. The commands of PEPPER: admission, activation, the issue window, issue, clocks, no-ops and control ops.
-/
namespace Sys2Proof.Machine

/-- TASK_ADMIT (R57, R58, R61): the next waiting task of the tile is admitted or refused. -/
def execTaskAdmit (tile : Nat) (s : State) : Host.Outcome State Fault Refusal :=
  .next (withSnoop (.taskAdmit tile) (admitNext tile) s)

/-- TASK_ELIGIBLE (R52, R94): a WAITING task whose waits are met, a step task with a header bound, becomes ACTIVE. -/
def execTaskEligible (tile task : Nat) (s : State) : Host.Outcome State Fault Refusal :=
  let k := getTask s tile task
  .next (if isResident s tile task && k.phase = .waiting && allWaitsMet s k && (!isStepTask k || s.cond.bound.isSome)
    then modTask s tile task (fun x => { x with phase := .active }) else s)

/-- OP_WINDOW_FILL (R53, R96, R97): free entries are filled; one command fills at most 512 times. -/
def execOpWindowFill (tile : Nat) (s : State) : Host.Outcome State Fault Refusal :=
  .next (withSnoop (.opWindowFill tile) (fillLoop tile 512) s)

/-- OP_ISSUE (R73, R82, R99 to R105, R633): one issue decision for an engine class of the tile. -/
def execOpIssue (tile cls : Nat) (s : State) : Host.Outcome State Fault Refusal :=
  .next (withSnoop (.opIssue tile cls) (issueNext tile cls) s)

/-- ISSUE_AGE_PROMOTE (R100): an engine op that first was ready 20 µs ago competes as class 0. -/
def execIssueAgePromote (tile entry : Nat) (s : State) : Host.Outcome State Fault Refusal :=
  .next (modEntry tile entry (fun e =>
    { e with promoted := e.promoted || (e.state = .unissued && (e.ready || opReady s tile e)) }) s)

/-- CUMIN_GROUP_START (R105). -/
def execCuminGroupStart (tile : Nat) (s : State) : Host.Outcome State Fault Refusal := .next (startGroup tile s)

/-- ENGINE_CLOCK_STOP (R104): an idle instance stops its clock. -/
def execEngineClockStop (tile cls inst : Nat) (s : State) : Host.Outcome State Fault Refusal :=
  .next (if engineHasOp s tile cls inst then s
    else modEngine s tile cls inst (fun g => { g with running := false }))

/-- TILE_PLL_OFF (R106): a tile without resident tasks turns its PLL off, and with it every engine clock. -/
def execTilePllOff (tile : Nat) (s : State) : Host.Outcome State Fault Refusal :=
  .next (if (getTile s tile).tasks.isEmpty then
      modTile s tile (fun x => { x with
        pll := false, engines := mapVals {} (fun g => { g with running := false }) x.engines })
    else s)

/-- NO_OP (R44): completes at issue and touches nothing. -/
def execNoOp (tile entry : Nat) (s : State) : Host.Outcome State Fault Refusal :=
  .next (match ctlEntry s tile entry 0 0 with
    | some e => completeCtl tile e (countIssue tile e s)
    | none => s)

/-- CTL_FENCE_WAIT (R97, R141, R143, R146): completes once its counter has reached its value, and waits until then. -/
def execCtlFenceWait (tile entry : Nat) (s : State) : Host.Outcome State Fault Refusal :=
  .next (match ctlEntry s tile entry 8 1 with
    | some e =>
      let s1 := countIssue tile e s
      if opWaitMet s e then completeCtl tile e s1 else markIssued tile entry s1
    | none => s)

/-- FENCE_WAIT_RELEASE (R97, R141): a waiting op whose wait is satisfied completes. -/
def execFenceWaitRelease (tile entry : Nat) (s : State) : Host.Outcome State Fault Refusal :=
  .next (match ctlEntry s tile entry 8 1 with
    | some e => if e.state = .issued && opWaitMet s e then completeCtl tile e s else s
    | none => s)

/-- CTL_FENCE_SIGNAL (R144): the increment is applied once every earlier op of the task has completed. -/
def execCtlFenceSignal (tile entry : Nat) (s : State) : Host.Outcome State Fault Refusal :=
  .next (match ctlEntry s tile entry 8 2 with
    | some e =>
      if earlierDone s tile e then
        completeCtl tile e (fenceLocal (oF e.op 20 2 % 4096) (oF e.op 24 4) (countIssue tile e s))
      else s
    | none => s)

/-- CTL_FENCE_SIGNAL_REMOTE (R144, R147): the increment goes out on its channel; a step task's carries its step and run
(8 bytes and 1 byte of payload; DESIGN CHOICE, log entry 26: the packet's layout names no place for them). -/
def execCtlFenceSignalRemote (tile entry : Nat) (s : State) : Host.Outcome State Fault Refusal :=
  .next (match ctlEntry s tile entry 8 3 with
    | some e =>
      if e.state = .issued || !earlierDone s tile e then s
      else
        let s1 := countIssue tile e s
        match generalKey s (oF e.op 22 2 % 4096) with
        | none => failOp tile entry fAborted s1
        | some k =>
          if (getChan s k).state = .opening then s
          else if chanFault s k != 0 then failOp tile entry (chanFault s k) s1
          else
            let run := match isStepTask (getTask s tile e.task), s.cond.lastRun with
              | true, some (st, rr) => le 8 st ++ le 1 rr
              | _, _ => []
            sendForOp k tile entry
              { op := 0x05, aux := oF e.op 20 2 % 4096 + 2 ^ 32 * oF e.op 24 4, payload := run }
              (modEntry tile entry (fun x => { x with state := .issued, ended := true }) s1)
    | none => s)

/-- CTL_BARRIER_ARRIVE (R113, R150): counts a local arrival, unless the barrier is not configured or runs ahead. -/
def execCtlBarrierArrive (tile entry : Nat) (s : State) : Host.Outcome State Fault Refusal :=
  .next (match ctlEntry s tile entry 8 4 with
    | some e => if arriveReady s (oF e.op 20 1) then arriveOp tile e (oF e.op 20 1) (countIssue tile e s) else s
    | none => s)

/-- CTL_BARRIER_WAIT (R97, R152). -/
def execCtlBarrierWait (tile entry : Nat) (s : State) : Host.Outcome State Fault Refusal :=
  .next (match ctlEntry s tile entry 8 5 with
    | some e => if (getBarrier s (oF e.op 20 1)).configured && !arrivalOpen s tile e then barWait tile e (countIssue tile e s) else s
    | none => s)

/-- CTL_STEP_LOOP (R124 to R127): opens a loop over the bound header. -/
def execCtlStepLoop (tile entry : Nat) (s : State) : Host.Outcome State Fault Refusal :=
  .next (match ctlEntry s tile entry 8 0x10 with
    | some e =>
      let l := loopInfo e.op
      let ls := (getTask s tile e.task).loops
      let items := loopItems s l (ls.head?.map loopItem)
      let lp : Loop := ⟨e.opIndex + 1, l.unit, l.stride, l.adv, 0, items⟩
      completeCtl tile e (modTask (countIssue tile e s) tile e.task (fun x => { x with loops := lp :: x.loops }))
    | none => s)

/-- CTL_STEP_LOOP_END (R125): the next iteration, or the end of the innermost loop. -/
def execCtlStepLoopEnd (tile entry : Nat) (s : State) : Host.Outcome State Fault Refusal :=
  .next (match ctlEntry s tile entry 8 0x11 with
    | some e =>
      completeCtl tile e (modTask (countIssue tile e s) tile e.task (fun x => match x.loops with
        | l :: ls => if loopLast l then { x with loops := ls }
            else { x with loops := { l with iter := l.iter + 1 } :: ls, pos := l.startPos }
        | [] => x))
    | none => s)

end Sys2Proof.Machine
end

