-- ==== Sys2Proof/Machine/Ports.lean ====
section
/-!
DEFINITION. The commands of the optical ports: link frames, training, light and lanes (spec/14_optical_ports.md).
-/
namespace Sys2Proof.Machine

/-- LINK_DATA_FRAME (R376 to R378, R385, R414): with the symbols in error of each codeword, the bytes of its payload that
belong to packets of VL0, VL1 and VL2, and the payload bytes by lane of the step and management messages that end in it, which
the message commands bring. -/
def execLinkDataFrame (port seq ack : Nat) (crcOk : Bool) (errs : List (List Nat)) (lanes direct : List Nat) (s : State) :
    Host.Outcome State Fault Refusal :=
  .next (frameArrives port crcOk errs (frameIn port seq ack lanes direct) s)

/-- LINK_ACK_FRAME (R378). -/
def execLinkAckFrame (port : Nat) (f : LinkCtl) (s : State) : Host.Outcome State Fault Refusal :=
  .next (frameArrives port f.crcOk f.errs (frameAck port f.ack) s)

/-- LINK_NAK_FRAME (R378, R379). -/
def execLinkNakFrame (port : Nat) (f : LinkCtl) (s : State) : Host.Outcome State Fault Refusal :=
  .next (frameArrives port f.crcOk f.errs (fun a => frameNak port f.seq (frameAck port f.ack a)) s)

/-- PORT_RETRY_LIMIT (R379): the oldest frame has been replayed eight times in a row. -/
def execPortRetryLimit (port : Nat) (s : State) : Host.Outcome State Fault Refusal :=
  .next (if linkUp s port && decide (8 ≤ (getPort s port).replayRun) then portDown port pcRetryLimit s else s)

/-- PORT_TRAINING_START (R383, R384). -/
def execPortTrainingStart (port : Nat) (s : State) : Host.Outcome State Fault Refusal := .next (startTraining port s)

/-- PORT_TRAINING_STEP_DONE (R382, R386, R388, R389). -/
def execPortTrainingStepDone (port loopNs : Nat) (s : State) : Host.Outcome State Fault Refusal :=
  .next (trainStep port loopNs s)

/-- ID_RECORD (R383, R387). -/
def execIdRecord (port : Nat) (r : IdRecord) (s : State) : Host.Outcome State Fault Refusal := .next (identity port r s)

/-- TRAINING_STEP_TIMEOUT (R386). -/
def execTrainingStepTimeout (port : Nat) (s : State) : Host.Outcome State Fault Refusal :=
  .next (match (getPort s port).state, stepCause (getPort s port).step with
    | .training, some c => portDown port c s
    | _, _ => s)

/-- PORT_RETRAIN_TIMER (R384): a port that is DOWN, and not disabled, starts training again. -/
def execPortRetrainTimer (port : Nat) (s : State) : Host.Outcome State Fault Refusal :=
  .next (match (getPort s port).state with
    | .down => startTraining port s
    | _ => s)

/-- OPTICAL_POWER_SAMPLE (R375): bit n of `lasersOk` is laser input n, bit 8p + n of `lanesOk` lane n of port p. -/
def execOpticalPowerSample (lasersOk lanesOk : Nat) (s : State) : Host.Outcome State Fault Refusal :=
  .next (forAll portList (lightPort lasersOk lanesOk) s)

/-- LIGHT_LOSS (R375, R391): ten samples in a row, 100 µs, out of limits. `index` is a laser input, or 8 × port + lane. The lane
has failed; R375 names the cause. -/
def execLightLoss (laser : Bool) (index : Nat) (s : State) : Host.Outcome State Fault Refusal :=
  .next (if laser then
      forAll (laserPorts index) (fun a p => if 10 ≤ (getPort a p).laserBad then portDown p pcNoLight a else a) s
    else if 10 ≤ mapGet 0 (getPort s (index / 8)).laneRuns (index % 8) && (getPort s (index / 8)).state != .down then
      portDown (index / 8) pcNoLight (modPort s (index / 8) (fun x => { x with laneBad := 2 ^ (index % 8) }))
    else s)

/-- LANE_FAIL (R383, R391). -/
def execLaneFail (port lane : Nat) (s : State) : Host.Outcome State Fault Refusal :=
  .next (match (getPort s port).state with
    | .down => s
    | _ => portDown port pcLaneFail (modPort s port (fun x => { x with laneBad := 2 ^ (lane % 8) })))

/-- SWITCH_REACHABILITY_REPORT (R394, R400): the routing table is built from reports on ports whose mapping matches the
plan; a member of the running job that is no longer reachable is a member that went down. -/
def execSwitchReachabilityReport (port : Nat) (ids : List Nat) (s : State) : Host.Outcome State Fault Refusal :=
  .next (if portUp s port then
      (let old := mapGet [] s.fabric.reach port
       let s1 := rebuildRoutes { s with fabric := { s.fabric with reach := mapSet [] s.fabric.reach port ids } }
       let lost := match s.job with
         | some j => j.members.filter (fun m => m != ownId s && old.contains m && !ids.contains m)
         | none => []
       forAll lost (fun a m => memberDown m a) s1)
    else s)

end Sys2Proof.Machine
end

