-- ==== Sys2Proof/Machine/Power.lean ====
section
/-!
DEFINITION. Commands of the memory controllers' service and refresh, of the sensors and of the power manager.
-/
namespace Sys2Proof.Machine

def execMemRequestServe (tile chan : Nat) (s : State) : Host.Outcome State Fault Refusal :=
  .next (withSnoopAt (((nextReq s tile chan).map (·.tile)).getD 8) (.memRequestServe tile chan) (serveReq tile chan) s)

def execMemRequestPromote (tile chan : Nat) (s : State) : Host.Outcome State Fault Refusal :=
  .next (promoteReq tile chan s)

def execRefresh (tile chan : Nat) (s : State) : Host.Outcome State Fault Refusal := .next (refreshChan tile chan s)

def execRefreshBandRelax (tile : Nat) (s : State) : Host.Outcome State Fault Refusal := .next (relaxBand tile s)

def execTemperatureSample (tiles : List TileTemps) (hub : List Nat) (s : State) : Host.Outcome State Fault Refusal :=
  .next (sampleTemps tiles hub s)

def execPowerSample (millivolts milliamps : Nat) (s : State) : Host.Outcome State Fault Refusal :=
  .next (samplePower millivolts milliamps s)

def execIssueBudgetGrant (binds : Bool) (grants : List Nat) (s : State) : Host.Outcome State Fault Refusal :=
  .next (grantBudgets binds grants s)

def execHeartbeatTick (s : State) : Host.Outcome State Fault Refusal := .next (heartbeat s)

end Sys2Proof.Machine
end

