-- ==== Sys2Proof/Machine/RegOps.lean ====
section
/-!
DEFINITION. Registers that software writes: BAR0's mailbox blocks, error summary, event counters and MSI-X table, and
the BAR2 aperture (spec/25_registers_counters.md; R457, R478 to R484).
-/
namespace Sys2Proof.Machine

/-- Does BAR0 answer (R511, R611)? -/
def bar0Open (s : State) : Bool := s.life.state != .off && s.life.boot != .waitRamp && s.life.boot != .waitRelease

/-! ### Mailbox blocks (R478 to R484) -/

def mbVia (mb1 : Bool) : Via := if mb1 then .mb1 else .mb0

/-- Write 1s to `MBn_STATUS`. -/
def statusW1c (mb1 : Bool) (bits : Nat) (s : State) : State :=
  modMb (mbVia mb1) (fun m => { m with
    done := m.done && !bit bits 1, event := m.event && !bit bits 2, overrun := m.overrun && !bit bits 3 }) s

/-- A write to the header, the payload or `DOORBELL` while `BUSY` is ignored. -/
def overrunMb (mb1 : Bool) (s : State) : State :=
  if (getMb s (mbVia mb1)).busy then modMb (mbVia mb1) (fun m => { m with overrun := true }) s else s

/-- Bytes of the header (0 to 15) and payload (from 16) that software wrote. -/
def shadowWrite (mb1 : Bool) (at0 : Nat) (bs : List Byte) (s : State) : State :=
  if (getMb s (mbVia mb1)).busy then overrunMb mb1 s
  else modMb (mbVia mb1) (fun m => { m with
    hdrShadow := (bs.zipIdx.foldl (fun a x => mapSet 0 a (at0 + x.2) x.1.toNat) m.hdrShadow) }) s

def shadowWord (m : Mailbox) (at0 n : Nat) : Nat :=
  (List.range n).foldl (fun a i => a + mapGet 0 m.hdrShadow (at0 + i) * 256 ^ i) 0

/-- Opcodes of R491: the count of each group, as the group's first byte is the high byte. -/
def groupCount : Nat → Nat
  | 1 => 3 | 2 => 4 | 3 => 6 | 4 => 12 | 5 => 15 | 6 => 13 | 7 => 8 | 8 => 6 | 9 => 4 | _ => 0

def isOpcode (c : Nat) : Bool := 1 ≤ c % 256 && c % 256 ≤ groupCount (c / 256)

/-- Writing 1 to `DOORBELL`: submitting a command of R491 is that command's own row; a reserved opcode is answered here
with `INVALID_OPCODE` (R490). -/
def doorbell (mb1 : Bool) (s : State) : State :=
  let v := mbVia mb1
  let m := getMb s v
  if m.busy then overrunMb mb1 s
  else
    let code := shadowWord m 0 2
    if isOpcode code || !m.ready then s
    else respond ⟨v, shadowWord m 2 2, true, true, none⟩ code stInvalidOpcode [] s

/-- A 4-byte write inside a mailbox's control block. -/
def mbWrite (mb1 : Bool) (off value : Nat) (s : State) : State :=
  if off = 0 then
    let s1 := modMb (mbVia mb1) (fun m => { m with intEn := bit value 1 }) s
    if bit value 0 then doorbell mb1 s1 else s1
  else if off = 4 then statusW1c mb1 value s
  else if 0x10 ≤ off && off < 0x20 then shadowWrite mb1 (off - 0x10) (le 4 value) s
  else s

/-! ### Error summary and event counters (R618, R621 to R625) -/

def esClear (bits : BitVec 64) (s : State) : State := { s with es := { s.es with bits := s.es.bits &&& ~~~bits } }

def ovfClear (bank : Nat) (bits : BitVec 16) (s : State) : State :=
  if bank ≤ 8 then { s with evc := { s.evc with ovf := mapMod 0 s.evc.ovf bank (fun x => x &&& ~~~bits) } } else s

/-- Is a selection one that R623 accepts for this bank? -/
def selOk (bank : Nat) (v : Nat) : Bool :=
  bits v 62 24 == 0 && bits v 18 14 == 0 && ((bits v 7 0 < 0x80) == (bank < 8)) &&
  (match evcInfo (bits v 7 0) with
   | none => false
   | some (inst, cls) =>
     (bits v 23 20 == 0 || cls != 0) &&
     (!bit v 19 || (match inst with
       | none => false
       | some m => decide (bits v 13 8 ≤ m))))

/-- Write a selection: the counter starts from zero. -/
def selWrite (bank index : Nat) (v : BitVec 64) (s : State) : State :=
  let k := bank * 16 + index
  { s with evc := { s.evc with
    sels := mapSet 0 s.evc.sels k v, counts := mapSet 0 s.evc.counts k 0
    ovf := mapMod 0 s.evc.ovf bank (fun x => x &&& ~~~(BitVec.ofNat 16 (2 ^ index))) } }

/-- A bus write to a selection register: 8 bytes, and a value that R623 accepts. -/
def selBusWrite (bank index size : Nat) (v : BitVec 64) (s : State) : State :=
  if size == 8 && decide (bank ≤ 8) && decide (index < 16) && selOk bank v.toNat then selWrite bank index v s else s

def evcZero (s : State) : State := { s with evc := { s.evc with counts := [], ovf := [] } }
def evcHold (on : Bool) (s : State) : State := { s with evc := { s.evc with freeze := on } }

/-- A counter's value as read: zero while the tenant's `COUNTERS` policy is 0 (R569, R626). -/
def counterValue (s : State) (k : Nat) : Nat :=
  if s.sec.claimed && !bit s.sec.policy 1 then 0 else (mapGet 0 s.evc.counts k).toNat

/-- A 4-byte write inside a counter bank or to `EVC_CTRL`. -/
def evcWrite (off value : Nat) (s : State) : State :=
  if off = 0xF00 then
    let s1 := if bit value 1 then evcZero s else s
    evcHold (bit value 0) s1
  else if off / 0x180 ≤ 8 && off % 0x180 = 0x100 then ovfClear (off / 0x180) (BitVec.ofNat 16 value) s
  else s

/-! ### MSI-X table (R457) -/

/-- One word; unmasking a vector sends its pending message. -/
def msixWrite (k value : Nat) (s : State) : State :=
  let v := k / 4
  let s1 := { s with host := { s.host with
    msix := mapSet 0 s.host.msix k (value.xor (if k % 4 = 3 then 1 else 0)) } }
  if !msixMasked s1 v && mapGet false s1.host.msixPending v then
    sendMsix v { s1 with host := { s1.host with msixPending := mapSet false s1.host.msixPending v false } }
  else s1

/-! ### BAR0 -/

/-- A 4-byte write. -/
def write4 (off value : Nat) (s : State) : State :=
  if off < 0x1000 then s
  else if off < 0x2000 then mbWrite false (off - 0x1000) value s
  else if off < 0x3000 then shadowWrite false (16 + (off - 0x2000)) (le 4 value) s
  else if off < 0x4000 then mbWrite true (off - 0x3000) value s
  else if off < 0x5000 then shadowWrite true (16 + (off - 0x4000)) (le 4 value) s
  else if off < 0x6000 then s
  else if off < 0x7000 then evcWrite (off - 0x6000) value s
  else if off = 0x7000 then esClear (BitVec.ofNat 64 (value % 2 ^ 32)) s
  else if off = 0x7004 then esClear (BitVec.ofNat 64 (value % 2 ^ 32 * 2 ^ 32)) s
  else if 0x8000 ≤ off && off < 0x8400 then msixWrite ((off - 0x8000) / 4) (value % 2 ^ 32) s
  else s

/-- The counter selection register at a BAR0 offset, if there is one. -/
def selAt (off : Nat) : Option (Nat × Nat) :=
  let o := off - 0x6000
  if 0x6000 ≤ off && o < 0x180 * 9 && 0x80 ≤ o % 0x180 && o % 0x180 < 0x100 then some (o / 0x180, (o % 0x180 - 0x80) / 8)
  else none

/-- A write of 4 or 8 bytes, naturally aligned (R610). -/
def bar0Write (off size value : Nat) (s : State) : State :=
  if !bar0Open s || !(size == 4 || size == 8) || off % size != 0 then s
  else match selAt off with
    | some (b, i) => selBusWrite b i size (BitVec.ofNat 64 value) s
    | none => if size == 4 then write4 off value s else write4 (off + 4) (value / 2 ^ 32) (write4 off (value % 2 ^ 32) s)

/-- Does a BAR0 write meet the CXL component registers? -/
def isComponent (off : Nat) : Bool := decide (0xA000 ≤ off) && decide (off < 0xB000)

/-! ### BAR2 (R628, R629) -/

def bar2Open (s : State) : Bool := !s.sec.claimed && s.life.filled

/-- The control page's 16 bytes as one number. -/
def bar2Page (s : State) : Nat := s.sens.dgTarget + s.sens.dgTile * 2 ^ 8 + s.sens.dgBase * 2 ^ 64

/-- Write bytes of the control page; only the fields' bits are held. -/
def bar2Control (off : Nat) (bs : List Byte) (s : State) : State :=
  let p := ofBytes (spliceBytes (le 16 (bar2Page s)) (bs.take (16 - off)) off)
  { s with sens := { s.sens with
    dgTarget := fld p 0 1, dgTile := bits p 10 8, dgBase := bits (fld p 8 8) 38 16 * 2 ^ 16 } }

/-- Bytes of a target of `len` bytes that lie inside it. -/
def inTarget (len at0 n : Nat) : Nat := min n (len - at0)

def padZero (n : Nat) (bs : List Byte) : List Byte := bs ++ List.replicate (n - bs.length) 0

/-- Is a granule that the bytes touch POISONED? -/
def slotPoisoned (s : State) (t at0 n : Nat) : Bool :=
  n != 0 && ((List.range ((at0 + n - 1) / 4096 + 1 - at0 / 4096)).any (fun i =>
    tagState (getTag s t (at0 / 4096 + i)) = .poisoned))

/-- Read through the aperture: the bytes, whether they are poisoned, and the state after. -/
def apertureRead (at0 n : Nat) (s : State) : (List Byte × Bool) × State :=
  let t := s.sens.dgTile
  if s.sens.dgTarget = 0 then
    let r := pkgRead 1 0 at0 (inTarget (2 ^ 39) at0 n) s
    ((padZero n r.1.1, r.1.2), r.2)
  else if s.sens.dgTarget = 1 then
    let k := inTarget (2 ^ 27) at0 n
    let r := slotRead 5 t at0 k s
    ((padZero n r.1.1, r.1.2 || slotPoisoned s t at0 k), r.2)
  else if s.sens.dgTarget = 2 then
    ((padZero n ((List.range (inTarget 32768 at0 n)).map (fun i => getTag s t (at0 + i))), false), s)
  else if s.sens.dgTarget = 3 then ((List.replicate n 0, false), s)
  else
    let (v, s1) := takeFree (8 * n) s
    ((le n v, false), s1)

/-- Write through the aperture: package and slot memory change, nothing else does. -/
def apertureWrite (at0 : Nat) (bs : List Byte) (s : State) : State :=
  if s.sens.dgTarget = 0 then pkgWrite 1 0 at0 (bs.take (inTarget (2 ^ 39) at0 bs.length)) false s
  else if s.sens.dgTarget = 1 then (slotWrite 5 s.sens.dgTile at0 (bs.take (inTarget (2 ^ 27) at0 bs.length)) s).2
  else s

/-- An access while the aperture is closed: R629 counts the writes. -/
def bar2Closed (write : Bool) (size : Nat) (s : State) : State :=
  if write then { s with es := { s.es with bar2 := satAdd 32 s.es.bar2 1 } }
  else emit s (.bar2Data (List.replicate size 0) false)

def bar2Go (write : Bool) (off size : Nat) (data : List Byte) (s : State) : State :=
  if !bar0Open s then s
  else if !bar2Open s then bar2Closed write size s
  else if off < 0x10000 then
    (if write then (if off < 16 then bar2Control off data s else s)
     else emit s (.bar2Data (((le 16 (bar2Page s) ++ List.replicate size 0).drop (min off 16)).take size) false))
  else
    let at0 := s.sens.dgBase + off - 0x10000
    if write then apertureWrite at0 data s
    else let r := apertureRead at0 size s; emit r.2 (.bar2Data r.1.1 r.1.2)

/-- Does an access reach the internal state that the spec does not lay out? -/
def internalAccess (off : Nat) (s : State) : Bool :=
  bar0Open s && bar2Open s && decide (0x10000 ≤ off) && s.sens.dgTarget == 3 && bit s.sec.debugScope 0

end Sys2Proof.Machine
end

