-- ==== Sys2Proof/Machine/Registers.lean ====
section
/-!
DEFINITION. Commands that write registers of BAR0 and BAR2, and accesses of the BAR2 aperture.
-/
namespace Sys2Proof.Machine

def execMbStatusW1c (mb1 : Bool) (bits : Nat) (s : State) : Host.Outcome State Fault Refusal :=
  .next (if bar0Open s then statusW1c mb1 bits s else s)

def execMbWriteWhileBusy (mb1 : Bool) (s : State) : Host.Outcome State Fault Refusal :=
  .next (if bar0Open s then overrunMb mb1 s else s)

def execEsBitsW1c (bits : BitVec 64) (s : State) : Host.Outcome State Fault Refusal :=
  .next (if bar0Open s then esClear bits s else s)

def execEvcOvfW1c (bank : Nat) (bits : BitVec 16) (s : State) : Host.Outcome State Fault Refusal :=
  .next (if bar0Open s then ovfClear bank bits s else s)

def execEvcSelWrite (bank index size : Nat) (value : BitVec 64) (s : State) : Host.Outcome State Fault Refusal :=
  .next (if bar0Open s then selBusWrite bank index size value s else s)

def execEvcClear (s : State) : Host.Outcome State Fault Refusal := .next (if bar0Open s then evcZero s else s)

def execEvcFreeze (on : Bool) (s : State) : Host.Outcome State Fault Refusal :=
  .next (if bar0Open s then evcHold on s else s)

/-- BAR2: the internal state of target 3 under debug scope bit 0 has no layout in the spec (R628). -/
def execBar2Access (write : Bool) (offset size : Nat) (data : List Byte) (s : State) :
    Host.Outcome State Fault Refusal :=
  if internalAccess offset s then .refused .internalStateAperture
  else .next (withSnoop (.bar2Access write offset size data) (bar2Go write offset size data) s)

/-- A write to a register of BAR0 or BAR2; the layout of the CXL component registers is that of CXL 3.1 (R457). -/
def execRegisterWrite (bar2 : Bool) (offset size value : Nat) (s : State) : Host.Outcome State Fault Refusal :=
  if bar2 then
    (if internalAccess offset s then .refused .internalStateAperture
     else .next (withSnoop (.registerWrite bar2 offset size value) (bar2Go true offset size (le size value)) s))
  else if isComponent offset && bar0Open s then .refused .cxlComponentRegister
  else .next (bar0Write offset size value s)

end Sys2Proof.Machine
end

