-- ==== Sys2Proof/Machine/Saffron.lean ====
section
/-!
DEFINITION. The end of each SAFFRON op.
-/
namespace Sys2Proof.Machine

/-- SF_ATTN_FWD (R223 to R229). -/
def execSfAttnFwd (tile entry : Nat) (parity : Bool) (s : State) : Host.Outcome State Fault Refusal :=
  .next (withParity tile entry 2 1 parity (sfFinish tile entry 1) s)

/-- SF_ATTN_BWD (R231, R232). -/
def execSfAttnBwd (tile entry : Nat) (parity : Bool) (s : State) : Host.Outcome State Fault Refusal :=
  .next (withParity tile entry 2 2 parity (sfFinish tile entry 2) s)

/-- SF_MERGE (R230). -/
def execSfMerge (tile entry : Nat) (parity : Bool) (s : State) : Host.Outcome State Fault Refusal :=
  .next (withParity tile entry 2 3 parity (sfFinish tile entry 3) s)

/-- SF_ROPE (R233). -/
def execSfRope (tile entry : Nat) (parity : Bool) (s : State) : Host.Outcome State Fault Refusal :=
  .next (withParity tile entry 2 4 parity (sfFinish tile entry 4) s)

end Sys2Proof.Machine
end

