-- ==== Sys2Proof/Machine/DumpOps.lean ====
section
/-!
DEFINITION. The recovery dump: its header, directory and sections (spec/21_recovery.md R539 to R543; R613, R614). Where
R543 names a section's fields without their places, they stand in the order listed, each in its natural size (DESIGN
CHOICE).
-/
namespace Sys2Proof.Machine

/-! ### Status words of BAR0 (R613, R614) -/

def isStatus (s : State) : Nat :=
  modStateCode s.life.state + (bar2Open s).toNat * 2 ^ 8 + s.sec.claimed.toNat * 2 ^ 9 + healthCode s.integ.health * 2 ^ 10
    + hottest s % 256 * 2 ^ 16

def isNotReady (s : State) : Nat :=
  (!allPortsUp s).toNat + 2 * s.host.narrow.toNat
    + 4 * (portList.any (fun p => (getPort s p).state == .quarantine && (getPort s p).cause == 0x0A)).toNat
    + 8 * (s.life.state == .claimed && !ideSecure s).toNat

/-! ### First unmet condition of an issue-window entry (R97, R99) -/

/-- Is an op a wait for a fence or a barrier? An arrival at a barrier that is not set up waits too (R150). -/
def isWaitOp (s : State) (op : OpWord) : Bool :=
  opClass op == 8 && (opCode op == 1 || opCode op == 5 || (opCode op == 4 && !(getBarrier s (oF op 20 1)).configured))

/-- The first condition that holds an entry, coded as the stall events of R627, and the granule or counter concerned: 0 when
nothing holds it. Control ops wait for their fence or barrier alone. -/
def firstUnmet (s : State) (tile : Nat) (e : Entry) : Nat × Nat :=
  if isWaitOp s e.op then (0x16, if opCode e.op = 1 then oF e.op 20 2 else oF e.op 20 1)
  else if e.state = .issued || classInstances (opClass e.op) == 0 then (0, 0)
  else
    let gran := fun (g : Nat × Nat) => g.1 * 32768 + g.2
    match (granulesOf (entryIns s tile e)).find? (fun g => !inReady s g) with
    | some g => (0x10, gran g)
    | none =>
      match (granulesOf (entryOuts s tile e)).find? (fun g => !outReady s g) with
      | some g => (0x11, gran g)
      | none =>
        if orderHeld s tile e then (0x15, 0)
        else if (freeInst s tile (opClass e.op)).isNone then (0x12, 0)
        else if (getTile s tile).budget == some 0 || collecting s then (0x13, 0)
        else if tileHeld s tile then (0x14, 0)
        else (0, 0)

/-! ### Sections (R543) -/

/-- A step number that there is, or all ones. -/
def stepOrNone (x : Option Nat) : Nat := x.getD (2 ^ 64 - 1)

def dumpModule (s : State) : List Byte :=
  let jobs := match s.job with
    | none => []
    | some j => layout 24 [(0, 4, j.id), (4, 1, (isManager s).toNat),
        (8, 8, stepOrNone (if s.cond.committed = 0 then none else some (s.cond.committed - 1))),
        (16, 8, stepOrNone (match s.cond.current with
          | some r => some r.step
          | none => (liveRun s).map (·.step)))]
  layout 24 [(0, 1, modStateCode s.life.state), (1, 1, healthCode s.integ.health), (8, 8, s.es.bits.toNat),
    (16, 4, isStatus s), (20, 4, isNotReady s)] ++ jobs

/-- Ring states as `RING_STATE_nn` codes them (R617). -/
def ringCode : RingState → Nat
  | .none => 0 | .active => 1 | .error => 2 | .destroying => 3

def dumpRings (s : State) : List Byte :=
  (List.range 64).flatMap (fun r =>
    let x := getRing s r
    layout 64 [(0, 8, x.base), (8, 8, x.entries), (16, 8, x.tail), (24, 8, x.prog), (32, 1, ringCode x.state), (33, 1, x.cq)])
  ++ (List.range 64).flatMap (fun r => (getRing s r).slots.flatMap (fun d =>
    le 4 d.index ++ le 4 (if d.ended then 2 else if d.taken then 1 else 0)))

def dumpCqs (s : State) : List Byte :=
  (List.range 64).flatMap (fun r =>
    let x := getCq s r
    layout 40 [(0, 8, x.base), (8, 8, x.entries), (16, 8, x.written), (24, 8, x.head), (32, 2, x.vector)])

def dumpFences (s : State) : List Byte :=
  (List.range 4096).flatMap (fun i => le 8 (mapGet 0 s.fences.counters i).toNat)
  ++ (match s.stepSet with
      | some x => x.params.counters.flatMap (fun c => le 8 (stepBase s c))
      | none => [])

def dumpBarriers (s : State) : List Byte :=
  (List.range 64).flatMap (fun b =>
    let x := getBarrier s b
    layout 32 [(0, 8, x.cur), (8, 8, x.done), (16, 1, x.failed.toNat), (20, 4, x.arrivals), (24, 4, x.rootNow.length),
      (28, 4, x.rootNext.length)])
  ++ s.fences.pendingInc.flatMap (fun p => layout 32 [(0, 4, p.counter), (4, 8, p.amount), (12, 8, p.step), (20, 1, p.rerun),
      (21, 1, p.peer), (22, 2, p.chan)])

def granuleList : List (Nat × Nat) := tileList.flatMap (fun t => (List.range 32768).map (fun g => (t, g)))

def dumpTags (s : State) : List Byte :=
  granuleList.map (fun g => getTag s g.1 g.2)
  ++ granuleList.map (fun g => BitVec.ofNat 8 (inClaim s g.1 g.2 + (outClaim s g.1 g.2 != 0).toNat))

/-- States of a resident task in the order of R94. -/
def phaseCode : TaskPhase → Nat
  | .waiting => 0 | .active => 1 | .finishing => 2 | .parked => 3 | .faulted => 4

def dumpTask (s : State) (t : Nat) (k : Task) : List Byte :=
  let unmet := ((List.range 4).filter (fun i => !waitHolds s k i)).foldl (fun a i => a + 2 ^ i) 0
  layout 64 [(0, 4, dTaskId k.desc), (4, 1, t), (5, 1, phaseCode k.phase), (8, 4, k.pos), (12, 1, unmet), (16, 8, k.addr)]

def dumpTasks (s : State) : List Byte :=
  tileList.flatMap (fun t => (((getTile s t).tasks.flatMap (fun (kv : Nat × Task) => dumpTask s t kv.2)) ++ List.replicate 4096 0).take 4096)
  ++ tileList.flatMap (fun t => (getTile s t).queue.flatMap (fun w => layout 16 [(0, 1, t), (8, 8, w.addr)]))

def dumpEntry (s : State) (t : Nat) (e : Entry) : List Byte :=
  let u := firstUnmet s t e
  layout 16 [(0, 4, dTaskId (getTask s t e.task).desc), (4, 4, e.opIndex), (8, 2, e.iter0), (10, 2, u.1), (12, 4, u.2)]

def dumpWindow (s : State) : List Byte :=
  tileList.flatMap (fun t => (((getTile s t).window.flatMap (dumpEntry s t)) ++ List.replicate 4096 0).take 4096)

/-- Every engine instance of the module: tile, class, number. -/
def instanceList : List (Nat × Nat × Nat) :=
  tileList.flatMap (fun t => [1, 2, 3, 4, 5, 6, 7].flatMap (fun c => (List.range (classInstances c)).map (fun i => (t, c, i))))

/-- One instance. The cycles since issue and the status byte are open: no rule says what they hold here. -/
def dumpEngine (s : State) (x : (Nat × Nat × Nat) × Nat) : List Byte :=
  let (t, c, i) := x.1
  let e := getEngine s t c i
  let op := if instTaken s t c i then findEntry s t e.uid else none
  let id := match op with
    | some o => dTaskId (getTask s t o.task).desc
    | none => 0
  layout 32 [(0, 1, c), (1, 1, t), (2, 1, i), (3, 1, e.running.toNat), (4, 4, id),
    (8, 4, match op with | some o => o.opIndex | none => 0), (16, 8, x.2 % 2 ^ 64), (24, 1, x.2 / 2 ^ 64)]

def dumpEngines (s : State) : List Byte × State :=
  instanceList.foldl (fun a x =>
    let (v, s1) := takeFree 72 a.2
    (a.1 ++ dumpEngine s1 (x, v), s1)) ([], s)

/-- Channel states in the order of R409. -/
def chanCode : ChanState → Nat
  | .closed => 0 | .opening => 1 | .opened => 2 | .closing => 3 | .reset => 4

def dumpChans (s : State) : List Byte :=
  s.fabric.chans.flatMap (fun kv =>
    let c := kv.2
    layout 64 [(0, 1, kv.1 / 4096), (1, 1, c.port), (2, 2, kv.1 % 4096), (4, 1, chanCode c.state), (6, 2, c.epoch),
      (8, 4, c.txSeq), (12, 4, c.rxSeq), (16, 4, (c.retained.map (fun r => r.pkt.payload.length)).sum)])

def dumpWindows (s : State) : List Byte :=
  (List.range 256).flatMap (fun w =>
    let x := getWin s w
    match x.params with
    | none => List.replicate 64 0
    | some p => layout 64 [(0, 1, p.kind), (2, 2, x.epoch), (4, 4, x.inflight.length), (8, 8, p.base), (16, 8, p.bound),
        (24, 4, x.lasts), (28, 4, x.k), (32, 1, x.runTag)])

/-- The pages of a free list: their count, whether it was read whole, and the codewords that came with poison. -/
def freeWalk (p : PoolParams) : Nat → Nat → State → (Nat × Bool × List Nat) × State
  | 0, _, s => ((0, true, []), s)
  | n + 1, page, s =>
    if page = 0xFFFFFFFF then ((0, true, []), s)
    else
      let a := pdAddr p page
      let (r, s1) := fnWord (a + 4) 4 s
      if r.2 then ((1, false, [a / 64 * 64]), s1)
      else
        let (q, s2) := freeWalk p n r.1 s1
        ((q.1 + 1, q.2.1, q.2.2), s2)

/-- One tile's FENNEL. -/
def dumpFennelTile (p : PoolParams) (t : Nat) (s : State) : (List Byte × Bool × List Nat) × State :=
  let h := freeHeadOf s t
  let (r, s1) := freeWalk p (p.count.getD t 0) (if h = 0 then 0xFFFFFFFF else h - 1) s
  let drops := (workOf s1 t).filter (fun w => match w with
    | .drop _ _ _ _ => true
    | _ => false)
  ((layout 64 [(0, 8, overlayAddr s1 p t), (8, 4, (mapGet [] s1.fennel.overlay t).length),
      (12, 4, ((workOf s1 t).map workSize).sum), (16, 4, if h = 0 then 0xFFFFFFFF else h - 1), (20, 4, r.1),
      (24, 4, drops.length + (deadOf s1 t).length)], r.2.1, r.2.2), s1)

/-- FENNEL's section, whether it was read whole, and the poison met. -/
def dumpFennel (s : State) : (List Byte × Bool × List Nat) × State :=
  match s.fennel.pool with
  | none => ((List.replicate 512 0, true, []), s)
  | some p => tileList.foldl (fun a t =>
      let (r, s1) := dumpFennelTile p t a.2
      ((a.1.1 ++ r.1, a.1.2.1 && r.2.1, a.1.2.2 ++ r.2.2), s1)) (([], true, []), s)

def seqCode : SeqState → Nat
  | .free => 0 | .prefill => 1 | .decode => 2 | .ending => 3

def dumpSeqs (s : State) : List Byte :=
  if isManager s then (List.range 4096).flatMap (fun q =>
    let e := getSeq s q
    layout 40 [(0, 1, seqCode e.state), (1, 1, e.drafts.length), (2, 2, e.sample), (4, 4, e.hostId), (8, 4, e.committed),
      (12, 4, e.remaining), (16, 8, e.lastFull), (24, 8, e.promptAddr), (32, 4, e.lastDesc)])
  else []

/-! ### The dump -/

/-- Write the sections one after another, each aligned on 4 KiB: their directory entries, and where the next would lie. -/
def writeSections : List (Nat × Bool × List Byte) → Nat → State → (List Byte × Nat) × State
  | [], at0, s => (([], at0), s)
  | (kind, partl, bs) :: rest, at0, s =>
    let s1 := pkgWrite 1 0 (dumpBase + at0) bs false s
    let (r, s2) := writeSections rest (roundUp (at0 + bs.length) 4096) s1
    ((layout 16 [(0, 1, kind), (1, 1, partl.toNat), (4, 4, bs.length), (8, 8, at0)] ++ r.1, r.2), s2)

/-- Is an engine op issued and not complete? Control ops have no engine. -/
def opsInFlight (s : State) : Bool :=
  tileList.any (fun t => (getTile s t).window.any (fun e => e.state = .issued && classInstances (opClass e.op) != 0))

/-- The dump is written. `aon` says that the AON controller collects; ops still issued are in flight (R539). Its size. -/
def writeDump (aon : Bool) (s : State) : Nat × State :=
  let flying := !aon && opsInFlight s
  let (eng, s1) := dumpEngines s
  let (fen, s2) := dumpFennel s1
  let secs := [(0x01, false, dumpModule s), (0x02, false, dumpRings s), (0x03, false, dumpCqs s), (0x04, false, dumpFences s),
    (0x05, false, dumpBarriers s), (0x06, false, dumpTags s), (0x07, false, dumpTasks s), (0x08, false, dumpWindow s),
    (0x09, false, eng), (0x0A, false, dumpChans s), (0x0B, false, dumpWindows s), (0x0C, !fen.2.1, fen.1),
    (0x0D, false, dumpSeqs s), (0x0E, false, fen.2.2.flatMap (le 8))]
  let (r, s3) := writeSections secs 4096 s2
  let head := dumpHeader aon (1 + 2 * flying.toNat + 4 * aon.toNat) r.2 secs.length s
  (r.2, pkgWrite 1 0 dumpBase (head ++ r.1) false s3)

/-- `RECOVERY_COLLECT` (R539, R540): CARDAMOM finishes the background folds first. -/
def collect (aon : Bool) (s : State) : Nat × State :=
  let (n, s1) := writeDump aon (if aon then s else foldTiles s)
  (n, collected aon 2 s1)

end Sys2Proof.Machine
end

