-- ==== Sys2Proof/Machine/StatusOps.lean ====
section
/-!
DEFINITION. Health, logs, counters, scrub state, telemetry, recovery, resets and tests as groups 7 to 9 of the mailbox
commands and the sideband ask for them (R498 to R500, R506, R507, R516, R522, R529 to R535, R539, R582, R592, R623).
Where R491 names a response without its layout, the fields stand in the order listed (DESIGN CHOICE).
-/
namespace Sys2Proof.Machine

/-! ### Health and logs -/

/-- `HEALTH_STATUS`: state, health, lasting faults, the hottest layer of each tile, the error summary's bits, the totals of
R518 and the thermal trips of R592. -/
def healthBytes (s : State) : List Byte :=
  le 1 (modStateCode s.life.state) ++ le 1 (healthCode s.integ.health) ++ le 2 s.integ.lasting.length
    ++ tileList.flatMap (fun t => le 1 (tileHot s t)) ++ le 8 s.es.bits.toNat ++ le 4 s.es.ce ++ le 4 s.es.ue
    ++ le 4 s.integ.trips

/-- A log entry (R535). -/
def logBytes (e : LogEntry) : List Byte :=
  layout 32 [(0, 1, e.kind), (1, 1, e.cls), (2, 1, e.tile), (3, 1, e.unit), (4, 4, e.addr), (8, 8, e.time), (16, 9, e.pattern),
    (25, 1, e.refusal), (26, 2, min e.count 0xFFFF), (28, 4, e.step)]

/-- An entry of the lasting-fault table as a log entry; its step is not kept, so it reads all ones. -/
def lastingEntry (x : Lasting) : LogEntry :=
  { kind := locKind x.loc, cls := 2, tile := locTile x.loc, unit := locUnit x.loc, addr := locAddr x.loc, time := x.time
    pattern := logPattern x.loc x.pattern, count := x.hits, step := 2 ^ 32 - 1 }

/-- A window refusal as a log entry. No row of R535's code table is the source of such an entry, so its kind is open. -/
def refusalEntry (kind : Nat) (x : RefusalLog) : LogEntry :=
  { kind := kind, cls := 5, tile := 8, unit := 0, addr := x.window, time := x.time, refusal := x.reason, step := x.step }

/-- Entries of a log, oldest first, and its overflow count. -/
def logOf (log tile : Nat) (s : State) : (List LogEntry × Nat) × State :=
  let ov := fun (k : Nat) => mapGet 0 s.integ.log0Over k
  if log = 0 then ((mapGet [] s.integ.log0 tile, ov tile), s)
  else if log = 1 then ((s.integ.log1, ov 101), s)
  else if log = 2 then ((s.integ.lasting.map lastingEntry, 0), s)
  else if log = 3 then ((s.integ.log3, ov 103), s)
  else
    let (k, s1) := takeFree 8 s
    ((s.fabric.refusals.map (refusalEntry k), ov 104), s1)

def logNamed (log tile : Nat) : Bool := decide (log ≤ 4) && (log != 0 || decide (tile < 8))

/-- `LOG_READ` (R534): the head, then up to 127 entries from the first one asked for. -/
def logRead (log tile first : Nat) (s : State) : Answer :=
  if !logNamed log tile then refuse stInvalidParam s
  else
    let (r, s1) := logOf log tile s
    .now stSuccess (layout 16 [(0, 4, r.1.length), (4, 4, r.2), (8, 4, 0)] ++ ((r.1.drop first).take 127).flatMap logBytes) s1

/-- `LOG_CLEAR` (R491, R534): pending entries of log 0 are kept; the lasting-fault table is not cleared. -/
def logClear (log tile : Nat) (s : State) : Answer :=
  if !logNamed log tile || log == 2 then refuse stInvalidParam s
  else
    let zero := fun (k : Nat) (a : State) => { a with integ := { a.integ with log0Over := mapSet 0 a.integ.log0Over k 0 } }
    if log = 0 then
      accept (zero tile { s with integ := { s.integ with
        log0 := mapMod [] s.integ.log0 tile (fun l => l.filter (fun e => e.cls == 0)) } })
    else if log = 1 then accept (zero 101 { s with integ := { s.integ with log1 := [] } })
    else if log = 3 then accept (zero 103 { s with integ := { s.integ with log3 := [] } })
    else accept (zero 104 { s with fabric := { s.fabric with refusals := [] } })

/-! ### Counters and scrubbers -/

/-- `COUNTER_CONFIG` (R623). -/
def counterConfig (bank index : Nat) (v : BitVec 64) (s : State) : Answer :=
  if decide (bank ≤ 8) && decide (index < 16) && selOk bank v.toNat then accept (selWrite bank index v s)
  else refuse stInvalidParam s

/-- `COUNTER_READ` (R624, R626): 8 bytes each. -/
def counterRead (first count : Nat) (s : State) : Answer :=
  if 1 ≤ count && first + count ≤ 144 then
    .now stSuccess ((List.range count).flatMap (fun i => le 8 (counterValue s (first + i)))) s
  else refuse stInvalidParam s

/-- The channel of a tile that is furthest behind: fewest laps, then lowest position, then lowest number. -/
def behindChan (s : State) (t : Nat) : Nat :=
  (List.range 64).foldl (fun b c =>
    let x := getMc s t c
    let y := getMc s t b
    if x.scrubLaps < y.scrubLaps || (x.scrubLaps == y.scrubLaps && decide (x.scrubPos < y.scrubPos)) then c else b) 0

/-- One tile's record of `SCRUB_STATUS` (R516). -/
def scrubRecord (s : State) (t : Nat) : List Byte :=
  let c := behindChan s t
  let x := getSlot s t
  let flags := (mapGet false s.pkg.pkgOverdue t).toNat + 2 * x.scrubOverdue.toNat
    + 4 * ((List.range 64).any (fun i => mapGet false s.pkg.verifying (t * 64 + i))).toNat
  layout 32 [(0, 4, 64 * (getMc s t c).scrubPos), (4, 1, c), (5, 1, flags), (8, 4, (getMc s t c).scrubLaps),
    (12, 4, mapGet 0 s.pkg.lapLast t), (16, 4, x.scrubPos), (20, 4, x.scrubLaps), (24, 4, x.scrubLast)]

def scrubConfig (hours : Nat) (s : State) : Answer :=
  if 1 ≤ hours && hours ≤ 168 then accept { s with pkg := { s.pkg with lapHours := hours } } else refuse stInvalidParam s

/-! ### Sensors (R500) -/

/-- The reading of sensor 1 to 15, in its unit. -/
def sensorValue (s : State) (id : Nat) : Nat :=
  if id ≤ 8 then tileHot s (id - 1)
  else if id = 9 then hot s.sens.hub
  else if id = 10 then s.sens.millivolts / 1000
  else if id = 11 then s.sens.milliamps / 1000
  else if id = 12 then s.sens.millivolts * s.sens.milliamps / 1000000
  else if id = 13 then modStateCode s.life.state
  else if id = 14 then healthCode s.integ.health
  else portsUp s

def telemetryBytes (s : State) : List Byte := (List.range 15).flatMap (fun i => le 4 (sensorValue s (i + 1)))

/-! ### Recovery, resets and standby -/

/-- `RECOVERY_COLLECT` (R539, R540): on MB1 the AON controller collects at once; CARDAMOM holds issue on every tile, and collects
once no op is issued, or after 1 ms. -/
def recoveryCollect (q : Req) (s : State) : Answer :=
  if q.via == .mb1 || !opsInFlight s then
    let (n, s1) := collect (q.via == .mb1) s
    .now stSuccess (le 8 dumpBase ++ le 4 n) s1
  else .later { s with
    mgmt := { s.mgmt with executing := .collect q (s.life.aonNs + 1000000) }
    life := { s.life with rcDumpState := 1 } }

/-- The collection that has waited is written and answered, and its hold ends. -/
def finishCollect (q : Req) (s : State) : State :=
  let (n, s1) := collect false s
  respond q 0x0801 stSuccess (le 8 dumpBase ++ le 4 n) (freeExecutor s1)

/-- A collection that waits looks at the issued ops each nanosecond; lines of the dump that the host may cache are asked for first
(R462). -/
def tickCollect (s : State) : State :=
  match s.mgmt.executing with
  | .collect q due =>
    if (opsInFlight s && decide (s.life.aonNs < due)) || !s.host.dirty.isEmpty then s
    else
      let s1 := finishCollect q (clearTouch s)
      let l := hostLines s s1.pkg.touch
      if l.isEmpty then endTouch 8 s1 else l.foldl (snoopLine 8 0) s
  | _ => s

/-- `RC_LAST_CAUSE` of a `RESET_CORE` (R616). -/
def coreCause : Via → Nat
  | .mb0 => 1
  | .mbm => 2
  | .mb1 => 3

/-- The response is sent before the reset starts (R491). -/
def resetCore (q : Req) (s : State) : Answer := .later (coreReset (coreCause q.via) (respond q 0x0802 stSuccess [] s))
def resetModule (q : Req) (s : State) : Answer := .later (moduleRestart 6 (respond q 0x0803 stSuccess [] s))

/-- Standby: answered before CARDAMOM stops (DESIGN CHOICE: the moment of the answer). -/
def standbyEnter (q : Req) (s : State) : Answer := .later (enterStandby (respond q 0x0804 stSuccess [] s))

/-- Exit, refused after a thermal trip until every sensor reads below 85 °C (R592). -/
def standbyExit (q : Req) (s : State) : Answer :=
  if s.sens.tripped && !allCool s then refuse stWrongState s
  else .later (exitStandby (respond q 0x0805 stSuccess [] s))

/-- `CASCADE_RESET`: only the master sends `CS_RESET` (R491, R507). -/
def cascadeReset (q : Req) (pos level : Nat) (s : State) : Answer :=
  if !isMaster s then refuse stNotPermitted s
  else if !q.rsvZero || pos == 0 || decide (3 < pos) || decide (1 < level) then refuse stInvalidParam s
  else accept (cfSend 6 (cfAddr pos 0 false) [level] s)

/-! ### Tests -/

/-- `TEST_FLIPMASK` (R529): a new load replaces a mask that has not been used. -/
def flipMask (slot : Bool) (tile unit : Nat) (mask : List Byte) (s : State) : Answer :=
  if 8 ≤ tile || (if slot then 256 else 64) ≤ unit then refuse stInvalidParam s
  else if slot then accept (modSlot s tile (fun x => { x with flips := mapSet 0 x.flips unit (1 + ofBytes mask) }))
  else accept (modMc s tile unit (fun x => { x with flip := 1 + ofBytes mask }))

/-- The length check of a mask: 33 bytes for a bank, 72 for a channel. -/
def maskReq (q : Req) (slot : Bool) (mask : List Byte) : Req :=
  { q with lenOk := q.lenOk && mask.length == (if slot then 33 else 72) }

/-- The record of a test in progress. -/
def testStarts (test : Nat) (s : State) : State :=
  { s with
    integ := { s.integ with records := mapSet {} s.integ.records test { status := 1 } }
    mgmt := { s.mgmt with bgAborted := setBit s.mgmt.bgAborted (if test = 2 then 1 else 2) false } }

/-- `TEST_BIST` (R486, R531): tiles, memories (bit 0 package, bit 1 slot: DESIGN CHOICE), pattern set. -/
def testBist (q : Req) (tiles memory patterns : Nat) (s : State) : Answer :=
  if tiles == 0 || decide (256 ≤ tiles) || memory == 0 || decide (4 ≤ memory) || decide (2 ≤ patterns) then refuse stInvalidParam s
  else if s.mgmt.bg.bist.isSome then refuse stBusy s
  else
    let s1 := testStarts 2 s
    .now stInProgress [] { s1 with mgmt := { s1.mgmt with bg := { s1.mgmt.bg with bist := some (q.via, tiles, memory, patterns) } } }

/-- Code of a VL3 test packet to a board peer (DESIGN CHOICE). -/
def mgmtTest : Nat := 0x27

/-- One VL3 test packet per plane to each board peer, while ports are UP (R506). A peer is named by its position + 256. -/
def sendTests (s : State) : State :=
  let peers := [0, 1, 2, 3].filter (fun p => p != s.life.pos && (mapGet {} s.cascade.table p).present)
  forAll peers (fun a m => forAll (portList.filter (fun p => (getPort s p).state == .up)) (fun b p =>
    mgmtVia p (256 + m) 0 mgmtTest [p] b) a) s

/-- The board test's frames and packets. -/
def sendBoard (s : State) : State := sendTests (if isMaster s then sendLoops s else s)

/-- `TEST_LOOPBACK` (R486, R506): a port mask, or the board. -/
def testLoopback (q : Req) (board : Bool) (mask : Nat) (s : State) : Answer :=
  if !board && (mask == 0 || decide (1024 ≤ mask)) then refuse stInvalidParam s
  else if s.mgmt.bg.loopback.isSome then refuse stBusy s
  else
    let s1 := testStarts (if board then 4 else 3) s
    let s2 := { s1 with mgmt := { s1.mgmt with bg := { s1.mgmt.bg with loopback := some (q.via, board, mask) } } }
    .now stInProgress [] (if board then sendBoard s2 else s2)

/-- `TEST_RESULT` (R533). -/
def resultBytes (test : Nat) (x : TestRec) : List Byte :=
  layout 16 [(0, 1, test), (1, 1, x.status), (2, 1, x.tiles), (4, 4, x.elapsed), (8, 4, x.fails)]
    ++ (if x.fails = 0 then List.replicate 32 0 else logBytes x.first)
    ++ (List.range 4).flatMap (fun i => le 4 (x.lostPos.getD i 0)) ++ (List.range 10).flatMap (fun i => le 4 (x.lostPlane.getD i 0))

def testResult (test : Nat) (s : State) : Answer :=
  if 1 ≤ test && test ≤ 4 then .now stSuccess (resultBytes test (mapGet {} s.integ.records test)) s
  else refuse stInvalidParam s

/-! ### Sideband (R498 to R500) -/

/-- Does the I3C target answer on the bus? In every state but OFF. -/
def i3cOn (s : State) : Bool := s.life.state != .off

/-- A dynamic address by ENTDAA. -/
def entDaa (addr : Nat) (s : State) : State :=
  if i3cOn s && s.mgmt.dynAddr == 0 then { s with mgmt := { s.mgmt with dynAddr := addr % 128 } } else s

/-- A dynamic address by SETDASA from the static address. -/
def setDasa (static addr : Nat) (s : State) : State :=
  if i3cOn s && s.mgmt.dynAddr == 0 && static == 0x30 + s.life.pos then
    { s with mgmt := { s.mgmt with dynAddr := addr % 128 } }
  else s

/-- Is an endpoint id one that can be assigned (PRESUMED, MCTP: 0 to 7 and 255 are reserved)? -/
def eidOk (eid : Nat) : Bool := decide (8 ≤ eid) && decide (eid < 255)

/-- Set Endpoint ID, an MCTP control command over MBM, which is served while `MB_READY` holds. -/
def setEid (eid : Nat) (s : State) : State :=
  if s.mgmt.dynAddr != 0 && s.mgmt.mb0.ready && eidOk eid then { s with mgmt := { s.mgmt with eid := eid } } else s

/-- A PLDM type 0 reply: the command, and content that the spec leaves to DSP0240. -/
def pldmBase (command : Nat) (s : State) : State :=
  if !pldmServed s then s
  else
    let (v, s1) := takeFree 8 s
    emit s1 (.pldmReply [command, v])

/-- A PLDM type 2 reading; the answer to a sensor id that R500 does not list is open. -/
def pldmSensor (sensor : Nat) (s : State) : State :=
  if !pldmServed s then s
  else if 1 ≤ sensor && sensor ≤ 15 then emit s (.pldmReply [sensor, sensorValue s sensor])
  else
    let (v, s1) := takeFree 8 s
    emit s1 (.pldmReply [sensor, v])

def setReceiver (eid : Nat) (s : State) : State :=
  if pldmServed s then { s with mgmt := { s.mgmt with eventReceiver := some eid } } else s

end Sys2Proof.Machine
end

