-- ==== Sys2Proof/Machine/Sideband.lean ====
section
/-!
DEFINITION. The management sideband: I3C addresses, the MCTP endpoint id, and PLDM types 0 and 2 (R498 to R500).
-/
namespace Sys2Proof.Machine

/-- ENTDAA (R498). -/
def execEntdaa (addr : Nat) (s : State) : Host.Outcome State Fault Refusal := .next (entDaa addr s)

/-- SETDASA (R498). -/
def execSetdasa (staticAddr addr : Nat) (s : State) : Host.Outcome State Fault Refusal := .next (setDasa staticAddr addr s)

/-- SET_ENDPOINT_ID (R498). -/
def execSetEndpointId (eid : Nat) (s : State) : Host.Outcome State Fault Refusal := .next (setEid eid s)

/-- PLDM_BASE_REQUEST (R485, R499). -/
def execPldmBaseRequest (command : Nat) (s : State) : Host.Outcome State Fault Refusal := .next (pldmBase command s)

/-- PLDM_SENSOR_REQUEST (R485, R500). -/
def execPldmSensorRequest (sensor : Nat) (s : State) : Host.Outcome State Fault Refusal := .next (pldmSensor sensor s)

/-- SET_EVENT_RECEIVER (R500). -/
def execSetEventReceiver (eid : Nat) (s : State) : Host.Outcome State Fault Refusal := .next (setReceiver eid s)

end Sys2Proof.Machine
end

