-- ==== Sys2Proof/Machine/Startup.lean ====
section
/-!
DEFINITION. Commands of power, PERST# and start-up (spec/19_startup.md R508 to R510).
-/
namespace Sys2Proof.Machine

def execPowerInputInRange (pos : Nat) (s : State) : Host.Outcome State Fault Refusal := .next (inputIn pos s)

def execInputExcursion (us : Nat) (s : State) : Host.Outcome State Fault Refusal := .next (inputOut us s)

def execPerstAssert (ns : Nat) (s : State) : Host.Outcome State Fault Refusal := .next (perstOn ns s)

def execPerstRelease (pendingOk activeOk otherOk : Bool) (digests : List Nat) (s : State) :
    Host.Outcome State Fault Refusal := .next (perstOff pendingOk activeOk otherOk digests s)

def execCardamomStart (m2digest fwVersion : Nat) (s : State) : Host.Outcome State Fault Refusal :=
  .next (cardamomStarts m2digest fwVersion s)

def execHardwareFill (s : State) : Host.Outcome State Fault Refusal := .next (fillDone s)

def execCheckerTest (failTiles fails : Nat) (s : State) : Host.Outcome State Fault Refusal :=
  .next (checkerDone failTiles fails s)

def execRampComplete (s : State) : Host.Outcome State Fault Refusal := .next (rampDone s)

def execBootFallback (s : State) : Host.Outcome State Fault Refusal := .next (bootFallback s)

def execPackageMemoryTrained (ok : Bool) (s : State) : Host.Outcome State Fault Refusal := .next (memoryTrained ok s)

end Sys2Proof.Machine
end

