-- ==== Sys2Proof/Machine/Status.lean ====
section
/-!
DEFINITION. The mailbox commands of groups 7 to 9: monitoring, recovery and tests (R491).
-/
namespace Sys2Proof.Machine

/-- HEALTH_STATUS (R491, R518, R522, R592). -/
def execHealthStatus (q : Req) (s : State) : Host.Outcome State Fault Refusal :=
  .next (mailbox (.healthStatus q) 0x0701 v0M1 (sAll + sS) false false q (fun a => .now stSuccess (healthBytes a) a) s)

/-- LOG_READ (R534, R535). -/
def execLogRead (q : Req) (log tile first : Nat) (s : State) : Host.Outcome State Fault Refusal :=
  .next (mailbox (.logRead q log tile first) 0x0702 v0M1 sAll false false q (logRead log tile first) s)

/-- LOG_CLEAR (R491, R534). -/
def execLogClear (q : Req) (log tile : Nat) (s : State) : Host.Outcome State Fault Refusal :=
  .next (mailbox (.logClear q log tile) 0x0703 v0M sUCNF false false q (logClear log tile) s)

/-- COUNTER_CONFIG (R623). -/
def execCounterConfig (q : Req) (bank index : Nat) (value : BitVec 64) (s : State) : Host.Outcome State Fault Refusal :=
  .next (mailbox (.counterConfig q bank index value) 0x0704 vMb0 (sU + sC + sN) false false q
    (counterConfig bank index value) s)

/-- COUNTER_READ (R624, R626). -/
def execCounterRead (q : Req) (first count : Nat) (s : State) : Host.Outcome State Fault Refusal :=
  .next (mailbox (.counterRead q first count) 0x0705 v0M sUCNRF false false q (counterRead first count) s)

/-- SCRUB_STATUS (R516). -/
def execScrubStatus (q : Req) (s : State) : Host.Outcome State Fault Refusal :=
  .next (mailbox (.scrubStatus q) 0x0706 v0M sUCNRF false false q
    (fun a => .now stSuccess (tileList.flatMap (scrubRecord a)) a) s)

/-- SCRUB_CONFIG (R517). -/
def execScrubConfig (q : Req) (hours : Nat) (s : State) : Host.Outcome State Fault Refusal :=
  .next (mailbox (.scrubConfig q hours) 0x0707 vMb0 (sU + sC) false false q (scrubConfig hours) s)

/-- TELEMETRY_READ (R500). -/
def execTelemetryRead (q : Req) (s : State) : Host.Outcome State Fault Refusal :=
  .next (mailbox (.telemetryRead q) 0x0708 v0M sAll false false q (fun a => .now stSuccess (telemetryBytes a) a) s)

/-- RECOVERY_COLLECT (R539 to R543). -/
def execRecoveryCollect (q : Req) (s : State) : Host.Outcome State Fault Refusal :=
  .next (mailbox (.recoveryCollect q) 0x0801 v01 sUCNRF false false q (recoveryCollect q) s)

/-- RESET_CORE (R544 to R547). -/
def execResetCore (q : Req) (s : State) : Host.Outcome State Fault Refusal :=
  .next (mailbox (.resetCore q) 0x0802 v0M1 sUCNRF false false q (resetCore q) s)

/-- RESET_MODULE (R544, R548). -/
def execResetModule (q : Req) (s : State) : Host.Outcome State Fault Refusal :=
  .next (mailbox (.resetModule q) 0x0803 v0M1 (sAll + sS) false false q (resetModule q) s)

/-- STANDBY_ENTER (R582). -/
def execStandbyEnter (q : Req) (s : State) : Host.Outcome State Fault Refusal :=
  .next (mailbox (.standbyEnter q) 0x0804 v01 (sU + sF) false false q (standbyEnter q) s)

/-- STANDBY_EXIT (R582, R592). -/
def execStandbyExit (q : Req) (s : State) : Host.Outcome State Fault Refusal :=
  .next (mailbox (.standbyExit q) 0x0805 vMb1 sS false false q (standbyExit q) s)

/-- CASCADE_RESET (R507). -/
def execCascadeReset (q : Req) (pos level : Nat) (s : State) : Host.Outcome State Fault Refusal :=
  .next (mailbox (.cascadeReset q pos level) 0x0806 v0M sUCNF false false (ownCheck q) (cascadeReset q pos level) s)

/-- TEST_FLIPMASK (R529). -/
def execTestFlipmask (q : Req) (slot : Bool) (tile unit : Nat) (mask : List Byte) (s : State) :
    Host.Outcome State Fault Refusal :=
  .next (mailbox (.testFlipmask q slot tile unit mask) 0x0901 vMb0 (sU + sNm + sF) false false (maskReq q slot mask)
    (flipMask slot tile unit mask) s)

/-- TEST_BIST (R486, R531). -/
def execTestBist (q : Req) (tiles memory patterns : Nat) (s : State) : Host.Outcome State Fault Refusal :=
  .next (mailbox (.testBist q tiles memory patterns) 0x0902 v0M (sU + sNm + sF) false false q
    (testBist q tiles memory patterns) s)

/-- TEST_LOOPBACK (R486, R506). -/
def execTestLoopback (q : Req) (board : Bool) (mask : Nat) (s : State) : Host.Outcome State Fault Refusal :=
  .next (mailbox (.testLoopback q board mask) 0x0903 vMb0 (sU + sNm) false false q (testLoopback q board mask) s)

/-- TEST_RESULT (R533). -/
def execTestResult (q : Req) (test : Nat) (s : State) : Host.Outcome State Fault Refusal :=
  .next (mailbox (.testResult q test) 0x0904 v0M sAll false false q (testResult test) s)

end Sys2Proof.Machine
end

