-- ==== Sys2Proof/Machine/Store.lean ====
section
/-!
DEFINITION. The mailbox commands of group 4: memory, host window, rings, pools and weight regions (R491).
-/
namespace Sys2Proof.Machine

/-- REGION_SET (R352). -/
def execRegionSet (q : Req) (entries : List RegionEntry) (s : State) : Host.Outcome State Fault Refusal :=
  .next (mailbox (.regionSet q entries) 0x0401 vMb0 sC false false q (setRegions entries) s)

/-- REGION_READ (R352). -/
def execRegionRead (q : Req) (s : State) : Host.Outcome State Fault Refusal :=
  .next (mailbox (.regionRead q) 0x0402 vMb0 (sC + sNp) false false q (fun a => .now stSuccess (regionBytes a) a) s)

/-- HDM_SIZE_SET (R461, R464). -/
def execHdmSizeSet (q : Req) (units : Nat) (s : State) : Host.Outcome State Fault Refusal :=
  .next (mailbox (.hdmSizeSet q units) 0x0403 vMb0 sC false false q (setHdmSize units) s)

/-- RING_CREATE (R464, R467, R468). -/
def execRingCreate (q : Req) (r : RingParams) (s : State) : Host.Outcome State Fault Refusal :=
  .next (mailbox (.ringCreate q r) 0x0404 vMb0 sC false false q (createRing r) s)

/-- RING_DESTROY (R425, R491). -/
def execRingDestroy (q : Req) (ring : Nat) (s : State) : Host.Outcome State Fault Refusal :=
  .next (mailbox (.ringDestroy q ring) 0x0405 vMb0 (sC + sNp) false false q (destroyRing q ring) s)

/-- CQ_CREATE (R464, R466, R467). -/
def execCqCreate (q : Req) (r : RingParams) (s : State) : Host.Outcome State Fault Refusal :=
  .next (mailbox (.cqCreate q r) 0x0406 vMb0 sC false false q (createCq r) s)

/-- CQ_DESTROY (R425, R468, R491). -/
def execCqDestroy (q : Req) (ring : Nat) (s : State) : Host.Outcome State Fault Refusal :=
  .next (mailbox (.cqDestroy q ring) 0x0407 vMb0 (sC + sNp) false false q (destroyCq q ring) s)

/-- KV_POOL_CONFIG (R244, R245). -/
def execKvPoolConfig (q : Req) (f : PoolParams) (s : State) : Host.Outcome State Fault Refusal :=
  .next (mailbox (.kvPoolConfig q f) 0x0408 vMb0 sC false false q (configPool f) s)

/-- SLOT_RELEASE (R81). -/
def execSlotRelease (q : Req) (tile first count : Nat) (s : State) : Host.Outcome State Fault Refusal :=
  .next (mailbox (.slotRelease q tile first count) 0x0409 vMb0 (sC + sNp) false false q
    (releaseSlots q tile first count) s)

/-- MEM_ARB_SET (R363). -/
def execMemArbSet (q : Req) (share threshold : Nat) (s : State) : Host.Outcome State Fault Refusal :=
  .next (mailbox (.memArbSet q share threshold) 0x040A vMb0 (sU + sC) false false q (setArb share threshold) s)

/-- HOST_TIMEOUT_SET (R460). -/
def execHostTimeoutSet (q : Req) (ms : Nat) (s : State) : Host.Outcome State Fault Refusal :=
  .next (mailbox (.hostTimeoutSet q ms) 0x040B vMb0 (sU + sC) false false q (setTimeout ms) s)

/-- WEIGHT_REGION_SET (R525). -/
def execWeightRegionSet (q : Req) (w : WeightParams) (s : State) : Host.Outcome State Fault Refusal :=
  .next (mailbox (.weightRegionSet q w) 0x040C vMb0 sC false false q (setWeights w) s)

end Sys2Proof.Machine
end

