-- ==== Sys2Proof/Machine/Sumac.lean ====
section
/-!
DEFINITION. The end of each SUMAC op, and the bank swap of a table load.
-/
namespace Sys2Proof.Machine

/-- SM_ADD (R280). -/
def execSmAdd (tile entry : Nat) (parity : Bool) (s : State) : Host.Outcome State Fault Refusal :=
  .next (withParity tile entry 3 1 parity (smFinish tile entry 1) s)

/-- SM_MUL (R280). -/
def execSmMul (tile entry : Nat) (parity : Bool) (s : State) : Host.Outcome State Fault Refusal :=
  .next (withParity tile entry 3 2 parity (smFinish tile entry 2) s)

/-- SM_MAX (R280). -/
def execSmMax (tile entry : Nat) (parity : Bool) (s : State) : Host.Outcome State Fault Refusal :=
  .next (withParity tile entry 3 3 parity (smFinish tile entry 3) s)

/-- SM_MIN (R280). -/
def execSmMin (tile entry : Nat) (parity : Bool) (s : State) : Host.Outcome State Fault Refusal :=
  .next (withParity tile entry 3 4 parity (smFinish tile entry 4) s)

/-- SM_CMP (R280). -/
def execSmCmp (tile entry : Nat) (parity : Bool) (s : State) : Host.Outcome State Fault Refusal :=
  .next (withParity tile entry 3 5 parity (smFinish tile entry 5) s)

/-- SM_SELECT (R280). -/
def execSmSelect (tile entry : Nat) (parity : Bool) (s : State) : Host.Outcome State Fault Refusal :=
  .next (withParity tile entry 3 6 parity (smFinish tile entry 6) s)

/-- SM_CONVERT (R280). -/
def execSmConvert (tile entry : Nat) (parity : Bool) (s : State) : Host.Outcome State Fault Refusal :=
  .next (withParity tile entry 3 7 parity (smFinish tile entry 7) s)

/-- SM_FUNC (R280, R290). -/
def execSmFunc (tile entry : Nat) (parity : Bool) (s : State) : Host.Outcome State Fault Refusal :=
  .next (withParity tile entry 3 8 parity (smFinish tile entry 8) s)

/-- SM_GATE (R280, R290). -/
def execSmGate (tile entry : Nat) (parity : Bool) (s : State) : Host.Outcome State Fault Refusal :=
  .next (withParity tile entry 3 9 parity (smFinish tile entry 9) s)

/-- SM_ROWSUM (R282, R283). -/
def execSmRowsum (tile entry : Nat) (parity : Bool) (s : State) : Host.Outcome State Fault Refusal :=
  .next (withParity tile entry 3 10 parity (smFinish tile entry 10) s)

/-- SM_ROWMAX (R282, R283). -/
def execSmRowmax (tile entry : Nat) (parity : Bool) (s : State) : Host.Outcome State Fault Refusal :=
  .next (withParity tile entry 3 11 parity (smFinish tile entry 11) s)

/-- SM_ROWDOT (R282, R283). -/
def execSmRowdot (tile entry : Nat) (parity : Bool) (s : State) : Host.Outcome State Fault Refusal :=
  .next (withParity tile entry 3 12 parity (smFinish tile entry 12) s)

/-- SM_RMSNORM (R284). -/
def execSmRmsnorm (tile entry : Nat) (parity : Bool) (s : State) : Host.Outcome State Fault Refusal :=
  .next (withParity tile entry 3 13 parity (smFinish tile entry 13) s)

/-- SM_LAYERNORM (R285). -/
def execSmLayernorm (tile entry : Nat) (parity : Bool) (s : State) : Host.Outcome State Fault Refusal :=
  .next (withParity tile entry 3 14 parity (smFinish tile entry 14) s)

/-- SM_SOFTMAX (R287, R288). -/
def execSmSoftmax (tile entry : Nat) (parity : Bool) (s : State) : Host.Outcome State Fault Refusal :=
  .next (withParity tile entry 3 15 parity (smFinish tile entry 15) s)

end Sys2Proof.Machine
end

