-- ==== Sys2Proof/Machine/Tenancy.lean ====
section
/-!
DEFINITION. The mailbox commands of groups 1 and 2: identity, attestation, session, claim, release, debug unlock (R491).
-/
namespace Sys2Proof.Machine

/-- IDENTIFY (R491). -/
def execIdentify (q : Req) (s : State) : Host.Outcome State Fault Refusal :=
  .next (mailbox (.identify q) 0x0101 v0M1 (sAll + sS) false false q (fun a => .now stSuccess (identifyBytes a) a) s)

/-- CERT_READ (R560). -/
def execCertRead (q : Req) (index offset : Nat) (s : State) : Host.Outcome State Fault Refusal :=
  .next (mailbox (.certRead q index offset) 0x0102 v0M sAll false false q (readCert index offset) s)

/-- ATTEST (R563). -/
def execAttest (q : Req) (nonce mask : Nat) (s : State) : Host.Outcome State Fault Refusal :=
  .next (mailbox (.attest q nonce mask) 0x0103 v0M sUCNRF false false q (attestNow nonce mask) s)

/-- SESSION_OPEN (R564 to R566). -/
def execSessionOpen (q : Req) (part pk ek : Nat) (sigOk : Bool) (s : State) : Host.Outcome State Fault Refusal :=
  .next (mailbox (.sessionOpen q part pk ek sigOk) 0x0201 vMb0 sU false false (ownCheck q) (openSession q part pk ek sigOk) s)

/-- TENANT_CLAIM (R568). -/
def execTenantClaim (q : Req) (session policy nfw : Nat) (allow : List Nat) (s : State) : Host.Outcome State Fault Refusal :=
  .next (mailbox (.tenantClaim q session policy nfw allow) 0x0202 vMb0 sU true true q (claim session policy nfw allow) s)

/-- TENANT_RELEASE (R571, R572). -/
def execTenantRelease (q : Req) (m2digest : Nat) (bad : List Loc) (s : State) : Host.Outcome State Fault Refusal :=
  .next (mailbox (.tenantRelease q m2digest bad) 0x0203 vMb0 (sC + sNp + sF) false false q (releaseTenant m2digest bad) s)

/-- DEBUG_UNLOCK (R578). -/
def execDebugUnlock (q : Req) (scope serial counter digest m2digest : Nat) (bad : List Loc) (sigOk : Bool) (s : State) :
    Host.Outcome State Fault Refusal :=
  .next (mailbox (.debugUnlock q scope serial counter digest m2digest bad sigOk) 0x0204 vMb0 sU false false (ownCheck q)
    (debugUnlock q scope serial counter digest m2digest bad sigOk) s)

end Sys2Proof.Machine
end

