-- ==== Sys2Proof/Machine/Dispatch.lean ====
section
/-!
DEFINITION. The dispatcher: one arm per command, each a direct call of its meaning or a refusal by name.
-/
namespace Sys2Proof.Machine

def exec (i : Instr) (s : State) : Host.Outcome State Fault Refusal :=
  match i with
  | .powerInputInRange pos => Sys2Proof.Machine.execPowerInputInRange pos s
  | .inputExcursion us => Sys2Proof.Machine.execInputExcursion us s
  | .perstAssert ns => Sys2Proof.Machine.execPerstAssert ns s
  | .perstRelease pendingOk activeOk otherOk digests => Sys2Proof.Machine.execPerstRelease pendingOk activeOk otherOk digests s
  | .cardamomStart m2digest fwVersion => Sys2Proof.Machine.execCardamomStart m2digest fwVersion s
  | .hardwareFill => Sys2Proof.Machine.execHardwareFill s
  | .checkerTest failTiles fails => Sys2Proof.Machine.execCheckerTest failTiles fails s
  | .cxlLinkTrained width rate flit256 => Sys2Proof.Machine.execCxlLinkTrained width rate flit256 s
  | .cxlLinkDown => Sys2Proof.Machine.execCxlLinkDown s
  | .ideIntegrityFailure => Sys2Proof.Machine.execIdeIntegrityFailure s
  | .snpinv head ring => Sys2Proof.Machine.execSnpinv head ring s
  | .task ring => Sys2Proof.Machine.execTask ring s
  | .seqNew ring => Sys2Proof.Machine.execSeqNew ring s
  | .seqFinish ring => Sys2Proof.Machine.execSeqFinish ring s
  | .seqSample ring => Sys2Proof.Machine.execSeqSample ring s
  | .completionRecordWrite cq => Sys2Proof.Machine.execCompletionRecordWrite cq s
  | .d2hReadData id data => Sys2Proof.Machine.execD2hReadData id data s
  | .d2hWriteCompletion id => Sys2Proof.Machine.execD2hWriteCompletion id s
  | .hostTimeout id => Sys2Proof.Machine.execHostTimeout id s
  | .hdmDecoderCommit base => Sys2Proof.Machine.execHdmDecoderCommit base s
  | .hdmRead offset caches => Sys2Proof.Machine.execHdmRead offset caches s
  | .hdmWrite offset data poison => Sys2Proof.Machine.execHdmWrite offset data poison s
  | .bisnpResponse line dirty => Sys2Proof.Machine.execBisnpResponse line dirty s
  | .keyProg stream dir sub keySet refresh key => Sys2Proof.Machine.execKeyProg stream dir sub keySet refresh key s
  | .kSetGo stream keySet => Sys2Proof.Machine.execKSetGo stream keySet s
  | .cqModerationExpire cq => Sys2Proof.Machine.execCqModerationExpire cq s
  | .esMsixHoldoff => Sys2Proof.Machine.execEsMsixHoldoff s
  | .taskAdmit tile => Sys2Proof.Machine.execTaskAdmit tile s
  | .taskEligible tile task => Sys2Proof.Machine.execTaskEligible tile task s
  | .opWindowFill tile => Sys2Proof.Machine.execOpWindowFill tile s
  | .opIssue tile cls => Sys2Proof.Machine.execOpIssue tile cls s
  | .issueAgePromote tile entry => Sys2Proof.Machine.execIssueAgePromote tile entry s
  | .cuminGroupStart tile => Sys2Proof.Machine.execCuminGroupStart tile s
  | .engineClockStop tile cls inst => Sys2Proof.Machine.execEngineClockStop tile cls inst s
  | .tilePllOff tile => Sys2Proof.Machine.execTilePllOff tile s
  | .noOp tile entry => Sys2Proof.Machine.execNoOp tile entry s
  | .cmMm tile entry parity => Sys2Proof.Machine.execCmMm tile entry parity s
  | .sfAttnFwd tile entry parity => Sys2Proof.Machine.execSfAttnFwd tile entry parity s
  | .sfAttnBwd tile entry parity => Sys2Proof.Machine.execSfAttnBwd tile entry parity s
  | .sfMerge tile entry parity => Sys2Proof.Machine.execSfMerge tile entry parity s
  | .sfRope tile entry parity => Sys2Proof.Machine.execSfRope tile entry parity s
  | .fnAppend tile entry parity => Sys2Proof.Machine.execFnAppend tile entry parity s
  | .fnGather tile entry parity => Sys2Proof.Machine.execFnGather tile entry parity s
  | .smAdd tile entry parity => Sys2Proof.Machine.execSmAdd tile entry parity s
  | .smMul tile entry parity => Sys2Proof.Machine.execSmMul tile entry parity s
  | .smMax tile entry parity => Sys2Proof.Machine.execSmMax tile entry parity s
  | .smMin tile entry parity => Sys2Proof.Machine.execSmMin tile entry parity s
  | .smCmp tile entry parity => Sys2Proof.Machine.execSmCmp tile entry parity s
  | .smSelect tile entry parity => Sys2Proof.Machine.execSmSelect tile entry parity s
  | .smConvert tile entry parity => Sys2Proof.Machine.execSmConvert tile entry parity s
  | .smFunc tile entry parity => Sys2Proof.Machine.execSmFunc tile entry parity s
  | .smGate tile entry parity => Sys2Proof.Machine.execSmGate tile entry parity s
  | .smRowsum tile entry parity => Sys2Proof.Machine.execSmRowsum tile entry parity s
  | .smRowmax tile entry parity => Sys2Proof.Machine.execSmRowmax tile entry parity s
  | .smRowdot tile entry parity => Sys2Proof.Machine.execSmRowdot tile entry parity s
  | .smRmsnorm tile entry parity => Sys2Proof.Machine.execSmRmsnorm tile entry parity s
  | .smLayernorm tile entry parity => Sys2Proof.Machine.execSmLayernorm tile entry parity s
  | .smSoftmax tile entry parity => Sys2Proof.Machine.execSmSoftmax tile entry parity s
  | .tableBankSwap tile engine => Sys2Proof.Machine.execTableBankSwap tile engine s
  | .anSample tile entry parity => Sys2Proof.Machine.execAnSample tile entry parity s
  | .anVerify tile entry parity => Sys2Proof.Machine.execAnVerify tile entry parity s
  | .clCopy tile entry parity => Sys2Proof.Machine.execClCopy tile entry parity s
  | .clGather tile entry parity => Sys2Proof.Machine.execClGather tile entry parity s
  | .clScatter tile entry parity => Sys2Proof.Machine.execClScatter tile entry parity s
  | .clTranspose tile entry parity => Sys2Proof.Machine.execClTranspose tile entry parity s
  | .clFill tile entry parity => Sys2Proof.Machine.execClFill tile entry parity s
  | .clKvGather tile entry parity => Sys2Proof.Machine.execClKvGather tile entry parity s
  | .clKvAppend tile entry parity => Sys2Proof.Machine.execClKvAppend tile entry parity s
  | .maAccum tile entry parity => Sys2Proof.Machine.execMaAccum tile entry parity s
  | .ctlFenceWait tile entry => Sys2Proof.Machine.execCtlFenceWait tile entry s
  | .fenceWaitRelease tile entry => Sys2Proof.Machine.execFenceWaitRelease tile entry s
  | .ctlFenceSignal tile entry => Sys2Proof.Machine.execCtlFenceSignal tile entry s
  | .ctlFenceSignalRemote tile entry => Sys2Proof.Machine.execCtlFenceSignalRemote tile entry s
  | .ctlBarrierArrive tile entry => Sys2Proof.Machine.execCtlBarrierArrive tile entry s
  | .ctlBarrierWait tile entry => Sys2Proof.Machine.execCtlBarrierWait tile entry s
  | .ctlStepLoop tile entry => Sys2Proof.Machine.execCtlStepLoop tile entry s
  | .ctlStepLoopEnd tile entry => Sys2Proof.Machine.execCtlStepLoopEnd tile entry s
  | .stepForm => Sys2Proof.Machine.execStepForm s
  | .msgStepHeader src hdr => Sys2Proof.Machine.execMsgStepHeader src hdr s
  | .msgTokenList src toks => Sys2Proof.Machine.execMsgTokenList src toks s
  | .msgResult member step reports status => Sys2Proof.Machine.execMsgResult member step reports status s
  | .msgFault member step code taskId tile => Sys2Proof.Machine.execMsgFault member step code taskId tile s
  | .msgAbort step code => Sys2Proof.Machine.execMsgAbort step code s
  | .abortPacketsSettled => Sys2Proof.Machine.execAbortPacketsSettled s
  | .msgAbortDone member step => Sys2Proof.Machine.execMsgAbortDone member step s
  | .stepRerun => Sys2Proof.Machine.execStepRerun s
  | .stepCommit => Sys2Proof.Machine.execStepCommit s
  | .msgCommit step notices => Sys2Proof.Machine.execMsgCommit step notices s
  | .fennelBackground tile => Sys2Proof.Machine.execFennelBackground tile s
  | .write port p => Sys2Proof.Machine.execWrite port p s
  | .read port p => Sys2Proof.Machine.execRead port p s
  | .readResp port p => Sys2Proof.Machine.execReadResp port p s
  | .accum port p => Sys2Proof.Machine.execAccum port p s
  | .maceApply tile chan => Sys2Proof.Machine.execMaceApply tile chan s
  | .fenceInc port p => Sys2Proof.Machine.execFenceInc port p s
  | .barArrive port p => Sys2Proof.Machine.execBarArrive port p s
  | .barRelease port p => Sys2Proof.Machine.execBarRelease port p s
  | .ack port p => Sys2Proof.Machine.execAck port p s
  | .nak port p => Sys2Proof.Machine.execNak port p s
  | .refuse port p => Sys2Proof.Machine.execRefuse port p s
  | .ackTimer peer chan => Sys2Proof.Machine.execAckTimer peer chan s
  | .channelRetransmitTimer peer chan => Sys2Proof.Machine.execChannelRetransmitTimer peer chan s
  | .busyResendTimer peer chan => Sys2Proof.Machine.execBusyResendTimer peer chan s
  | .busyCapRecover port dest => Sys2Proof.Machine.execBusyCapRecover port dest s
  | .slotWindowClaim window granule => Sys2Proof.Machine.execSlotWindowClaim window granule s
  | .channelOpenRequest peer chan => Sys2Proof.Machine.execChannelOpenRequest peer chan s
  | .windowNotice peer counter tagOk window epoch ops bound => Sys2Proof.Machine.execWindowNotice peer counter tagOk window epoch ops bound s
  | .releaseNotice peer counter tagOk => Sys2Proof.Machine.execReleaseNotice peer counter tagOk s
  | .pairRekey peer counter tagOk secret => Sys2Proof.Machine.execPairRekey peer counter tagOk secret s
  | .paReq peer nonce ek => Sys2Proof.Machine.execPaReq peer nonce ek s
  | .paResp peer r => Sys2Proof.Machine.execPaResp peer r s
  | .fmMemberDown id => Sys2Proof.Machine.execFmMemberDown id s
  | .fmMemberUp id => Sys2Proof.Machine.execFmMemberUp id s
  | .fmMemberGone id => Sys2Proof.Machine.execFmMemberGone id s
  | .switchReachabilityReport port ids => Sys2Proof.Machine.execSwitchReachabilityReport port ids s
  | .linkDataFrame port seq ack crcOk errs lanes direct => Sys2Proof.Machine.execLinkDataFrame port seq ack crcOk errs lanes direct s
  | .linkAckFrame port f => Sys2Proof.Machine.execLinkAckFrame port f s
  | .linkNakFrame port f => Sys2Proof.Machine.execLinkNakFrame port f s
  | .portRetryLimit port => Sys2Proof.Machine.execPortRetryLimit port s
  | .portTrainingStart port => Sys2Proof.Machine.execPortTrainingStart port s
  | .portTrainingStepDone port loopNs => Sys2Proof.Machine.execPortTrainingStepDone port loopNs s
  | .idRecord port r => Sys2Proof.Machine.execIdRecord port r s
  | .trainingStepTimeout port => Sys2Proof.Machine.execTrainingStepTimeout port s
  | .portRetrainTimer port => Sys2Proof.Machine.execPortRetrainTimer port s
  | .opticalPowerSample lasersOk lanesOk => Sys2Proof.Machine.execOpticalPowerSample lasersOk lanesOk s
  | .lightLoss laser index => Sys2Proof.Machine.execLightLoss laser index s
  | .laneFail port lane => Sys2Proof.Machine.execLaneFail port lane s
  | .memRequestServe tile chan => Sys2Proof.Machine.execMemRequestServe tile chan s
  | .memRequestPromote tile chan => Sys2Proof.Machine.execMemRequestPromote tile chan s
  | .refresh tile chan => Sys2Proof.Machine.execRefresh tile chan s
  | .refreshBandRelax tile => Sys2Proof.Machine.execRefreshBandRelax tile s
  | .pkgScrub tile chan => Sys2Proof.Machine.execPkgScrub tile chan s
  | .slotScrub tile => Sys2Proof.Machine.execSlotScrub tile s
  | .scrubLapOverdue tile slot => Sys2Proof.Machine.execScrubLapOverdue tile slot s
  | .targetedSelfTest loc reads => Sys2Proof.Machine.execTargetedSelfTest loc reads s
  | .selfTestPromote loc => Sys2Proof.Machine.execSelfTestPromote loc s
  | .weightBlockReload data sourceOk verified reads => Sys2Proof.Machine.execWeightBlockReload data sourceOk verified reads s
  | .temperatureSample tiles hub => Sys2Proof.Machine.execTemperatureSample tiles hub s
  | .powerSample millivolts milliamps => Sys2Proof.Machine.execPowerSample millivolts milliamps s
  | .issueBudgetGrant binds grants => Sys2Proof.Machine.execIssueBudgetGrant binds grants s
  | .heartbeatTick => Sys2Proof.Machine.execHeartbeatTick s
  | .sessionPendingExpire => Sys2Proof.Machine.execSessionPendingExpire s
  | .drainQuiesced tile => Sys2Proof.Machine.execDrainQuiesced tile s
  | .bistComplete bad elapsed => Sys2Proof.Machine.execBistComplete bad elapsed s
  | .loopbackComplete board lostPos lostPlane elapsed => Sys2Proof.Machine.execLoopbackComplete board lostPos lostPlane elapsed s
  | .closeDrainComplete kind index => Sys2Proof.Machine.execCloseDrainComplete kind index s
  | .slotReleaseGranule granule => Sys2Proof.Machine.execSlotReleaseGranule granule s
  | .cascadeMasterWait => Sys2Proof.Machine.execCascadeMasterWait s
  | .rampSlotExpire => Sys2Proof.Machine.execRampSlotExpire s
  | .cascadeGrantTimeout => Sys2Proof.Machine.execCascadeGrantTimeout s
  | .cascadeSoloRamp => Sys2Proof.Machine.execCascadeSoloRamp s
  | .cascadeRetry => Sys2Proof.Machine.execCascadeRetry s
  | .csHello pos serial onUp => Sys2Proof.Machine.execCsHello pos serial onUp s
  | .csRampGrant slot => Sys2Proof.Machine.execCsRampGrant slot s
  | .csRampDone pos => Sys2Proof.Machine.execCsRampDone pos s
  | .csBoardTable pos present serial => Sys2Proof.Machine.execCsBoardTable pos present serial s
  | .csLoop pos seq pattern => Sys2Proof.Machine.execCsLoop pos seq pattern s
  | .csReset level => Sys2Proof.Machine.execCsReset level s
  | .csFault pos cause => Sys2Proof.Machine.execCsFault pos cause s
  | .entdaa addr => Sys2Proof.Machine.execEntdaa addr s
  | .setdasa staticAddr addr => Sys2Proof.Machine.execSetdasa staticAddr addr s
  | .setEndpointId eid => Sys2Proof.Machine.execSetEndpointId eid s
  | .pldmBaseRequest command => Sys2Proof.Machine.execPldmBaseRequest command s
  | .pldmSensorRequest sensor => Sys2Proof.Machine.execPldmSensorRequest sensor s
  | .setEventReceiver eid => Sys2Proof.Machine.execSetEventReceiver eid s
  | .requestUpdate slot size => Sys2Proof.Machine.execRequestUpdate slot size s
  | .requestFirmwareData offset data verdict version svn => Sys2Proof.Machine.execRequestFirmwareData offset data verdict version svn s
  | .activateFirmware selfContained => Sys2Proof.Machine.execActivateFirmware selfContained s
  | .cancelUpdate => Sys2Proof.Machine.execCancelUpdate s
  | .mbStatusW1c mb1 bits => Sys2Proof.Machine.execMbStatusW1c mb1 bits s
  | .mbWriteWhileBusy mb1 => Sys2Proof.Machine.execMbWriteWhileBusy mb1 s
  | .esBitsW1c bits => Sys2Proof.Machine.execEsBitsW1c bits s
  | .evcOvfW1c bank bits => Sys2Proof.Machine.execEvcOvfW1c bank bits s
  | .evcSelWrite bank index size value => Sys2Proof.Machine.execEvcSelWrite bank index size value s
  | .evcClear => Sys2Proof.Machine.execEvcClear s
  | .evcFreeze on => Sys2Proof.Machine.execEvcFreeze on s
  | .bar2Access write offset size data => Sys2Proof.Machine.execBar2Access write offset size data s
  | .registerWrite bar2 offset size value => Sys2Proof.Machine.execRegisterWrite bar2 offset size value s
  | .identify q => Sys2Proof.Machine.execIdentify q s
  | .certRead q index offset => Sys2Proof.Machine.execCertRead q index offset s
  | .attest q nonce mask => Sys2Proof.Machine.execAttest q nonce mask s
  | .sessionOpen q part pk ek sigOk => Sys2Proof.Machine.execSessionOpen q part pk ek sigOk s
  | .tenantClaim q session policy nfw allow => Sys2Proof.Machine.execTenantClaim q session policy nfw allow s
  | .tenantRelease q m2digest bad => Sys2Proof.Machine.execTenantRelease q m2digest bad s
  | .debugUnlock q scope serial counter digest m2digest bad sigOk => Sys2Proof.Machine.execDebugUnlock q scope serial counter digest m2digest bad sigOk s
  | .fwInfo q => Sys2Proof.Machine.execFwInfo q s
  | .fwBegin q slot size => Sys2Proof.Machine.execFwBegin q slot size s
  | .fwTransfer q id offset data => Sys2Proof.Machine.execFwTransfer q id offset data s
  | .fwVerify q id verdict version svn => Sys2Proof.Machine.execFwVerify q id verdict version svn s
  | .fwActivate q slot mode => Sys2Proof.Machine.execFwActivate q slot mode s
  | .fwCancel q id => Sys2Proof.Machine.execFwCancel q id s
  | .regionSet q entries => Sys2Proof.Machine.execRegionSet q entries s
  | .regionRead q => Sys2Proof.Machine.execRegionRead q s
  | .hdmSizeSet q units => Sys2Proof.Machine.execHdmSizeSet q units s
  | .ringCreate q r => Sys2Proof.Machine.execRingCreate q r s
  | .ringDestroy q ring => Sys2Proof.Machine.execRingDestroy q ring s
  | .cqCreate q r => Sys2Proof.Machine.execCqCreate q r s
  | .cqDestroy q ring => Sys2Proof.Machine.execCqDestroy q ring s
  | .kvPoolConfig q f => Sys2Proof.Machine.execKvPoolConfig q f s
  | .slotRelease q tile first count => Sys2Proof.Machine.execSlotRelease q tile first count s
  | .memArbSet q share threshold => Sys2Proof.Machine.execMemArbSet q share threshold s
  | .hostTimeoutSet q ms => Sys2Proof.Machine.execHostTimeoutSet q ms s
  | .weightRegionSet q w => Sys2Proof.Machine.execWeightRegionSet q w s
  | .fabricPlanSet q fabricId generation plan => Sys2Proof.Machine.execFabricPlanSet q fabricId generation plan s
  | .fabricMembersSet q ids => Sys2Proof.Machine.execFabricMembersSet q ids s
  | .peerAttest q peer => Sys2Proof.Machine.execPeerAttest q peer s
  | .fabricJobJoin q job members manager => Sys2Proof.Machine.execFabricJobJoin q job members manager s
  | .fabricJobLeave q job => Sys2Proof.Machine.execFabricJobLeave q job s
  | .channelOpen q number peer port low high => Sys2Proof.Machine.execChannelOpen q number peer port low high s
  | .channelClose q number peer => Sys2Proof.Machine.execChannelClose q number peer s
  | .windowOpen q w => Sys2Proof.Machine.execWindowOpen q w s
  | .windowClose q window => Sys2Proof.Machine.execWindowClose q window s
  | .windowStatus q window => Sys2Proof.Machine.execWindowStatus q window s
  | .fabricOpenTrust q job => Sys2Proof.Machine.execFabricOpenTrust q job s
  | .portStatus q => Sys2Proof.Machine.execPortStatus q s
  | .portRetrain q mask => Sys2Proof.Machine.execPortRetrain q mask s
  | .portDisable q mask => Sys2Proof.Machine.execPortDisable q mask s
  | .portEnable q mask => Sys2Proof.Machine.execPortEnable q mask s
  | .engineCapsRead q cls => Sys2Proof.Machine.execEngineCapsRead q cls s
  | .stepSetRegister q f => Sys2Proof.Machine.execStepSetRegister q f s
  | .stepSetRelease q job => Sys2Proof.Machine.execStepSetRelease q job s
  | .jobResume q job => Sys2Proof.Machine.execJobResume q job s
  | .engineDrain q sel => Sys2Proof.Machine.execEngineDrain q sel s
  | .engineAbort q sel => Sys2Proof.Machine.execEngineAbort q sel s
  | .engineStatus q => Sys2Proof.Machine.execEngineStatus q s
  | .sfConfigLoad q index record => Sys2Proof.Machine.execSfConfigLoad q index record s
  | .smTableLoad q slot dpa => Sys2Proof.Machine.execSmTableLoad q slot dpa s
  | .smTableRead q kind index => Sys2Proof.Machine.execSmTableRead q kind index s
  | .fenceSet q counter value => Sys2Proof.Machine.execFenceSet q counter value s
  | .fenceRead q first count => Sys2Proof.Machine.execFenceRead q first count s
  | .barrierConfig q b => Sys2Proof.Machine.execBarrierConfig q b s
  | .healthStatus q => Sys2Proof.Machine.execHealthStatus q s
  | .logRead q log tile first => Sys2Proof.Machine.execLogRead q log tile first s
  | .logClear q log tile => Sys2Proof.Machine.execLogClear q log tile s
  | .counterConfig q bank index value => Sys2Proof.Machine.execCounterConfig q bank index value s
  | .counterRead q first count => Sys2Proof.Machine.execCounterRead q first count s
  | .scrubStatus q => Sys2Proof.Machine.execScrubStatus q s
  | .scrubConfig q hours => Sys2Proof.Machine.execScrubConfig q hours s
  | .telemetryRead q => Sys2Proof.Machine.execTelemetryRead q s
  | .recoveryCollect q => Sys2Proof.Machine.execRecoveryCollect q s
  | .resetCore q => Sys2Proof.Machine.execResetCore q s
  | .resetModule q => Sys2Proof.Machine.execResetModule q s
  | .standbyEnter q => Sys2Proof.Machine.execStandbyEnter q s
  | .standbyExit q => Sys2Proof.Machine.execStandbyExit q s
  | .cascadeReset q pos level => Sys2Proof.Machine.execCascadeReset q pos level s
  | .testFlipmask q slot tile unit mask => Sys2Proof.Machine.execTestFlipmask q slot tile unit mask s
  | .testBist q tiles memory patterns => Sys2Proof.Machine.execTestBist q tiles memory patterns s
  | .testLoopback q board mask => Sys2Proof.Machine.execTestLoopback q board mask s
  | .testResult q test => Sys2Proof.Machine.execTestResult q test s
  | .rampComplete => Sys2Proof.Machine.execRampComplete s
  | .bootFallback => Sys2Proof.Machine.execBootFallback s
  | .foldComplete window chan => Sys2Proof.Machine.execFoldComplete window chan s
  | .packageMemoryTrained ok => Sys2Proof.Machine.execPackageMemoryTrained ok s

end Sys2Proof.Machine
end

