-- ==== Sys2Proof/Machine/RegReads.lean ====
section
/-!
DEFINITION. What a read of BAR0 returns (spec/25_registers_counters.md; R9, R456, R457, R478 to R483, R610 to R626).
-/
namespace Sys2Proof.Machine

/-! ### The blocks of BAR0 -/

/-- Identity and status (R612 to R614). -/
def identityBlock (s : State) : List Byte :=
  ascii "UMA9" ++ le 2 1 ++ le 2 s.host.space.deviceId ++ le 16 Config.serial ++ le 4 s.mgmt.fwVersion ++ le 4 0
    ++ le 4 (isStatus s) ++ le 4 (isNotReady s)
    ++ le 2 (portList.foldl (fun m p => setBit m p (portUp s p)) 0) ++ le 1 s.life.pos ++ le 1 s.fabric.planId
    ++ le 2 s.sec.epoch ++ le 2 0

/-- Heartbeat (R615). -/
def heartbeatBlock (s : State) : List Byte := le 8 s.life.hbCount ++ le 8 s.life.aonNs ++ le 1 s.life.hbStage

/-- Recovery control (R616). -/
def recoveryBlock (s : State) : List Byte :=
  layout 32 [(0, 1, s.life.rcLevel), (1, 1, s.life.rcCause), (2, 1, s.life.rcRecovering), (3, 1, s.life.rcDumpState),
    (4, 4, s.life.rcCore), (8, 4, s.life.rcModule), (12, 4, s.life.rcDumpSeq), (16, 8, s.life.rcTime), (24, 1, s.life.rcDumpBy)]

/-- `MBn_CTRL`, `MBn_STATUS` and `MBn_INFO`: `DOORBELL` reads zero (R479 to R481). -/
def mailboxBlock (m : Mailbox) : List Byte :=
  le 4 (2 * m.intEn.toNat)
    ++ le 4 (m.busy.toNat + 2 * m.done.toNat + 4 * m.event.toNat + 8 * m.overrun.toNat)
    ++ le 4 (m.ready.toNat + 2 ^ 8 * 1 + 2 ^ 16 * 0x1000) ++ le 4 0

/-- A byte of a mailbox's header (from 0) or payload (from 16). -/
def mailboxByte (m : Mailbox) (i : Nat) : Byte := BitVec.ofNat 8 (mapGet 0 m.hdrShadow i)

/-- Ring registers (R617), from 0x5000. -/
def ringByte (s : State) (o : Nat) : Byte :=
  if o < 0x200 then (le 8 (getRing s (o / 8)).prog).getD (o % 8) 0
  else if o < 0x240 then BitVec.ofNat 8 (ringCode (getRing s (o - 0x200)).state)
  else if 0x400 ≤ o && o < 0x600 then (le 8 (getCq s ((o - 0x400) / 8)).written).getD (o % 8) 0
  else 0

/-- The overflow bits of a bank: zero while the tenant's `COUNTERS` policy is 0 (R626). -/
def overflowValue (s : State) (bank : Nat) : Nat :=
  if s.sec.claimed && !bit s.sec.policy 1 then 0 else (mapGet 0 s.evc.ovf bank).toNat

/-- Event counters (R621 to R626), from 0x6000: `EVC_CLEAR` reads zero. -/
def counterByte (s : State) (o : Nat) : Byte :=
  let bank := o / 0x180
  let i := o % 0x180
  if o = 0xF00 then BitVec.ofNat 8 s.evc.freeze.toNat
  else if 9 ≤ bank then 0
  else if i < 0x80 then (le 8 (counterValue s (bank * 16 + i / 8))).getD (i % 8) 0
  else if i < 0x100 then (le 8 (mapGet 0 s.evc.sels (bank * 16 + (i - 0x80) / 8)).toNat).getD (i % 8) 0
  else if i < 0x108 then (le 8 (overflowValue s bank)).getD (i % 8) 0
  else 0

/-- Error summary (R618, R620). -/
def errorBlock (s : State) : List Byte :=
  le 8 s.es.bits.toNat ++ le 8 0
    ++ [s.es.refused, s.es.discard, s.es.auth, s.es.staleInc, s.es.staleArr, s.es.lateFault, s.es.refusal, s.es.window,
        s.es.ringError, s.es.jobFault, s.es.ce, s.es.ue, s.integ.lasting.length, s.es.bar2].flatMap (le 4)
    ++ le 2 s.es.lastFault ++ le 2 0 ++ le 4 s.es.lastTask

/-- The MSI-X table and its pending bits (R457). -/
def msixByte (s : State) (off : Nat) : Byte :=
  let k := (off - 0x8000) / 4
  if off < 0x8400 then (le 4 ((mapGet 0 s.host.msix k).xor (if k % 4 = 3 then 1 else 0))).getD (off % 4) 0
  else if 0x9000 ≤ off && off < 0x9008 then
    BitVec.ofNat 8 ((List.range 8).foldl (fun m i => setBit m i (mapGet false s.host.msixPending (8 * (off - 0x9000) + i))) 0)
  else 0

/-! ### Reads -/

/-- A byte of BAR0; what no table names reads zero (R610). -/
def bar0Byte (s : State) (off : Nat) : Byte :=
  if off < 0x100 then (identityBlock s).getD off 0
  else if off < 0x200 then (heartbeatBlock s).getD (off - 0x100) 0
  else if off < 0x300 then (recoveryBlock s).getD (off - 0x200) 0
  else if off < 0x1000 then 0
  else if off < 0x1010 then (mailboxBlock s.mgmt.mb0).getD (off - 0x1000) 0
  else if off < 0x1020 then mailboxByte s.mgmt.mb0 (off - 0x1010)
  else if off < 0x2000 then 0
  else if off < 0x3000 then mailboxByte s.mgmt.mb0 (16 + off - 0x2000)
  else if off < 0x3010 then (mailboxBlock s.mgmt.mb1).getD (off - 0x3000) 0
  else if off < 0x3020 then mailboxByte s.mgmt.mb1 (off - 0x3010)
  else if off < 0x4000 then 0
  else if off < 0x5000 then mailboxByte s.mgmt.mb1 (16 + off - 0x4000)
  else if off < 0x5600 then ringByte s (off - 0x5000)
  else if off < 0x6000 then 0
  else if off < 0x7000 then counterByte s (off - 0x6000)
  else if off < 0x7100 then (errorBlock s).getD (off - 0x7000) 0
  else if off < 0x8000 then 0
  else if off < 0xA000 then msixByte s off
  else 0

/-- A read of 4 or 8 bytes, naturally aligned; another reads zero (R610). The CXL component registers follow the CXL standard,
which the spec does not repeat: there is no value for them. -/
def bar0Read (off size : Nat) (s : State) : Option Nat :=
  if isComponent off then none
  else if !bar0Open s || !(size == 4 || size == 8) || off % size != 0 then some 0
  else some (ofBytes ((List.range size).map (fun i => bar0Byte s (off + i))))

/-- Does configuration space answer (R508 step 5)? -/
def spaceAnswers (s : State) : Bool := bar0Open s

/-- The first and third words of configuration space: device and vendor ids, and class code over a revision that is not given. -/
def spaceIds (s : State) : Nat := Config.vendorId % 2 ^ 16 + 2 ^ 16 * s.host.space.deviceId
def spaceClass (s : State) : Nat := Config.revisionId % 2 ^ 8 + 2 ^ 8 * s.host.space.classCode

end Sys2Proof.Machine
end

