-- ==== Sys2Proof/Machine/UpsetOps.lean ====
section
/-!
DEFINITION. Bit errors of the hub's structures, configuration latches, cache tags, device cache, CARDAMOM's SRAM and the key
store, as the blocks that hold them find them (spec/20_integrity.md R512, R513).
-/
namespace Sys2Proof.Machine

/-- `LG_KIND` of a place's errors (R535). -/
def upsetKind : UpsetPlace → Nat
  | .cacheTag _ _ => 0x05
  | .channel _ | .route _ | .window _ | .fence _ | .barrier _ | .stepEntry _ | .pendingQueue => 0x06
  | .latch _ => 0x07
  | .deviceCache _ _ => 0x0C
  | .sram => 0x0D
  | .keyStore => 0x0E

/-- `LG_TILE` and `LG_ADDR` (R535). -/
def upsetTile : UpsetPlace → Nat
  | .cacheTag set _ => set / 8192
  | .latch tile => tile
  | _ => 8

def upsetAddr : UpsetPlace → Nat
  | .cacheTag set way => set % 8192 * 16 + way
  | .channel k => k
  | .route i | .window i | .fence i | .barrier i | .stepEntry i => i
  | .deviceCache _ ring => ring
  | _ => 0

/-- An uncorrectable error is counted and logged. -/
def upsetLog (p : UpsetPlace) (s : State) : State :=
  log1Add (upsetKind p) 4 (upsetTile p) 0 (upsetAddr p) 0 { s with es := { s.es with ue := satAdd 32 s.es.ue 1 } }

/-- The owning job's step faults with `POISON`, of no task and of the hub, and the module stays in RECOVERING until software
resets it (R513, R544). -/
def hubLost (s : State) : State :=
  let s1 := stepFault fPoison 0xFFFFFFFF 8 false s
  if s1.life.state = .recovering then s1
  else vector0 (setModState .recovering { s1 with life := { s1.life with rcRecovering := 2 } })

/-- A channel context is lost: the channel is reset, the fabric manager hears of it, and the channel re-opens. -/
def channelLost (k : Nat) (s : State) : State :=
  if (getChan s k).state == .closed then s
  else
    let s1 := reportSend (fun p => .chanReport p (keyPeer k) (keyNum k)) (resetChan k s)
    if portUp s1 (getChan s1 k).port then reopenChan k s1 else s1

def latchHeld (tile : Nat) (b : Bool) (s : State) : State :=
  if tile < 8 then modTile s tile (fun x => { x with latchHold := b }) else s

/-- CARDAMOM rewrites a latch within 100 µs, at a time and with an outcome that are open; one that fails again cannot hold
data. -/
def rewriteLatch (u : Upset) (tile : Nat) (s : State) : State :=
  let (now, s1) := takeFree 1 s
  let (again, s2) := takeFree 1 s1
  if !s.life.cardamomRuns || now == 0 then { s2 with integ := { s2.integ with upsets := s2.integ.upsets ++ [u] } }
  else if again == 1 then cannotHold s2
  else latchHeld tile false s2

/-- The outcome of an uncorrectable error (R512, R513). A routing entry is restored from the AON's copy and a device cache line
is fetched again. -/
def upsetEffect (u : Upset) (s : State) : State :=
  match u.place with
  | .channel k => channelLost k s
  | .route _ => s
  | .window _ | .fence _ | .barrier _ | .stepEntry _ | .pendingQueue => hubLost s
  | .latch tile => latchHeld tile true { s with integ := { s.integ with upsets := s.integ.upsets ++ [{ u with stage := 2 }] } }
  | .cacheTag _ _ | .keyStore => cannotHold s
  | .deviceCache head ring => watcherWake head ring s
  | .sram => { s with life := { s.life with cardamomRuns := false } }

/-- An error is found: corrected in place, counted and logged; or logged, with its outcome. A device cache line has parity
only, so each of its errors drops the line. -/
def findUpset (s : State) (u : Upset) : State :=
  match u.place, u.stage with
  | .latch tile, 2 => rewriteLatch u tile s
  | .deviceCache _ _, _ => upsetEffect u (upsetLog u.place s)
  | p, 0 => ceMark (upsetKind p) (upsetTile p) 0 (upsetAddr p) s
  | p, _ => upsetEffect u (upsetLog p s)

/-- Every error that has come about is found. -/
def tickUpsets (s : State) : State :=
  forAll s.integ.upsets findUpset { s with integ := { s.integ with upsets := [] } }

end Sys2Proof.Machine
end

