-- ==== Sys2Proof/Machine/Idle.lean ====
section
/-!
DEFINITION. What happens on an empty queue: a command that waited goes on, or one nanosecond passes (R361, R462, R485, R588,
R615, R627).
-/
namespace Sys2Proof.Machine

/-- The next command that waits: one that waited for the host's answer to a snoop, or the next mailbox command once the
executor is free. Neither while a snoop is outstanding. -/
def nextWaiting (s : State) : Option Instr :=
  if !s.host.dirty.isEmpty then none
  else match s.host.stalled with
    | c :: _ => some c
    | [] => if s.mgmt.executing = .none then s.mgmt.waiting.head? else none

/-- The state in which that command runs. -/
def dropWaiting (s : State) : State :=
  match s.host.stalled with
  | _ :: cs => { s with host := { s.host with stalled := cs } }
  | [] => { s with mgmt := { s.mgmt with waiting := s.mgmt.waiting.tail, resuming := true } }

/-! ### Events that are counted by the nanosecond (R627) -/

/-- Cycles of a class clock in one nanosecond. -/
def cyclesPerNs : Nat → Nat
  | 1 => 4 | 2 => 4 | 3 => 4 | 4 => 4 | 5 => 2 | 6 => 2 | 7 => 1 | _ => 0

/-- Is any counter of a bank counting? Nothing else needs the walk over its events. -/
def bankCounts (s : State) (bank : Nat) : Bool :=
  !s.evc.freeze && (List.range 16).any (fun i => bit (mapGet 0 s.evc.sels (bank * 16 + i)).toNat 63)

/-- Busy cycles of the engines that have an op. -/
def tickBusy (t : Nat) (s : State) : State :=
  forAll ((getTile s t).window.filter (fun e => e.state = .issued && (!e.ended || (opClass e.op == 7 && !maSent s t e.uid)) && classInstances (opClass e.op) != 0)) (fun a e =>
    evCount t (opClass e.op) e.inst (entryPrio a t e) (cyclesPerNs (opClass e.op)) a) s

/-- Window entries that are held, each by its first unmet condition, and tasks held by a wait. -/
def tickStalls (t : Nat) (s : State) : State :=
  forAll ((getTile s t).window.filter (fun e => e.state = .unissued || isWaitOp s e.op)) (fun a e =>
    evCount t (firstUnmet a t e).1 0 (entryPrio a t e) (if (firstUnmet a t e).1 = 0 then 0 else 1) a) s

/-- Controllers on which the class 0 share limit is in force. -/
def tickShare (t : Nat) (s : State) : State :=
  let now := (getTile s t).timeNs
  forAll (List.range 64) (fun a c => if shareInForce a now ((waitingAt a t c).map (·.1)) then evCount t 0x38 c 0 1 a else a) s

/-- Refresh at a shorter interval. -/
def tickRefresh (t : Nat) (s : State) : State :=
  let b := mapGet 0 s.pkg.band t
  if b = 0 then s else evCount t (0x5F + b) 0 0 1 s

/-- Waits in the mesh and in the slot banks, whose times the model leaves out: every nanosecond adds an open count. A link that
a tile has not got counts none (R17). -/
def openEvent (bank : Nat) (sel : BitVec 64) : Bool :=
  let code := bits sel.toNat 7 0
  bit sel.toNat 63 && ([0x21, 0x4A, 0x4B, 0x8A].contains code
    || (code == 0x41 && (List.range 4).any (fun i => linkExists bank i && evcMatches sel 0x41 i 0)))

def tickOpen (bank : Nat) (s : State) : State :=
  forAll ((List.range 16).filter (fun i => openEvent bank (mapGet 0 s.evc.sels (bank * 16 + i)))) (fun a i =>
      let (n, a1) := takeFree 16 a
      { a1 with evc := evcAdd a1.evc (bank * 16 + i) n }) s

/-- One nanosecond's events of a tile. -/
def tickTile (s : State) (t : Nat) : State :=
  if bankCounts s t then tickOpen t (evCount t 0 0 0 1 (tickRefresh t (tickShare t (tickStalls t (tickBusy t s))))) else s

/-- Bytes held in a port's retention store (R415). -/
def storeBytes (s : State) (port : Nat) : Nat :=
  (s.fabric.chans.filter (fun c => c.2.port == port)).foldl (fun a c =>
    c.2.retained.foldl (fun x r => if r.sentOut then x + retBytes r else x) a) 0

/-- Is a port's store too full for a packet that waits? -/
def storeFull (s : State) (port : Nat) : Bool :=
  s.fabric.chans.any (fun c => c.2.port == port && c.2.retained.any (fun r => !r.sentOut && decide (2 ^ 20 < storeBytes s port + retBytes r)))

/-- Is a tile's budget binding (R586)? -/
def anyBudget (s : State) : Bool := tileList.any (fun t => (getTile s t).budget.isSome)

/-- A port in step 4 of its training sends the module's identity record every 10 µs (R387). -/
def tickIdentity (s : State) : State :=
  if s.life.aonNs % 10000 != 0 then s
  else
    forAll (portList.filter (fun p => (getPort s p).state == .training && (getPort s p).step == 4))
      (fun a p => sendFrame p 4 0 (identityBytes a p) a) s

/-- One nanosecond's events of the hub. -/
def tickHub (s : State) : State :=
  if bankCounts s 8 then
    let s1 := forAll portList (fun a p => if storeFull a p then evHub 0x98 p 1 a else a) (evHub 0x80 0 1 s)
    tickOpen 8 (if anyBudget s1 then evHub 0xB8 0 1 s1 else s1)
  else s

/-! ### What PEPPER, its engines and the tag units do by themselves -/

/-- Does an op in a window name the granule? Its tag is read as PEPPER tests the op (R99). -/
def tagNamed (s : State) (t g : Nat) : Bool :=
  tileList.any (fun u => (getTile s u).window.any (fun e => (namedGranules s u e).contains (t, g)))

/-- Tags with a bit error that ops name are read. -/
def tickTags (t : Nat) (s : State) : State :=
  forAll ((getSlot s t).tagErrors.map (·.1)) (fun a g => if tagNamed a t g then tagRead t g a else a) s

/-- Ops that are ready are noted: from then on they wait for their turn (R100). -/
def tickReady (t : Nat) (s : State) : State :=
  modTile s t (fun x => { x with window := x.window.map (fun e =>
    if e.state = .unissued && classInstances (opClass e.op) != 0 && opReady s t e then { e with ready := true } else e) })

/-- May the engine of an issued op take the next before this one completes? A CUMIN array once the last row has entered it, a
SUMAC engine near its op's end, a CLOVE engine once the last read is asked for (R209, R301, R345). -/
def mayOverlap (s : State) (t : Nat) (e : Entry) : Bool :=
  e.state = .issued && !e.group && !e.ended && (opClass e.op == 1 || opClass e.op == 3 || opClass e.op == 5)
    && (getEngine s t (opClass e.op) e.inst).busy && (getEngine s t (opClass e.op) e.inst).uid == e.uid

/-- When that is, the spec gives in cycles of an op's run, which the model does not count: a free value decides (log entry
103). -/
def tickOverlap (t : Nat) (s : State) : State :=
  forAll ((getTile s t).window.filter (mayOverlap s t)) (fun a e =>
    let (b, a1) := takeFree 1 a
    if b == 1 then freeInstance t e a1 else a1) s

def tickPepper (s : State) (t : Nat) : State := tickOverlap t (tickReady t (tickTags t s))

/-! ### One nanosecond -/

/-- A tile's time counter, and the 8 ns in which three CUMIN arrays may start (R105, R361). -/
def tickTime (x : Tile) : Tile :=
  { x with
    timeNs := (x.timeNs + 1) % 2 ^ 64
    groups := (if x.timeNs % 8 == 7 && !x.window.any (·.group) then 0 else x.groups) }

def allTilesTick (s : State) : State := forAll tileList (fun a t => modTile a t tickTime) s

/-- One nanosecond: the AON's time, and except in STANDBY the tiles' time, what the counters count by it, what PEPPER and its
engines do by themselves, a restoration that an aborted step still waits for, and the errors that are found. -/
def tick (s : State) : State :=
  if !s.life.inputOn then s
  else
    let s1 := { s with life := { s.life with aonNs := (s.life.aonNs + 1) % 2 ^ 64 } }
    if s.life.state = .standby then s1
    else tickCollect (tickUpsets (tickIdentity (restoreHeld (forAll tileList tickPepper (tickHub (forAll tileList tickTile (allTilesTick s1)))))))

end Sys2Proof.Machine
end

