-- ==== Sys2Proof/Machine/Step.lean ====
section
/-!
DEFINITION. One step of the block: it takes the command at the front of the queue; on an empty queue it starts the
next mailbox command that waits for the executor, and otherwise one nanosecond passes.
-/
namespace Sys2Proof.Machine

/-- One step (R485 for waiting commands; DESIGN CHOICE, log 1, for the empty queue). -/
def step (s : State) : Host.Outcome State Fault Refusal :=
  match s.pending with
  | c :: cs => exec c { s with pending := cs }
  | [] =>
    match nextWaiting s with
    | some c => exec c (dropWaiting s)
    | none => .next (tick s)

/-- The state with the command that a table word spells put at the front of its queue. -/
def State.withFetchWord (s : State) (nbits w : Nat) : State :=
  match Sys2Proof.decodeTableWord nbits w with
  | some c => { s with pending := c :: s.pending }
  | none => s

end Sys2Proof.Machine
end

