-- ==== Sys2Proof/Safety.lean ====
section
/-!
DEFINITION. The terms in which the statements speak: when a mailbox command runs, what its answer leaves, and the
properties of a state that every step keeps.
-/
namespace Sys2Proof.Machine

/-- The command of request `q` is taken in and runs at once (R477, R483 to R485, R490): its mailbox is served and free,
CARDAMOM is free (MB1 has its own controller), the mailbox offers the command, the request's length, state, authorisation
and reserved fields pass, and the host caches no line that the command could touch (R462). -/
abbrev MailRuns (s : State) (q : Req) (via states : Nat) (auth claim : Bool) : Prop :=
  served s q.via = true ∧ s.mgmt.resuming = false ∧ (q.via = .mbm ∨ (getMb s q.via).busy = false)
    ∧ (q.via = .mb1 ∨ s.mgmt.executing = .none ∧ s.mgmt.waiting = []) ∧ bit via (viaBit q.via) = true ∧ q.lenOk = true
    ∧ stateAccepts s states = true ∧ authorised s q auth claim = true ∧ q.rsvZero = true ∧ s.host.filter = []

/-- The state in which such a command runs: its mailbox is BUSY with its opcode and tag (R480, R482). -/
def mailReady (code : Nat) (q : Req) (s : State) : State :=
  clearTouch (modMb q.via (fun m => { m with busy := true, done := false, opcode := code, tag := q.tag }) s)

/-- The response to `q` stands where R483 says: in the mailbox with BUSY clear and DONE set, or in the MBM message. A
request with a trailer gets one after the body (R567). -/
def Answered (t : State) (q : Req) (code status : Nat) (body : List Byte) : Prop :=
  ∃ rest : List Byte, (q.trailer = none → rest = []) ∧
    match q.via with
    | .mbm => t.mgmt.mbmOut =
        mbHeader code q.tag (body ++ rest).length status (if q.trailer.isSome then 3 else 2) ++ (body ++ rest)
    | v => (getMb t v).busy = false ∧ (getMb t v).done = true ∧ (getMb t v).opcode = code ∧ (getMb t v).tag = q.tag
        ∧ (getMb t v).status = status ∧ (getMb t v).payload = body ++ rest

/-- A packet that frames have delivered at an UP port passes every check before its sequence number (R377, R385, R404, R409,
R410, R418): it is for this module, well formed, of an OPEN or CLOSING channel in its current epoch, its tag verifies, and
the host caches no line that it could touch. -/
abbrev PacketGood (s : State) (port op : Nat) (p : Packet) : Prop :=
  (getPort s port).state = .up ∧ delivered s port op p = true ∧ p.dst = ownId s ∧ p.rsvZero = true
    ∧ p.payload.length ≤ 4096 ∧ p.chan < 4096
    ∧ ((getChan s (chanKey p.src p.chan)).state = .opened ∨ (getChan s (chanKey p.src p.chan)).state = .closing)
    ∧ p.epoch = (getChan s (chanKey p.src p.chan)).epoch ∧ p.tagOk = true
    ∧ (getChan s (chanKey p.src p.chan)).rxOld = false ∧ (getChan s (chanKey p.src p.chan)).rxSeq < 2 ^ 24
    ∧ s.host.filter = []

/-- Such a packet is the next of its channel's sequence (R411), and no accumulate of the channel is still to be applied
(R412). -/
abbrev PacketNext (s : State) (port op : Nat) (p : Packet) : Prop :=
  PacketGood s port op p ∧ p.seq = (getChan s (chanKey p.src p.chan)).rxSeq
    ∧ (∀ a ∈ allAccums s, a.stream ≠ 2 * chanKey p.src p.chan)

/-- A control op or no-op of class `cls` and this opcode stands at a window entry, and may run: it has been issued, or
nothing holds the tile's issue (R44, R97, R101, R108). -/
abbrev CtlStands (s : State) (tile uid : Nat) (e : Entry) (cls code : Nat) : Prop :=
  findEntry s tile uid = some e ∧ opClass e.op = cls ∧ opCode e.op = code ∧ (e.state = .issued ∨ tileHeld s tile = false)

/-- The task of an op that ends goes on: it is ACTIVE and its next op has index `pos`, within its list (R94). -/
abbrev GoesOn (s : State) (tile k pos : Nat) : Prop :=
  (getTask s tile k).phase = .active ∧ pos < (getTask s tile k).ops.length

/-- What the op of an engine works out and writes: CUMIN (class 1), SAFFRON (2), SUMAC (3) and ANISE (4). -/
def engineWork (cls code tile : Nat) (e : Entry) (s : State) : EngRun :=
  if cls = 1 then cmWork tile e s
  else if cls = 2 then sfWork code tile e s
  else if cls = 3 then smWork code tile e s
  else anWork code tile e s

/-- The engine op of entry `e` has completed (R76, R77): it has left the issue window, its output granules carry its
tag together, and its engine is idle. -/
abbrev OpDone (s t : State) (tile uid : Nat) (e : Entry) : Prop :=
  findEntry t tile uid = none
    ∧ (∀ g ∈ granulesOf (entryOuts s tile e), g ∉ consumedOf e (entryIns s tile e) →
        getTag t g.1 g.2 = if opHold e.op then tagHeld else tagFull (opCons e.op))
    ∧ ((getEngine s tile (opClass e.op) e.inst).uid = uid → (getEngine t tile (opClass e.op) e.inst).busy = false)

/-- Every slot memory holds the bytes that it holds in `u`. -/
abbrev SlotBytes (t u : State) : Prop := ∀ k, (getSlot t k).bytes = (getSlot u k).bytes

/-- The bytes and the poison of package memory are those of `u`. -/
abbrev PkgData (t u : State) : Prop := t.pkg.bytes = u.pkg.bytes ∧ t.pkg.poison = u.pkg.poison

/-- Every byte memory of the module is in its canonical form. -/
def MemoriesWf (s : State) : Prop :=
  Memory.wf s.pkg.bytes = true ∧ (∀ kv ∈ s.slots, Memory.wf kv.2.bytes = true) ∧ Memory.wf s.mgmt.flash = true

/-- The table of channel contexts is in its canonical form: one context per peer and number. -/
abbrev ChannelsWf (s : State) : Prop := mapWf {} s.fabric.chans = true

/-- Configuration space holds the ids, structures and sizes that R456 gives. -/
abbrev SpaceFixed (s : State) : Prop :=
  s.host.space.deviceId = 0x0A90 ∧ s.host.space.classCode = 0x120000
    ∧ s.host.space.caps = [.pcie, .msix, .aer, .doe, .ide, .dvsecDevice, .dvsecLocator, .dvsecFlexBus]
    ∧ s.host.space.hdmCount = 1 ∧ s.host.space.memHwInit = false ∧ s.host.space.cacheSize = 0x100000

/-- A module with a cascade fault holds no board table (R504). -/
def CascadeWf (s : State) : Prop := s.cascade.fault = true → s.cascade.haveTable = false ∧ s.cascade.table = []

/-! ### What a command may change: the lists that the frames rest on -/

/-- No half line of slot memory holds an error, and no bank holds a flip mask. -/
abbrev SlotsClean (s : State) : Prop := ∀ kv ∈ s.slots, kv.2.errors = [] ∧ kv.2.flips = []

/-- The error counts of R620. -/
def errorCounts (s : State) : List Nat :=
  [s.es.refused, s.es.discard, s.es.auth, s.es.staleInc, s.es.staleArr, s.es.lateFault, s.es.refusal, s.es.window,
    s.es.ringError, s.es.jobFault, s.es.ce, s.es.ue, s.es.bar2]

/-- Each error count fits its 4 bytes. -/
abbrev CountsFit (s : State) : Prop := ∀ n ∈ errorCounts s, n ≤ 0xFFFFFFFF

/-- Commands that may change bytes of slot memory: the engines, what reads or writes slots, fills, wipes and resets.
-/
def mayWriteSlotBytes : Instr → Bool
  | .inputExcursion .. | .perstAssert .. | .hardwareFill .. | .cxlLinkDown .. | .ideIntegrityFailure ..
  | .opIssue .. | .cmMm .. | .sfAttnFwd .. | .sfAttnBwd .. | .sfMerge .. | .sfRope .. | .smAdd .. | .smMul ..
  | .smMax .. | .smMin .. | .smCmp .. | .smSelect .. | .smConvert .. | .smFunc .. | .smGate .. | .smRowsum ..
  | .smRowmax .. | .smRowdot .. | .smRmsnorm .. | .smLayernorm .. | .smSoftmax .. | .anSample .. | .anVerify ..
  | .clCopy .. | .clGather .. | .clScatter .. | .clTranspose .. | .clFill .. | .clKvGather .. | .clKvAppend ..
  | .maAccum .. | .write .. | .slotScrub .. | .temperatureSample .. | .bistComplete .. | .csReset ..
  | .bar2Access .. | .registerWrite .. | .tenantRelease .. | .debugUnlock .. | .fwActivate .. | .resetCore ..
  | .resetModule .. | .bootFallback .. => true
  | _ => false

/-- Commands that may change data or poison in package memory: what reads or writes it (a read may correct or poison
what it meets), fills, wipes and scrubs, and what cancels tasks that wait, whose descriptors are read. The slot engines do so
only with an engine error, which may end in FAILED. -/
def mayWritePackage : Instr → Bool
  | .cmMm _ _ p | .sfAttnFwd _ _ p | .sfAttnBwd _ _ p | .sfMerge _ _ p | .sfRope _ _ p | .smAdd _ _ p | .smMul _ _ p
  | .smMax _ _ p | .smMin _ _ p | .smCmp _ _ p | .smSelect _ _ p | .smConvert _ _ p | .smFunc _ _ p | .smGate _ _ p
  | .smRowsum _ _ p | .smRowmax _ _ p | .smRowdot _ _ p | .smRmsnorm _ _ p | .smLayernorm _ _ p | .smSoftmax _ _ p
  | .anSample _ _ p | .anVerify _ _ p => p
  | .perstAssert .. | .cardamomStart .. | .cxlLinkDown .. | .ideIntegrityFailure .. | .stepCommit ..
  | .targetedSelfTest .. | .temperatureSample .. | .csReset .. | .fwActivate .. | .engineAbort .. | .resetCore ..
  | .resetModule .. | .standbyEnter .. | .bootFallback .. | .packageMemoryTrained ..
  | .inputExcursion .. | .hardwareFill .. | .hdmRead .. | .hdmWrite .. | .bisnpResponse .. | .taskAdmit ..
  | .opWindowFill .. | .fnAppend .. | .fnGather .. | .clCopy .. | .clGather .. | .clScatter .. | .clTranspose ..
  | .clFill .. | .clKvGather .. | .clKvAppend .. | .maAccum .. | .msgStepHeader .. | .msgTokenList ..
  | .abortPacketsSettled .. | .msgCommit .. | .fennelBackground .. | .write .. | .read .. | .readResp ..
  | .accum .. | .maceApply .. | .fenceInc .. | .barArrive .. | .barRelease .. | .releaseNotice ..
  | .fmMemberGone .. | .memRequestServe .. | .pkgScrub .. | .weightBlockReload .. | .bistComplete ..
  | .bar2Access .. | .registerWrite .. | .tenantRelease .. | .debugUnlock .. | .kvPoolConfig ..
  | .fabricJobLeave .. | .stepSetRegister .. | .stepSetRelease .. | .smTableLoad .. | .recoveryCollect .. => true
  | _ => false

/-- Commands that may change the tasks, issue windows and engines of the tiles. -/
def mayChangeTiles : Instr → Bool
  | .inputExcursion .. | .perstAssert .. | .cardamomStart .. | .cxlLinkDown .. | .ideIntegrityFailure ..
  | .task .. | .hostTimeout .. | .taskAdmit .. | .taskEligible .. | .opWindowFill .. | .opIssue ..
  | .issueAgePromote .. | .cuminGroupStart .. | .engineClockStop .. | .tilePllOff .. | .noOp .. | .cmMm ..
  | .sfAttnFwd .. | .sfAttnBwd .. | .sfMerge .. | .sfRope .. | .fnAppend .. | .fnGather .. | .smAdd .. | .smMul ..
  | .smMax .. | .smMin .. | .smCmp .. | .smSelect .. | .smConvert .. | .smFunc .. | .smGate .. | .smRowsum ..
  | .smRowmax .. | .smRowdot .. | .smRmsnorm .. | .smLayernorm .. | .smSoftmax .. | .anSample .. | .anVerify ..
  | .clCopy .. | .clGather .. | .clScatter .. | .clTranspose .. | .clFill .. | .clKvGather .. | .clKvAppend ..
  | .maAccum .. | .ctlFenceWait .. | .fenceWaitRelease .. | .ctlFenceSignal .. | .ctlFenceSignalRemote ..
  | .ctlBarrierArrive .. | .ctlBarrierWait .. | .ctlStepLoop .. | .ctlStepLoopEnd .. | .msgStepHeader ..
  | .msgTokenList .. | .msgAbort .. | .abortPacketsSettled .. | .stepCommit .. | .msgCommit .. | .write ..
  | .read .. | .readResp .. | .maceApply .. | .fenceInc .. | .barArrive .. | .barRelease .. | .ack .. | .refuse ..
  | .releaseNotice .. | .paResp .. | .fmMemberDown .. | .fmMemberGone .. | .switchReachabilityReport ..
  | .portRetryLimit .. | .portTrainingStepDone .. | .idRecord .. | .trainingStepTimeout .. | .lightLoss ..
  | .laneFail .. | .pkgScrub .. | .targetedSelfTest .. | .weightBlockReload .. | .temperatureSample ..
  | .issueBudgetGrant .. | .drainQuiesced .. | .bistComplete .. | .csReset .. | .tenantRelease ..
  | .debugUnlock .. | .fwActivate .. | .fabricPlanSet .. | .peerAttest .. | .fabricJobLeave .. | .portRetrain ..
  | .accum .. | .linkDataFrame .. | .linkAckFrame .. | .linkNakFrame .. | .fenceSet ..
  | .portDisable .. | .stepSetRegister .. | .stepSetRelease .. | .engineDrain .. | .engineAbort ..
  | .barrierConfig .. | .resetCore .. | .resetModule .. | .standbyExit .. | .bootFallback ..
  | .packageMemoryTrained .. => true
  | _ => false

/-- Commands that may change fence counters, their bases or barriers. -/
def mayChangeFences : Instr → Bool
  | .inputExcursion .. | .perstAssert .. | .cardamomStart .. | .cxlLinkDown .. | .ideIntegrityFailure ..
  | .hostTimeout .. | .opWindowFill .. | .opIssue .. | .noOp .. | .cmMm .. | .sfAttnFwd .. | .sfAttnBwd ..
  | .sfMerge .. | .sfRope .. | .fnAppend .. | .fnGather .. | .smAdd .. | .smMul .. | .smMax .. | .smMin ..
  | .smCmp .. | .smSelect .. | .smConvert .. | .smFunc .. | .smGate .. | .smRowsum .. | .smRowmax ..
  | .smRowdot .. | .smRmsnorm .. | .smLayernorm .. | .smSoftmax .. | .anSample .. | .anVerify .. | .clCopy ..
  | .clGather .. | .clScatter .. | .clTranspose .. | .clFill .. | .clKvGather .. | .clKvAppend .. | .maAccum ..
  | .ctlFenceWait .. | .fenceWaitRelease .. | .ctlFenceSignal .. | .ctlFenceSignalRemote .. | .ctlBarrierArrive ..
  | .ctlBarrierWait .. | .ctlStepLoop .. | .ctlStepLoopEnd .. | .msgStepHeader .. | .msgTokenList ..
  | .msgFault .. | .abortPacketsSettled .. | .stepCommit .. | .msgCommit .. | .write .. | .read .. | .readResp ..
  | .accum .. | .maceApply .. | .fenceInc .. | .barArrive .. | .barRelease .. | .ack .. | .refuse ..
  | .releaseNotice .. | .paResp .. | .fmMemberDown .. | .fmMemberGone .. | .switchReachabilityReport ..
  | .portRetryLimit .. | .portTrainingStepDone .. | .idRecord .. | .trainingStepTimeout .. | .lightLoss ..
  | .laneFail .. | .pkgScrub .. | .targetedSelfTest .. | .weightBlockReload .. | .temperatureSample ..
  | .bistComplete .. | .csReset .. | .tenantRelease .. | .debugUnlock .. | .fwActivate .. | .fabricPlanSet ..
  | .peerAttest .. | .fabricJobLeave .. | .portRetrain .. | .portDisable .. | .stepSetRegister ..
  | .stepSetRelease .. | .engineAbort .. | .fenceSet .. | .barrierConfig .. | .resetCore .. | .resetModule ..
  | .tableBankSwap .. | .linkDataFrame .. | .linkAckFrame .. | .linkNakFrame .. | .closeDrainComplete ..
  | .slotReleaseGranule .. | .channelClose .. | .standbyEnter ..
  | .bootFallback .. | .packageMemoryTrained .. => true
  | _ => false

/-- Commands that may change attention configurations or segment tables. -/
def mayChangeEngineCfg : Instr → Bool
  | .inputExcursion .. | .perstAssert .. | .cxlLinkDown .. | .ideIntegrityFailure .. | .tableBankSwap .. | .pkgScrub ..
  | .temperatureSample .. | .csReset .. | .tenantClaim .. | .tenantRelease .. | .debugUnlock .. | .fwActivate ..
  | .sfConfigLoad .. | .smTableLoad .. | .resetCore .. | .resetModule .. | .standbyEnter .. | .bootFallback .. =>
  true
  | _ => false

/-- Commands that may change the job or the step task set. -/
def mayChangeJob : Instr → Bool
  | .inputExcursion .. | .perstAssert .. | .temperatureSample .. | .csReset .. | .tenantRelease ..
  | .fwActivate .. | .fabricJobJoin .. | .fabricJobLeave .. | .fabricOpenTrust .. | .stepSetRegister ..
  | .stepSetRelease .. | .resetModule .. | .bootFallback .. => true
  | _ => false

/-- Commands that may change what the board cascade holds. -/
def mayChangeCascade : Instr → Bool
  | .inputExcursion .. | .cascadeMasterWait .. | .rampSlotExpire .. | .cascadeGrantTimeout ..
  | .cascadeSoloRamp .. | .cascadeRetry .. | .csHello .. | .csRampGrant .. | .csRampDone .. | .csBoardTable ..
  | .csLoop .. | .csFault .. | .testLoopback .. | .rampComplete .. => true
  | _ => false

/-- Commands that may change the page pool and the step view of FENNEL. -/
def mayChangePool : Instr → Bool
  | .inputExcursion .. | .perstAssert .. | .fnAppend .. | .fnGather .. | .abortPacketsSettled .. | .msgCommit ..
  | .stepCommit .. | .fennelBackground .. | .releaseNotice .. | .fmMemberGone .. | .pkgScrub .. | .temperatureSample ..
  | .csReset .. | .tenantRelease .. | .fwActivate .. | .kvPoolConfig .. | .fabricJobLeave .. | .stepSetRelease ..
  | .recoveryCollect .. | .resetModule .. | .bootFallback .. => true
  | _ => false

/-- Commands that may change the firmware images in flash. -/
def mayWriteFlash : Instr → Bool
  | .requestUpdate .. | .requestFirmwareData .. | .fwBegin .. | .fwTransfer .. => true
  | _ => false

end Sys2Proof.Machine
end

