-- ==== Sys2Proof/Certificates/Slice0/Obligations.lean ====
section
/-!
DEFINITION. The statements for the provers, by family of commands and kind of state.
-/
open Sys2Proof Sys2Proof.Machine

/-- A step with a command in front runs that command on the queue's rest; with none and nothing waiting, one
nanosecond passes (the empty queue is the model's choice, log 1). -/
def Obligations.StepRunsFrontCommand : Prop :=
  (∀ (s : State) (c : Instr) (cs : List Instr), step { s with pending := c :: cs } = exec c { s with pending := cs })
  ∧ (∀ s : State, s.pending = [] → nextWaiting s = none → step s = .next (tick s))

/-- A step uses up the front of the queue and nothing else of it: no command adds, drops or reorders a waiting
command. -/
def Obligations.StepConsumesFrontOfQueue : Prop :=
  (∀ (s t : State) (c : Instr) (cs : List Instr), s.pending = c :: cs → step s = .next t → t.pending = cs)
  ∧ (∀ s t : State, s.pending = [] → step s = .next t → t.pending = [])

/-- Power and the first steps of start-up complete (R502, R508, R510, R580, R601). -/
def Obligations.PowerCommandsComplete : Prop :=
  (∀ (s : State) (pos : Nat), s.life.inputOn = false → ∃ t, exec (.powerInputInRange pos) s = .next t
    ∧ t.life.inputOn = true ∧ t.life.pos = pos % 4 ∧ t.life.aonNs = 0 ∧ t.life.state = .booting ∧ (pos % 4 ≠ 0 →
    t.out.getLast? = some (cascadeOut 1 (cfAddr 0 (pos % 4) false) [serial6 Config.serial])))
  ∧ (∀ (s : State) (us : Nat), s.life.inputOn = true → 10 < us → ∃ t, exec (.inputExcursion us) s = .next t
    ∧ t.life = { released := s.life.released } ∧ t.slots = [] ∧ t.pkg = {} ∧ t.tiles = [] ∧ t.fabric = {}
    ∧ t.host = {} ∧ t.sec = { debugCounter := s.sec.debugCounter } ∧ t.integ.log1 = s.integ.log1
    ∧ t.integ.lasting = s.integ.lasting ∧ t.integ.health = s.integ.health ∧ t.mgmt.minSvn = s.mgmt.minSvn
    ∧ t.mgmt.flash = s.mgmt.flash)
  ∧ (∀ (s : State) (ns : Nat), 1000 ≤ ns → s.sens.tripped = false → s.life.inputOn = true → hasBooted s = true →
    ∃ t, exec (.perstAssert ns) s = .next t ∧ t.life.released = false ∧ t.life.boot = .waitRelease
    ∧ t.life.state = .booting ∧ t.life.filled = false ∧ t.life.rcLevel = 2 ∧ t.life.rcCause = 7
    ∧ t.mgmt.mb1.ready = false ∧ t.sec.claimed = false ∧ t.sec.session = none)
  ∧ (∀ (s : State) (p a o : Bool) (ds : List Nat), s.life.inputOn = true → s.life.boot = .waitRelease →
    pendingSlot s = none → ∃ t, exec (.perstRelease p a o ds) s = .next t ∧ t.life.released = true
    ∧ t.mgmt.mb1.ready = true ∧ (a = true → t.life.boot = .verified ∧ t.life.state = .booting ∧ t.life.hbStage = 1)
    ∧ (a = false → o = false → t.life.boot = .dead ∧ t.life.state = .failed))
  ∧ (∀ (s : State) (m2 fw : Nat), s.life.boot = .verified → ∃ t, exec (.cardamomStart m2 fw) s = .next t
    ∧ t.life.boot = .trainMemory ∧ t.life.cardamomRuns = true ∧ t.life.hbStage = 3 ∧ t.mgmt.mb0.ready = true
    ∧ t.mgmt.fwVersion = fw ∧ mapGet 0 t.sec.meas 2 = Config.sha3 (le 32 (mapGet 0 s.sec.meas 2) ++ le 32 m2))

/-- The later steps of start-up complete (R497, R505, R508, R530, R533). -/
def Obligations.StartupCommandsComplete : Prop :=
  (∀ (s : State), s.life.boot = .trainMemory → ∃ t, exec (.packageMemoryTrained true) s = .next t
    ∧ t.life.boot = .fill ∧ t.pkg = s.pkg)
  ∧ (∀ (s : State), s.life.boot = .fill → ∃ t, exec (.hardwareFill) s = .next t ∧ t.life.boot = .checker
    ∧ t.life.filled = true ∧ t.pkg.bytes = [] ∧ t.pkg.poison = [] ∧ t.pkg.errors = [] ∧ t.pkg.cache = []
    ∧ t.pkg.regions = s.pkg.regions ∧ (∀ i, (getSlot t i).bytes = [] ∧ (getSlot t i).tags = []
    ∧ (getSlot t i).errors = [] ∧ (getSlot t i).outClaims = [] ∧ (getSlot t i).inClaims = []))
  ∧ (∀ (s : State) (tiles fails : Nat), s.life.boot = .checker → tiles % 256 ≠ 0 →
    ∃ t, exec (.checkerTest tiles fails) s = .next t ∧ t.life.boot = .bist ∧ (mapGet {} t.integ.records 1).status = 3
    ∧ (mapGet {} t.integ.records 1).tiles = tiles % 256 ∧ (mapGet {} t.integ.records 1).fails = fails)
  ∧ (∀ (s : State) (tiles fails : Nat), s.life.boot = .checker → tiles % 256 = 0 →
    ∃ t, exec (.checkerTest tiles fails) s = .next t ∧ t.life.boot ≠ .checker ∧ t.life.boot ≠ .bist
    ∧ (mapGet {} t.integ.records 1).status = 2)
  ∧ (∀ (s : State), s.life.inputOn = true → s.life.ramped = false → s.cascade.ramping = true →
    ∃ t, exec (.rampComplete) s = .next t ∧ t.life.ramped = true ∧ t.cascade.ramping = false
    ∧ (s.life.boot = .waitRamp → s.life.released = false → t.life.boot = .waitRelease))
  ∧ (∀ (s : State) (p : Nat), s.life.bootedPending = true → pendingSlot s = some p →
    ∃ t, exec (.bootFallback) s = .next t ∧ t.mgmt.fiBoot = 2 ∧ t.life.bootedPending = false
    ∧ (fwSlotOf t p).state = 0 ∧ bit t.es.bits.toNat 20 = true)

/-- The board cascade's commands complete (R503 to R507, R600). -/
def Obligations.CascadeCommandsComplete : Prop :=
  (∀ (s : State), isMaster s = true → s.life.inputOn = true → s.cascade.masterWaited = false →
    s.cascade.fault = false → s.cascade.nextSlot = 0 → ∃ t, exec (.cascadeMasterWait) s = .next t
    ∧ t.cascade.masterWaited = true ∧ t.cascade.granted = some 0 ∧ t.cascade.ownGrant = some s.cascade.grants
    ∧ t.cascade.ramping = !s.life.ramped ∧ t.cascade.grants = s.cascade.grants + 1)
  ∧ (∀ (s : State) (p q : Nat), isMaster s = true → s.cascade.granted = some p → s.cascade.nextSlot = q → 1 ≤ q →
    q ≤ 3 → saidHello s q = true → ∃ t, exec (.rampSlotExpire) s = .next t
    ∧ t.cascade.absent = s.cascade.absent ++ [p] ∧ t.cascade.granted = some q
    ∧ t.out = s.out ++ [cascadeOut 2 (cfAddr q 0 false) [s.cascade.grants]])
  ∧ (∀ (s : State), isMaster s = false → s.cascade.ramping = true → s.cascade.ownGrant.isSome = true →
    s.cascade.absent.contains s.life.pos = false → ∃ t, exec (.rampSlotExpire) s = .next t
    ∧ t.cascade.ramping = false ∧ t.cascade.absent = s.cascade.absent ++ [s.life.pos])
  ∧ (∀ (s : State), s.life.inputOn = true → isMaster s = false → s.cascade.ownGrant = none → s.life.ramped = false →
    s.cascade.fault = false → ∃ t, exec (.cascadeGrantTimeout) s = .next t ∧ t.cascade.fault = true
    ∧ t.cascade.haveTable = false ∧ t.cascade.table = [] ∧ bit t.es.bits.toNat 13 = true)
  ∧ (∀ (s : State), s.life.inputOn = true → s.life.ramped = false → s.cascade.fault = true →
    ∃ t, exec (.cascadeSoloRamp) s = .next t ∧ t.cascade.ramping = true)
  ∧ (∀ (s : State) (code dst : Nat) (body : List Byte), s.life.inputOn = true →
    s.out.getLast? = some (.cascade code dst body) → ∃ t, exec (.cascadeRetry) s = .next t
    ∧ t.out = s.out ++ [.cascade code dst body] ∧ t.cascade.retries = s.cascade.retries + 1)
  ∧ (∀ (s : State) (pos serial : Nat), s.life.inputOn = true → isMaster s = true → 1 ≤ pos → pos ≤ 3 →
    ∃ t, exec (.csHello pos serial false) s = .next t ∧ mapGet 0 t.cascade.hello pos = serial % 2 ^ 48 + 1
    ∧ (∀ q, q ≠ pos → mapGet 0 t.cascade.hello q = mapGet 0 s.cascade.hello q))
  ∧ (∀ (s : State) (slot : Nat), s.life.inputOn = true → isMaster s = false → s.cascade.ownGrant = none →
    s.cascade.fault = false → s.life.ramped = false → ∃ t, exec (.csRampGrant slot) s = .next t
    ∧ t.cascade.ownGrant = some slot ∧ t.cascade.ramping = true)
  ∧ (∀ (s : State) (pos : Nat), s.life.inputOn = true → isMaster s = false → ∃ t, exec (.csRampDone pos) s = .next t
    ∧ t.out = s.out ++ [cascadeOut 3 (cfAddr 0 pos false) []])
  ∧ (∀ (s : State) (pos : Nat) (present : Bool) (serial : Nat), s.life.inputOn = true → isMaster s = false →
    s.cascade.fault = false → ∃ t, exec (.csBoardTable pos present serial) s = .next t ∧ t.cascade.haveTable = true
    ∧ mapGet {} t.cascade.table (pos % 4) = ⟨present, serial % 2 ^ 48⟩)
  ∧ (∀ (s : State) (seq pattern : Nat), s.life.inputOn = true → isMaster s = false → s.life.pos ≤ 2 → seq ≠ 63 →
    ∃ t, exec (.csLoop 0 seq pattern) s = .next t ∧ t.cascade.lastPattern = pattern
    ∧ t.out = s.out ++ [cascadeOut 5 (cfAddr 0 s.life.pos false) [seq, pattern], cascadeOut 5 (cfAddr 0 0 true) [seq,
      pattern]])
  ∧ (∀ (s : State), s.life.inputOn = true → isMaster s = false → s.cascade.fault = false → hasBooted s = true →
    resetsCore s.life.state = true → ∃ t, exec (.csReset 0) s = .next t ∧ t.life.rcLevel = 1 ∧ t.life.rcCause = 4
    ∧ t.life.boot = .coreCardamom)
  ∧ (∀ (s : State) (pos cause : Nat), s.life.inputOn = true → isMaster s = true →
    ∃ t, exec (.csFault pos cause) s = .next t ∧ mapGet 0 t.cascade.faultsSeen pos = cause + 1)

/-- A module with a cascade fault holds no board table (R504), and no step gives it one. -/
def Obligations.CascadeFaultDropsTable : Prop :=
  ∀ s t : State, CascadeWf s → step s = .next t → CascadeWf t

/-- Every step keeps every byte memory in its canonical form. -/
def Obligations.MemoriesStayCanonical : Prop :=
  ∀ s t : State, MemoriesWf s → step s = .next t → MemoriesWf t

/-- The table of channel contexts stays canonical in every step (R406, R407): one context per peer and number, none
that is as at reset. -/
def Obligations.ChannelTableStaysCanonical : Prop :=
  ∀ s t : State, ChannelsWf s → step s = .next t → ChannelsWf t

/-- The state after reset: OFF (R510), every granule tag EMPTY (R72), every event counter and selection zero (R621,
R626), the invariants hold and nothing waits. -/
def Obligations.ResetHoldsInvariants : Prop :=
  MemoriesWf State.reset ∧ CascadeWf State.reset ∧ ChannelsWf State.reset ∧ State.reset.pending = []
    ∧ State.reset.life.state = .off ∧ (∀ tile g, getTag State.reset tile g = 0)
    ∧ (∀ k, mapGet 0 State.reset.evc.counts k = 0 ∧ mapGet 0 State.reset.evc.sels k = 0
    ∧ mapGet 0 State.reset.evc.ovf k = 0)

/-- Writes of BAR0 and BAR2 complete and change what they name, nothing else (R480, R610, R618, R621 to R625, R628,
R629). -/
def Obligations.RegisterCommandsComplete : Prop :=
  (∀ (s : State) (mb1 : Bool) (b : Nat), bar0Open s = true → ∃ t, exec (.mbStatusW1c mb1 b) s = .next t
    ∧ getMb t (mbVia mb1) =
      { getMb s (mbVia mb1) with done := (getMb s (mbVia mb1)).done && !bit b 1, event := (getMb s (mbVia mb1)).event && !bit b 2, overrun := (getMb s (mbVia mb1)).overrun && !bit b 3 }
    ∧ getMb t (mbVia !mb1) = getMb s (mbVia !mb1) ∧ t.es = s.es ∧ t.evc = s.evc ∧ t.out = s.out ∧ t.host = s.host)
  ∧ (∀ (s : State) (b : BitVec 64), bar0Open s = true →
    exec (.esBitsW1c b) s = .next ({ s with es := { s.es with bits := s.es.bits &&& ~~~b } }))
  ∧ (∀ (s : State) (bank : Nat) (b : BitVec 16), bar0Open s = true → bank ≤ 8 →
    ∃ t, exec (.evcOvfW1c bank b) s = .next t ∧ mapGet 0 t.evc.ovf bank = mapGet 0 s.evc.ovf bank &&& ~~~b
    ∧ (∀ k, k ≠ bank → mapGet 0 t.evc.ovf k = mapGet 0 s.evc.ovf k) ∧ t.evc.counts = s.evc.counts
    ∧ t.evc.sels = s.evc.sels)
  ∧ (∀ (s : State) (bank index : Nat) (v : BitVec 64), bar0Open s = true → bank ≤ 8 → index < 16 →
    selOk bank v.toNat = true → ∃ t, exec (.evcSelWrite bank index 8 v) s = .next t
    ∧ mapGet 0 t.evc.sels (bank * 16 + index) = v ∧ mapGet 0 t.evc.counts (bank * 16 + index) = 0
    ∧ (∀ k, k ≠ bank * 16 + index → mapGet 0 t.evc.sels k = mapGet 0 s.evc.sels k
    ∧ mapGet 0 t.evc.counts k = mapGet 0 s.evc.counts k)
    ∧ mapGet 0 t.evc.ovf bank = mapGet 0 s.evc.ovf bank &&& ~~~(BitVec.ofNat 16 (2 ^ index)))
  ∧ (∀ (s : State), bar0Open s = true →
    exec (.evcClear) s = .next ({ s with evc := { s.evc with counts := [], ovf := [] } }))
  ∧ (∀ (s : State) (on : Bool), bar0Open s = true →
    exec (.evcFreeze on) s = .next ({ s with evc := { s.evc with freeze := on } }))
  ∧ (∀ (s : State) (b : Byte), bar0Open s = true → bar2Open s = true → s.host.filter = [] →
    ∃ t, exec (.bar2Access true 0 1 [b]) s = .next t ∧ t.sens.dgTarget = b.toNat ∧ t.pkg.bytes = s.pkg.bytes
    ∧ t.slots = s.slots ∧ t.es = s.es)
  ∧ (∀ (s : State) (off n : Nat), bar0Open s = true → bar2Open s = false → s.host.filter = [] →
    ∃ t, exec (.bar2Access false off n []) s = .next t ∧ t.out = s.out ++ [.bar2Data (List.replicate n 0) false]
    ∧ t.es = s.es ∧ t.sens = s.sens)
  ∧ (∀ (s : State) (off : Nat) (bs : List Byte), bar0Open s = true → bar2Open s = false → s.host.filter = [] →
    ∃ t, exec (.bar2Access true off bs.length bs) s = .next t ∧ t.es = { s.es with bar2 := satAdd 32 s.es.bar2 1 }
    ∧ t.pkg.bytes = s.pkg.bytes ∧ t.slots = s.slots ∧ t.out = s.out)
  ∧ (∀ (s : State) (v : Nat), bar0Open s = true →
    exec (.registerWrite false 0x7000 4 v) s = .next
      ({ s with es := { s.es with bits := s.es.bits &&& ~~~(BitVec.ofNat 64 (v % 2 ^ 32)) } }))

/-- The accesses that the model stops on (R457, R628): the CXL component registers and the internal-state aperture. -/
def Obligations.RegisterCommandsStop : Prop :=
  (∀ (s : State) (off size v : Nat), bar0Open s = true → 0xA000 ≤ off → off < 0xB000 →
    exec (.registerWrite false off size v) s = .refused .cxlComponentRegister)
  ∧ (∀ (s : State) (w : Bool) (off size : Nat) (bs : List Byte), bar0Open s = true → bar2Open s = true →
    0x10000 ≤ off → s.sens.dgTarget = 3 → bit s.sec.debugScope 0 = true →
    exec (.bar2Access w off size bs) s = .refused .internalStateAperture)
  ∧ (∀ (s : State) (off size v : Nat), bar0Open s = true → bar2Open s = true → 0x10000 ≤ off → s.sens.dgTarget = 3 →
    bit s.sec.debugScope 0 = true → exec (.registerWrite true off size v) s = .refused .internalStateAperture)
  ∧ (∀ (s : State) (off size v : Nat), off < 0x10000 ∨ s.sens.dgTarget ≠ 3 ∨ bit s.sec.debugScope 0 = false →
    ∃ t, exec (.registerWrite true off size v) s = .next t)
  ∧ (∀ (s : State) (off size v : Nat), off < 0xA000 ∨ 0xB000 ≤ off →
    ∃ t, exec (.registerWrite false off size v) s = .next t)
  ∧ (∀ (s : State) (w : Bool) (off size : Nat) (bs : List Byte), off < 0x10000 ∨ s.sens.dgTarget ≠ 3 ∨ bit
      s.sec.debugScope 0 = false → ∃ t, exec (.bar2Access w off size bs) s = .next t)

/-- R484: a busy mailbox ignores writes to its header, payload and doorbell, and sets OVERRUN. -/
def Obligations.BusyMailboxIgnoresWrites : Prop :=
  (∀ (s : State) (mb1 : Bool), bar0Open s = true → (getMb s (mbVia mb1)).busy = true →
    exec (.mbWriteWhileBusy mb1) s = .next (modMb (mbVia mb1) (fun m => { m with overrun := true }) s))
  ∧ (∀ (s : State) (off v : Nat), bar0Open s = true → s.mgmt.mb0.busy = true → off % 4 = 0 → (0x1010 ≤ off
    ∧ off < 0x1020) ∨ (0x2000 ≤ off ∧ off < 0x3000) →
    exec (.registerWrite false off 4 v) s = .next (modMb .mb0 (fun m => { m with overrun := true }) s))
  ∧ (∀ (s : State) (off v : Nat), bar0Open s = true → s.mgmt.mb1.busy = true → off % 4 = 0 → (0x3010 ≤ off
    ∧ off < 0x3020) ∨ (0x4000 ≤ off ∧ off < 0x5000) →
    exec (.registerWrite false off 4 v) s = .next (modMb .mb1 (fun m => { m with overrun := true }) s))
  ∧ (∀ (s : State) (mb1 : Bool) (v : Nat), bar0Open s = true → (getMb s (mbVia mb1)).busy = true → bit v 0 = true →
    exec (.registerWrite false (if mb1 then 0x3000 else 0x1000) 4 v) s = .next (modMb (mbVia mb1) (fun m =>
      { m with overrun := true, intEn := bit v 1 }) s))
  ∧ (∀ (c : Instr) (code via states : Nat) (auth claim : Bool) (q : Req) (f : State →
    Answer) (s : State), served s q.via = true → s.mgmt.resuming = false → q.via ≠ .mbm →
    (getMb s q.via).busy = true →
    mailbox c code via states auth claim q f s = modMb q.via (fun m => { m with overrun := true }) s)

/-- Identity, attestation, session and claim complete (R491, R559 to R569). -/
def Obligations.IdentityCommandsComplete : Prop :=
  (∀ (s : State) (q : Req), MailRuns s q v0M1 (sAll + sS) false false → ∃ t, exec (.identify q) s = .next t
    ∧ Answered t q 0x0101 stSuccess (identifyBytes s) ∧ t.sec.claimed = s.sec.claimed ∧ t.life = s.life)
  ∧ (∀ (s : State) (q : Req) (i off : Nat), MailRuns s q v0M sAll false false → i ≤ 3 → off ≤ Config.certLength i →
    ∃ t, exec (.certRead q i off) s = .next t ∧ Answered t q 0x0102 stSuccess (certPiece i off s)
    ∧ t.sec.claimed = s.sec.claimed ∧ t.life = s.life)
  ∧ (∀ (s : State) (q : Req) (nonce mask : Nat), MailRuns s q v0M sUCNRF false false → mask < 256 →
    ∃ t, exec (.attest q nonce mask) s = .next t
    ∧ Answered t q 0x0103 stSuccess (reportBody nonce mask s ++ fit 3309 (Config.mldsaSign (akSeed s) (reportBody
      nonce mask s))) ∧ t.sec.meas = s.sec.meas ∧ t.life = s.life)
  ∧ (∀ (s : State) (q : Req) (pk ek : Nat) (ok : Bool), MailRuns s q vMb0 sU false false →
    ∃ t, exec (.sessionOpen q 0 pk ek ok) s = .next t ∧ Answered t q 0x0201 stSuccess []
    ∧ t.sec.offer = some (pk, ek) ∧ t.sec.pendingSession = none ∧ t.life = s.life)
  ∧ (∀ (s : State) (q : Req) (pk ek a b : Nat), MailRuns s q vMb0 sU false false → q.trailer = none →
    s.sec.offer = some (pk, ek) → ∃ t, exec (.sessionOpen q 1 a b true) s = .next t
    ∧ Answered t q 0x0201 stSuccess (le 8 (newSession pk ek s).1.id ++ (newSession pk ek s).2.1) ∧ t.sec.offer = none
    ∧ t.sec.pendingSession = some (newSession pk ek s).1 ∧ t.sec.draws = s.sec.draws + 2)
  ∧ (∀ (s : State) (q : Req) (x : Session) (tr : Trailer) (policy nfw : Nat) (allow : List Nat), MailRuns s q vMb0 sU
      true true → s.sec.pendingSession = some x → q.trailer = some tr → nfw ≤ 4 → policy < 4 →
    (allow.drop nfw).all (· == 0) = true → s.mgmt.bg.bist = none →
    ∃ t, exec (.tenantClaim q x.id policy nfw allow) s = .next t
    ∧ Answered t q 0x0202 stSuccess (le 2 (epochAfter s.sec.epoch)) ∧ t.sec.claimed = true
    ∧ t.sec.session = some { x with counter := tr.counter } ∧ t.sec.pendingSession = none
    ∧ t.sec.epoch = epochAfter s.sec.epoch ∧ t.sec.policy = policy ∧ t.sec.allow = allow.take nfw
    ∧ t.life.state = .claimed)

/-- Release and debug unlock complete (R571, R572, R578). -/
def Obligations.TenancyEndCompletes : Prop :=
  (∀ (s : State) (q : Req) (m2 : Nat) (bad : List Loc), MailRuns s q vMb0 (sC + sNp + sF) true false →
    ∃ t, exec (.tenantRelease q m2 bad) s = .next t ∧ t.sec.session = none ∧ t.sec.claimed = false ∧ (bad = [] →
    measureAgain m2 s = true → Answered t q 0x0203 stSuccess [] ∧ mapGet 0 t.sec.meas 5 = 0 ∧ t.sec.policy = 0
    ∧ t.job = none ∧ t.stepSet = none ∧ t.host.rings = [] ∧ t.host.cqs = [] ∧ t.pkg.bytes = []
    ∧ ∀ i, (getSlot t i).bytes = [] ∧ (getSlot t i).tags = []) ∧ (measureAgain m2 s = false →
    t.mgmt.mb0.ready = false ∧ t.life.cardamomRuns = false))
  ∧ (∀ (s : State) (q : Req) (scope digest m2 : Nat) (bad : List Loc), MailRuns s q vMb0 sU false false → 1 ≤ scope →
    scope ≤ 3 → ∃ t, exec (.debugUnlock q scope Config.serial s.sec.debugCounter digest m2 bad true) s = .next t
    ∧ (bad = [] → measureAgain m2 s = true → Answered t q 0x0204 stSuccess [] ∧ t.sec.debugScope = scope
    ∧ t.sec.debugCounter = s.sec.debugCounter + 1 ∧ t.pkg.bytes = [] ∧ ∀ i, (getSlot t i).bytes = [])
    ∧ (measureAgain m2 s = false → t.mgmt.mb0.ready = false ∧ t.life.cardamomRuns = false))

/-- The firmware commands of the mailboxes complete (R493 to R497). -/
def Obligations.FirmwareMailboxCommandsComplete : Prop :=
  (∀ (s : State) (q : Req), MailRuns s q v0M sAll false false → ∃ t, exec (.fwInfo q) s = .next t
    ∧ Answered t q 0x0301 stSuccess (fwInfoBytes s) ∧ t.mgmt.slotA = s.mgmt.slotA ∧ t.mgmt.slotB = s.mgmt.slotB)
  ∧ (∀ (s : State) (q : Req) (slot size : Nat), MailRuns s q v0M sUCNF false false → slot ≤ 1 → 4096 ≤ size →
    size ≤ 58720256 → (fwSlotOf s slot).state ≠ fwActive → s.mgmt.transfer = none →
    ∃ t, exec (.fwBegin q slot size) s = .next t
    ∧ Answered t q 0x0302 stSuccess (le 2 (s.mgmt.nextTransfer % 2 ^ 16))
    ∧ t.mgmt.transfer = some ⟨fwOwner q.via, s.mgmt.nextTransfer % 2 ^ 16, slot, size, 0, 0, 0⟩
    ∧ fwSlotOf t slot = { state := fwReceiving, size := size } ∧ fwSlotOf t (1 - slot) = fwSlotOf s (1 - slot)
    ∧ t.mgmt.flash = s.mgmt.flash.filter (fun kv => kv.1 / slotBytes != slot))
  ∧ (∀ (s : State) (q : Req) (x : Transfer) (bs : List Byte), MailRuns s q v0M sUCNF false false →
    s.mgmt.transfer = some x → (fwSlotOf s x.slot).state = fwReceiving → x.got = 0 ∨ x.lastOff ≠ x.got →
    1 ≤ bs.length → bs.length ≤ 4064 → bs.length = 4064 ∨ x.got + bs.length = x.size → x.got + bs.length ≤ x.size →
    ∃ t, exec (.fwTransfer q x.id x.got bs) s = .next t ∧ Answered t q 0x0303 stSuccess (le 4 (x.got + bs.length))
    ∧ t.mgmt.flash = memWrite s.mgmt.flash (x.slot * slotBytes + x.got) bs
    ∧ t.mgmt.transfer = some { x with got := x.got + bs.length, lastOff := x.got, lastLen := bs.length }
    ∧ (x.got + bs.length = x.size → (fwSlotOf t x.slot).state = fwReceived))
  ∧ (∀ (s : State) (q : Req) (x : Transfer) (version svn : Nat), MailRuns s q v0M sUCNF false false →
    s.mgmt.transfer = some x → (fwSlotOf s x.slot).state = fwReceived → s.mgmt.minSvn ≤ svn →
    ∃ t, exec (.fwVerify q x.id 0 version svn) s = .next t
    ∧ Answered t q 0x0304 stSuccess (le 4 version ++ le 4 svn ++ le 32 (Config.sha3 (imageOf s x.slot)))
    ∧ (fwSlotOf t x.slot).state = fwVerified ∧ (fwSlotOf t x.slot).version = version ∧ (fwSlotOf t x.slot).svn = svn
    ∧ t.mgmt.transfer = none)
  ∧ (∀ (s : State) (q : Req) (x : Transfer) (version svn : Nat), MailRuns s q v0M sUCNF false false →
    s.mgmt.transfer = some x → (fwSlotOf s x.slot).state = fwReceived → svn < s.mgmt.minSvn →
    ∃ t, exec (.fwVerify q x.id 0 version svn) s = .next t ∧ Answered t q 0x0304 stVerifyFailed (le 1 3)
    ∧ t.mgmt.slotA = s.mgmt.slotA ∧ t.mgmt.slotB = s.mgmt.slotB)
  ∧ (∀ (s : State) (q : Req) (slot : Nat), MailRuns s q v0M sUCNF false false → slot ≤ 1 →
    (fwSlotOf s slot).state = fwVerified ∨ (fwSlotOf s slot).state = fwPending →
    ∃ t, exec (.fwActivate q slot 0) s = .next t ∧ Answered t q 0x0305 stSuccess []
    ∧ ((fwSlotOf s slot).state = fwVerified → (fwSlotOf t slot).state = fwPending)
    ∧ ((fwSlotOf s slot).state = fwPending → (fwSlotOf t slot).state = fwVerified) ∧ t.life = s.life)
  ∧ (∀ (s : State) (q : Req) (slot : Nat), MailRuns s q v0M (sU + sNm + sF) false false → slot ≤ 1 →
    (fwSlotOf s slot).state = fwVerified → ∃ t, exec (.fwActivate q slot 1) s = .next t
    ∧ Answered t q 0x0305 stSuccess [] ∧ t.life.rcLevel = 2 ∧ t.life.rcCause = 8)
  ∧ (∀ (s : State) (q : Req) (x : Transfer), MailRuns s q v0M sUCNF false false → s.mgmt.transfer = some x →
    (fwSlotOf s x.slot).state = fwReceiving ∨ (fwSlotOf s x.slot).state = fwReceived →
    ∃ t, exec (.fwCancel q x.id) s = .next t ∧ Answered t q 0x0306 stSuccess [] ∧ t.mgmt.transfer = none
    ∧ fwSlotOf t x.slot = {})

/-- The management sideband completes (R498 to R501; the assignable endpoint ids and the reply's form are the model's,
logs 64 and 65). -/
def Obligations.SidebandCommandsComplete : Prop :=
  (∀ (s : State) (a : Nat), s.life.state ≠ .off → s.mgmt.dynAddr = 0 →
    exec (.entdaa a) s = .next ({ s with mgmt := { s.mgmt with dynAddr := a % 128 } }))
  ∧ (∀ (s : State) (a : Nat), s.life.state ≠ .off → s.mgmt.dynAddr = 0 →
    exec (.setdasa (0x30 + s.life.pos) a) s = .next ({ s with mgmt := { s.mgmt with dynAddr := a % 128 } }))
  ∧ (∀ (s : State) (e : Nat), s.mgmt.dynAddr ≠ 0 → s.mgmt.mb0.ready = true → 8 ≤ e → e < 255 →
    exec (.setEndpointId e) s = .next ({ s with mgmt := { s.mgmt with eid := e } }))
  ∧ (∀ (s : State) (c : Nat), pldmServed s = true → ∃ t, exec (.pldmBaseRequest c) s = .next t
    ∧ (∃ v, t.out = s.out ++ [.pldmReply [c, v]]) ∧ t.life = s.life)
  ∧ (∀ (s : State) (n : Nat), pldmServed s = true → 1 ≤ n → n ≤ 15 →
    exec (.pldmSensorRequest n) s = .next ({ s with out := s.out ++ [.pldmReply [n, sensorValue s n]] }))
  ∧ (∀ (s : State) (e : Nat), pldmServed s = true →
    exec (.setEventReceiver e) s = .next ({ s with mgmt := { s.mgmt with eventReceiver := some e } }))
  ∧ (∀ (s : State) (slot size : Nat), pldmServed s = true → stateAccepts s sUCNF = true → slot ≤ 1 → 4096 ≤ size →
    size ≤ 58720256 → (fwSlotOf s slot).state ≠ fwActive → s.mgmt.transfer = none →
    ∃ t, exec (.requestUpdate slot size) s = .next t
    ∧ t.mgmt.transfer = some ⟨2, s.mgmt.nextTransfer % 2 ^ 16, slot, size, 0, 0, 0⟩
    ∧ fwSlotOf t slot = { state := fwReceiving, size := size } ∧ t.out = s.out ++ [.pldmReply [0]])
  ∧ (∀ (s : State) (x : Transfer) (bs : List Byte) (version svn : Nat), pldmServed s = true →
    stateAccepts s sUCNF = true → s.mgmt.transfer = some x → x.owner = 2 → (fwSlotOf s x.slot).state = fwReceiving →
    x.got = 0 ∨ x.lastOff ≠ x.got → 1 ≤ bs.length → bs.length ≤ 1024 →
    bs.length = 1024 ∨ x.got + bs.length = x.size → x.got + bs.length ≤ x.size → s.mgmt.minSvn ≤ svn →
    ∃ t, exec (.requestFirmwareData x.got bs 0 version svn) s = .next t
    ∧ t.mgmt.flash = memWrite s.mgmt.flash (x.slot * slotBytes + x.got) bs
    ∧ t.mgmt.transfer = some { x with got := x.got + bs.length, lastOff := x.got, lastLen := bs.length }
    ∧ (x.got + bs.length = x.size → (fwSlotOf t x.slot).state = fwVerified ∧ t.out = s.out ++ [.pldmReply [0]]))
  ∧ (∀ (s : State) (x : Transfer), pldmServed s = true → stateAccepts s sUCNF = true → s.mgmt.transfer = some x →
    x.owner = 2 → (fwSlotOf s x.slot).state = fwVerified → ∃ t, exec (.activateFirmware false) s = .next t
    ∧ (fwSlotOf t x.slot).state = fwPending ∧ t.mgmt.transfer = none ∧ t.out = s.out ++ [.pldmReply [0]])
  ∧ (∀ (s : State) (x : Transfer), pldmServed s = true → stateAccepts s sUCNF = true → s.mgmt.transfer = some x →
    x.owner = 2 → (fwSlotOf s x.slot).state = fwReceiving → ∃ t, exec (.cancelUpdate) s = .next t
    ∧ fwSlotOf t x.slot = {} ∧ t.mgmt.transfer = none ∧ t.out = s.out ++ [.pldmReply [0]])

/-- The status commands of the mailboxes complete (R491, R500, R516, R517, R534 to R536, R539, R623 to R626). -/
def Obligations.StatusCommandsComplete : Prop :=
  (∀ (s : State) (q : Req), MailRuns s q v0M1 (sAll + sS) false false → ∃ t, exec (.healthStatus q) s = .next t
    ∧ Answered t q 0x0701 stSuccess (healthBytes s) ∧ t.integ = s.integ ∧ t.es = s.es)
  ∧ (∀ (s : State) (q : Req) (first : Nat), MailRuns s q v0M1 sAll false false →
    ∃ t, exec (.logRead q 1 0 first) s = .next t
    ∧ Answered t q 0x0702 stSuccess (layout 16 [(0, 4, s.integ.log1.length), (4, 4, mapGet 0 s.integ.log0Over 101),
      (8, 4, 0)] ++ ((s.integ.log1.drop first).take 127).flatMap logBytes) ∧ t.integ = s.integ)
  ∧ (∀ (s : State) (q : Req), MailRuns s q v0M sUCNF false false → ∃ t, exec (.logClear q 1 0) s = .next t
    ∧ Answered t q 0x0703 stSuccess [] ∧ t.integ.log1 = [] ∧ mapGet 0 t.integ.log0Over 101 = 0
    ∧ t.integ.lasting = s.integ.lasting ∧ t.integ.log0 = s.integ.log0 ∧ t.integ.log3 = s.integ.log3)
  ∧ (∀ (s : State) (q : Req) (bank index : Nat) (v : BitVec 64), MailRuns s q vMb0 (sU + sC + sN) false false →
    bank ≤ 8 → index < 16 → selOk bank v.toNat = true → ∃ t, exec (.counterConfig q bank index v) s = .next t
    ∧ Answered t q 0x0704 stSuccess [] ∧ mapGet 0 t.evc.sels (bank * 16 + index) = v)
  ∧ (∀ (s : State) (q : Req) (first n : Nat), MailRuns s q v0M sUCNRF false false → 1 ≤ n → first + n ≤ 144 →
    ∃ t, exec (.counterRead q first n) s = .next t
    ∧ Answered t q 0x0705 stSuccess ((List.range n).flatMap (fun i => le 8 (counterValue s (first + i))))
    ∧ t.evc.sels = s.evc.sels)
  ∧ (∀ (s : State) (q : Req), MailRuns s q v0M sUCNRF false false → ∃ t, exec (.scrubStatus q) s = .next t
    ∧ Answered t q 0x0706 stSuccess (tileList.flatMap (scrubRecord s)) ∧ t.slots = s.slots)
  ∧ (∀ (s : State) (q : Req) (h : Nat), MailRuns s q vMb0 (sU + sC) false false → 1 ≤ h → h ≤ 168 →
    ∃ t, exec (.scrubConfig q h) s = .next t ∧ Answered t q 0x0707 stSuccess [] ∧ t.pkg.lapHours = h
    ∧ t.pkg.bytes = s.pkg.bytes)
  ∧ (∀ (s : State) (q : Req), MailRuns s q v0M sAll false false → ∃ t, exec (.telemetryRead q) s = .next t
    ∧ Answered t q 0x0708 stSuccess (telemetryBytes s) ∧ t.sens = s.sens)
  ∧ (∀ (s : State) (q : Req), MailRuns s q v01 sUCNRF false false → (q.via = .mb1 ∨ opsInFlight s = false) →
    ∃ t, exec (.recoveryCollect q) s = .next t ∧ (∃ n, Answered t q 0x0801 stSuccess (le 8 dumpBase ++ le 4 n))
    ∧ t.life.rcDumpState = 2 ∧ t.life.rcDumpBy = (q.via == .mb1).toNat)
  ∧ (∀ (s : State) (q : Req), MailRuns s q v01 sUCNRF false false → q.via ≠ .mb1 → opsInFlight s = true →
    ∃ t, exec (.recoveryCollect q) s = .next t ∧ t.life.rcDumpState = 1
    ∧ t.mgmt.executing = .collect q (s.life.aonNs + 1000000) ∧ (getMb t q.via).busy = true
    ∧ (∀ tile, tileHeld t tile = true))

/-- The reset, standby and test commands of the mailboxes complete (R491, R507, R529, R531, R533, R544, R582). -/
def Obligations.ResetAndTestCommandsComplete : Prop :=
  (∀ (s : State) (q : Req), MailRuns s q v0M1 sUCNRF false false → ∃ t, exec (.resetCore q) s = .next t
    ∧ Answered t q 0x0802 stSuccess [] ∧ t.life.rcLevel = 1 ∧ t.life.rcCause = coreCause q.via
    ∧ t.life.boot = .coreCardamom ∧ t.life.state = .recovering)
  ∧ (∀ (s : State) (q : Req), MailRuns s q v0M1 (sAll + sS) false false → ∃ t, exec (.resetModule q) s = .next t
    ∧ Answered t q 0x0803 stSuccess [] ∧ t.life.rcLevel = 2 ∧ t.life.rcCause = 6)
  ∧ (∀ (s : State) (q : Req), MailRuns s q v01 (sU + sF) false false → ∃ t, exec (.standbyEnter q) s = .next t
    ∧ Answered t q 0x0804 stSuccess [] ∧ t.life.state = .standby ∧ t.life.hbStage = 5)
  ∧ (∀ (s : State) (q : Req), MailRuns s q vMb1 sS false false → s.sens.tripped = false →
    ∃ t, exec (.standbyExit q) s = .next t ∧ Answered t q 0x0805 stSuccess [] ∧ t.life.boot = .coreCardamom
    ∧ t.life.hbStage = 2)
  ∧ (∀ (s : State) (q : Req) (pos level : Nat), MailRuns s q v0M sUCNF false false → isMaster s = true → 1 ≤ pos →
    pos ≤ 3 → level ≤ 1 → ∃ t, exec (.cascadeReset q pos level) s = .next t ∧ Answered t q 0x0806 stSuccess []
    ∧ (∃ rest, t.out = s.out ++ cascadeOut 6 (cfAddr pos 0 false) [level] :: rest))
  ∧ (∀ (s : State) (q : Req) (tile unit : Nat) (mask : List Byte), MailRuns s q vMb0 (sU + sNm + sF) false false →
    tile < 8 → unit < 256 → mask.length = 33 → ∃ t, exec (.testFlipmask q true tile unit mask) s = .next t
    ∧ Answered t q 0x0901 stSuccess [] ∧ mapGet 0 (getSlot t tile).flips unit = 1 + ofBytes mask)
  ∧ (∀ (s : State) (q : Req) (tile unit : Nat) (mask : List Byte), MailRuns s q vMb0 (sU + sNm + sF) false false →
    tile < 8 → unit < 64 → mask.length = 72 → ∃ t, exec (.testFlipmask q false tile unit mask) s = .next t
    ∧ Answered t q 0x0901 stSuccess [] ∧ (getMc t tile unit).flip = 1 + ofBytes mask)
  ∧ (∀ (s : State) (q : Req) (tiles memory patterns : Nat), MailRuns s q v0M (sU + sNm + sF) false false →
    tiles ≠ 0 → tiles < 256 → memory ≠ 0 → memory < 4 → patterns < 2 → s.mgmt.bg.bist = none →
    ∃ t, exec (.testBist q tiles memory patterns) s = .next t ∧ Answered t q 0x0902 stInProgress []
    ∧ t.mgmt.bg.bist = some (q.via, tiles, memory, patterns) ∧ (mapGet {} t.integ.records 2).status = 1)
  ∧ (∀ (s : State) (q : Req) (mask : Nat), MailRuns s q vMb0 (sU + sNm) false false → mask ≠ 0 → mask < 1024 →
    s.mgmt.bg.loopback = none → ∃ t, exec (.testLoopback q false mask) s = .next t
    ∧ Answered t q 0x0903 stInProgress [] ∧ t.mgmt.bg.loopback = some (q.via, false, mask)
    ∧ (mapGet {} t.integ.records 3).status = 1)
  ∧ (∀ (s : State) (q : Req) (n : Nat), MailRuns s q v0M sAll false false → 1 ≤ n → n ≤ 4 →
    ∃ t, exec (.testResult q n) s = .next t
    ∧ Answered t q 0x0904 stSuccess (resultBytes n (mapGet {} s.integ.records n)) ∧ t.integ = s.integ)

/-- The integrity unit's events complete (R515 to R533). -/
def Obligations.IntegrityCommandsComplete : Prop :=
  (∀ (s : State) (tile chan : Nat), scrubs s = true → tile < 8 → chan < 64 →
    (getMc s tile chan).scrubPos + 1 < 2 ^ 24 →
    mapGet false s.pkg.poison (tile * 2 ^ 30 + chan * 2 ^ 24 + (getMc s tile chan).scrubPos) = false →
    mapGet 0 s.pkg.errors (tile * 2 ^ 30 + chan * 2 ^ 24 + (getMc s tile chan).scrubPos) = 0 →
    mcFree s tile chan = true → cached s (tile * 2 ^ 30 + chan * 2 ^ 24 + (getMc s tile chan).scrubPos) = false →
    ∃ t, exec (.pkgScrub tile chan) s = .next t ∧ (getMc t tile chan).scrubPos = (getMc s tile chan).scrubPos + 1
    ∧ t.pkg.bytes = s.pkg.bytes ∧ t.pkg.poison = s.pkg.poison ∧ t.es = s.es)
  ∧ (∀ (s : State) (tile chan c : Nat), scrubs s = true → tile < 8 → chan < 64 →
    (getMc s tile chan).scrubPos + 1 < 2 ^ 24 → c = tile * 2 ^ 30 + chan * 2 ^ 24 + (getMc s tile chan).scrubPos →
    mapGet false s.pkg.poison c = false → mapGet 0 s.pkg.errors c = 0 → mcFree s tile chan = true →
    cached s c = true → (∀ u ∈ s.pkg.under, u.1 ≠ c) → ∃ t, exec (.pkgScrub tile chan) s = .next t
    ∧ (getMc t tile chan).scrubPos = (getMc s tile chan).scrubPos + 1
    ∧ memRead t.pkg.bytes (c * 64) 64 = memRead s.pkg.bytes (c * 64) 64 ∧ mapGet false t.pkg.poison c = false
    ∧ t.pkg.cache = s.pkg.cache)
  ∧ (∀ (s : State) (tile : Nat), scrubs s = true → tile < 8 → (getSlot s tile).scrubPos + 1 < 2097152 →
    mapGet 0 (getSlot s tile).errors (2 * (getSlot s tile).scrubPos) = 0 →
    mapGet 0 (getSlot s tile).errors (2 * (getSlot s tile).scrubPos + 1) = 0 →
    mapGet 0 (getSlot s tile).tagErrors ((getSlot s tile).scrubPos / 64) = 0 →
    ∃ t, exec (.slotScrub tile) s = .next t ∧ (getSlot t tile).scrubPos = (getSlot s tile).scrubPos + 1
    ∧ (getSlot t tile).bytes = (getSlot s tile).bytes ∧ (getSlot t tile).tags = (getSlot s tile).tags)
  ∧ (∀ (s : State) (tile : Nat), scrubs s = true → tile < 8 → (getSlot s tile).scrubOverdue = false →
    ∃ t, exec (.scrubLapOverdue tile true) s = .next t ∧ (getSlot t tile).scrubOverdue = true
    ∧ bit t.es.bits.toNat 15 = true)
  ∧ (∀ (s : State) (loc : Loc) (x : SelfTest), s.integ.tests.find? (fun y => y.loc == loc) = some x →
    mayTest s x = true → ∃ t, exec (.targetedSelfTest loc ⟨0, 0⟩) s = .next t ∧ t.integ.tests = s.integ.tests.erase x
    ∧ t.integ.health = s.integ.health ∧ t.integ.lasting = s.integ.lasting ∧ t.pkg.bytes = s.pkg.bytes)
  ∧ (∀ (s : State) (loc : Loc) (x : SelfTest) (r : TestReads), s.integ.tests.find? (fun y => y.loc == loc) = some x →
    mayTest s x = true → r.second = 2 → ∃ t, exec (.targetedSelfTest loc r) s = .next t ∧ t.integ.health = .failed
    ∧ t.life.state = .failed)
  ∧ (∀ (s : State) (loc : Loc) (x : SelfTest), s.integ.tests = [x] → x.loc = loc →
    ∃ t, exec (.selfTestPromote loc) s = .next t ∧ t.integ.tests = [{ x with promoted := true }]
    ∧ t.integ.log0 = s.integ.log0)
  ∧ (∀ (s : State) (w : WeightBlock) (p : WeightParams) (bs : List Byte) (rs : List TestReads), s.life.cardamomRuns =
      true → s.integ.reloading.find? (fun x => !x.lost) = some w → weightRegion s w.region = some p → p.source ≠ 2 →
    s.host.filter = [] → ∃ t, exec (.weightBlockReload bs false true rs) s = .next t
    ∧ t.integ.reloading = s.integ.reloading.map (fun x => if x.region == w.region && x.block == w.block then
      { x with lost := true } else x))
  ∧ (∀ (s : State) (w : WeightBlock) (p : WeightParams) (bs : List Byte) (rs : List TestReads), s.life.cardamomRuns =
      true → s.integ.reloading.find? (fun x => !x.lost) = some w → weightRegion s w.region = some p → p.source ≠ 2 →
    s.host.filter = [] → bs.length = 65536 → ∃ t, exec (.weightBlockReload bs true true rs) s = .next t
    ∧ (∀ d s1, pkgRead 1 1 (p.digests + 32 * w.block) 32 (pkgWrite 1 1 (p.base + 65536 * w.block) bs false
      (clearTouch s)) = ((d, false), s1) → Config.sha3 bs = ofBytes d → w.bad = [] →
    ∀ x ∈ t.integ.reloading, ¬(x.region = w.region ∧ x.block = w.block)))
  ∧ (∀ (s : State) (via : Via) (tiles memory patterns el : Nat), s.life.boot ≠ .bist →
    s.mgmt.bg.bist = some (via, tiles, memory, patterns) → ∃ t, exec (.bistComplete [] el) s = .next t
    ∧ mapGet {} t.integ.records 2 = { status := 2, elapsed := el } ∧ t.mgmt.bg.bist = none ∧ (via = .mb0 →
    t.mgmt.mb0.event = true))
  ∧ (∀ (s : State) (via : Via) (board : Bool) (mask el : Nat), s.mgmt.bg.loopback = some (via, board, mask) →
    ∃ t, exec (.loopbackComplete board [] [] el) s = .next t
    ∧ (mapGet {} t.integ.records (if board then 4 else 3)).status = 2 ∧ t.mgmt.bg.loopback = none ∧ (via = .mb0 →
    t.mgmt.mb0.event = true))

/-- The store commands of MB0 complete (R81, R244, R245, R352, R363, R460, R461, R467, R468, R491, R525). -/
def Obligations.StoreCommandsComplete : Prop :=
  (∀ (s : State) (q : Req) (l : List RegionEntry), MailRuns s q vMb0 sC false false → tableStatus l = stSuccess →
    placementBusy s = false → ∃ t, exec (.regionSet q l) s = .next t ∧ Answered t q 0x0401 stSuccess []
    ∧ (∀ i, i < 512 → regionOf t i = l.getD i regionNone) ∧ t.pkg.bytes = s.pkg.bytes)
  ∧ (∀ (s : State) (q : Req), MailRuns s q vMb0 (sC + sNp) false false → ∃ t, exec (.regionRead q) s = .next t
    ∧ Answered t q 0x0402 stSuccess (regionBytes s) ∧ t.pkg.regions = s.pkg.regions)
  ∧ (∀ (s : State) (q : Req) (n : Nat), MailRuns s q vMb0 sC false false → ideSecure s = true → n ≤ 2048 →
    s.host.hdmCommitted = false → ∃ t, exec (.hdmSizeSet q n) s = .next t ∧ Answered t q 0x0403 stSuccess []
    ∧ t.host.hdmUnits = n)
  ∧ (∀ (s : State) (q : Req) (r : RingParams), MailRuns s q vMb0 sC false false → ideSecure s = true →
    ringShape r = true → r.cq < 64 → (getCq s r.cq).state = .active → (getRing s r.ring).state = .none →
    ∃ t, exec (.ringCreate q r) s = .next t ∧ Answered t q 0x0404 stSuccess []
    ∧ getRing t r.ring =
      { state := .active, base := r.base, entries := r.entries, tailAddr := r.lineAddr, cq := r.cq }
    ∧ t.host.d2h = s.host.d2h ++ [(s.host.nextD2h, .tailLine r.ring)])
  ∧ (∀ (s : State) (q : Req) (n : Nat), MailRuns s q vMb0 (sC + sNp) false false → n < 64 →
    (getRing s n).state ≠ .none → ringIdle s n = true → ∃ t, exec (.ringDestroy q n) s = .next t
    ∧ Answered t q 0x0405 stSuccess (le 8 (getRing s n).prog) ∧ getRing t n = {})
  ∧ (∀ (s : State) (q : Req) (r : RingParams), MailRuns s q vMb0 sC false false → ideSecure s = true →
    ringShape r = true → 3 ≤ r.vector → r.vector ≤ 63 → r.moderation ≤ 1000 → (getCq s r.ring).state = .none →
    ∃ t, exec (.cqCreate q r) s = .next t ∧ Answered t q 0x0406 stSuccess []
    ∧ getCq t r.ring =
      { state := .active, base := r.base, entries := r.entries, headAddr := r.lineAddr, vector := r.vector, moderation := r.moderation }
    ∧ t.host.d2h = s.host.d2h ++ [(s.host.nextD2h, .headLine r.ring)])
  ∧ (∀ (s : State) (q : Req) (n : Nat), MailRuns s q vMb0 (sC + sNp) false false → n < 64 →
    (getCq s n).state ≠ .none → cqNamed s n = false → cqIdle s n = true → ∃ t, exec (.cqDestroy q n) s = .next t
    ∧ Answered t q 0x0407 stSuccess [] ∧ getCq t n = {})
  ∧ (∀ (s : State) (q : Req) (p : PoolParams), MailRuns s q vMb0 sC false false → namesJob s p.job = true →
    poolOk p = true → s.stepSet = none → ∃ t, exec (.kvPoolConfig q p) s = .next t ∧ Answered t q 0x0408 stSuccess []
    ∧ t.fennel.pool = some p ∧ t.fennel.committed = s.cond.committed)
  ∧ (∀ (s : State) (q : Req) (tile first n : Nat), MailRuns s q vMb0 (sC + sNp) false false → tile < 8 →
    first + n ≤ 32768 → (List.range n).all (fun i => !opClaims s tile (first + i)) = true →
    ∃ t, exec (.slotRelease q tile first n) s = .next t ∧ Answered t q 0x0409 stSuccess [] ∧ (∀ i, i < n →
    getTag t tile (first + i) = tagEmpty))
  ∧ (∀ (s : State) (q : Req) (share th : Nat), MailRuns s q vMb0 (sU + sC) false false → 32 ≤ share → share ≤ 64 →
    1 ≤ th → th ≤ 16 → ∃ t, exec (.memArbSet q share th) s = .next t ∧ Answered t q 0x040A stSuccess []
    ∧ t.pkg.share = share ∧ t.pkg.threshold = th ∧ t.pkg.bytes = s.pkg.bytes)
  ∧ (∀ (s : State) (q : Req) (ms : Nat), MailRuns s q vMb0 (sU + sC) false false → 1 ≤ ms → ms ≤ 250 →
    ∃ t, exec (.hostTimeoutSet q ms) s = .next t ∧ Answered t q 0x040B stSuccess [] ∧ t.host.timeoutMs = ms)
  ∧ (∀ (s : State) (q : Req) (w : WeightParams), MailRuns s q vMb0 sC false false → weightOk w s = true →
    w.source ≠ 0 → s.integ.reloading = [] → ∃ t, exec (.weightRegionSet q w) s = .next t
    ∧ Answered t q 0x040C stSuccess [] ∧ weightRegion t w.index = some w)

/-- The host link's commands complete (R454, R455, R461 to R465, R570). -/
def Obligations.HostLinkCommandsComplete : Prop :=
  (∀ (s : State) (w r : Nat) (f : Bool), s.life.state ≠ .off → s.life.boot ≠ .waitRamp → s.life.boot ≠ .waitRelease →
    ∃ t, exec (.cxlLinkTrained w r f) s = .next t ∧ t.host.trained = true
    ∧ t.host.narrow = (decide (w < 16) || decide (r < 64) || !f))
  ∧ (∀ (s : State), s.host.trained = true → ∃ t, exec (.cxlLinkDown) s = .next t ∧ t.host.trained = false
    ∧ t.host.ide = [] ∧ t.host.filter = [] ∧ (linkResets s = true → t.life.rcLevel = 1 ∧ t.life.rcCause = 5
    ∧ t.life.boot = .coreCardamom))
  ∧ (∀ (s : State), (mapGet {} s.host.ide 0).secure = true ∨ (mapGet {} s.host.ide 1).secure = true →
    ∃ t, exec (.ideIntegrityFailure) s = .next t ∧ t.host.trained = false ∧ t.host.ide = [] ∧ (linkResets s = false →
    bit t.es.bits.toNat 12 = true) ∧ (linkResets s = true → t.life.rcLevel = 1 ∧ t.life.rcCause = 5))
  ∧ (∀ (s : State) (b : Nat), s.host.hdmCommitted = false → s.host.hdmUnits ≠ 0 → b % 2 ^ 28 = 0 →
    exec (.hdmDecoderCommit b) s = .next
      ({ s with host := { s.host with hdmCommitted := true, hdmError := false, hdmBase := b } }))
  ∧ (∀ (s : State) (off : Nat) (c : Bool), hdmAnswers s (64 * (off / 64)) 64 = true →
    foldHeld s (64 * (off / 64)) 64 = false → s.host.filter = [] → ∃ t, exec (.hdmRead off c) s = .next t
    ∧ (∃ pre, t.out = pre ++ [.h2dData (64 * (off / 64)) (readCw 1 0 (64 * (off / 64)) s).1.1 (readCw 1 0 (64 * (off
      / 64)) s).1.2]) ∧ t.host.filter = (if c then [off / 64] else []))
  ∧ (∀ (s : State) (off : Nat) (bs : List Byte) (p : Bool), hdmAnswers s off 64 = true → off % 64 = 0 →
    bs.length = 64 → foldHeld s off 64 = false → (∀ l ∈ cacheSet s (cwOf s off), l.err < 2) →
    ∃ t, exec (.hdmWrite off bs p) s = .next t ∧ memRead t.pkg.bytes (cwOf s off * 64) 64 = bs
    ∧ mapGet false t.pkg.poison (cwOf s off) = p ∧ (∀ c, c ≠ cwOf s off →
    mapGet false t.pkg.poison c = mapGet false s.pkg.poison c) ∧ (∀ a, a / 64 ≠ cwOf s off →
    memGet t.pkg.bytes a = memGet s.pkg.bytes a))
  ∧ (∀ (s : State) (line : Nat), mapGet 0 s.host.dirty line = 2 → ∃ t, exec (.bisnpResponse line []) s = .next t
    ∧ mapGet 0 t.host.dirty line = 0 ∧ t.host.filter = s.host.filter.filter (· != line) ∧ t.pkg = s.pkg)
  ∧ (∀ (s : State) (x : Session) (st dir sub ks rf : Nat), s.sec.session = some x → st < 2 → dir < 2 → sub < 8 →
    ks < 2 → rf < 256 → ∃ t, exec (.keyProg st dir sub ks rf (ideKey x.secret st dir sub ks rf)) s = .next t
    ∧ t.out = s.out ++ [.keyAck true]
    ∧ mapGet 0 (mapGet {} t.host.ide st).keys (ks * 16 + dir * 8 + sub) = ideKey x.secret st dir sub ks rf + 1
    ∧ (mapGet {} t.host.ide st).refresh = rf)
  ∧ (∀ (s : State) (st ks : Nat), st < 2 → ks < 2 → keysReady (mapGet {} s.host.ide st) ks = true →
    ∃ t, exec (.kSetGo st ks) s = .next t ∧ (mapGet {} t.host.ide st).secure = true
    ∧ (mapGet {} t.host.ide st).keySet = ks)

/-- The rings' commands complete (R27, R57, R111, R115, R155, R458 to R472, R619). -/
def Obligations.RingCommandsComplete : Prop :=
  (∀ (s : State) (n : Nat), (getRing s n).state ≠ .none → (getRing s n).watched = true →
    ∃ t, exec (.snpinv false n) s = .next t ∧ (getRing t n).watched = false ∧ t.host.wakes = s.host.wakes + 1
    ∧ t.out = s.out ++ [.d2h s.host.nextD2h d2hRdShared (getRing s n).tailAddr []]
    ∧ t.host.d2h = s.host.d2h ++ [(s.host.nextD2h, .tailLine n)])
  ∧ (∀ (s : State) (n : Nat) (d : DescSlot), nextDesc s n = some d → wdKind d = 1 → wdOk d = true →
    s.life.state = .claimed → ∃ t, exec (.task n) s = .next t
    ∧ (getTile t (wdF d 2 1)).queue = (getTile s (wdF d 2 1)).queue ++ [⟨wdF d 8 8, .ring n d.index⟩] ∧ t.pkg = s.pkg
    ∧ t.slots = s.slots)
  ∧ (∀ (s : State) (n : Nat) (d : DescSlot), nextDesc s n = some d → wdKind d = 1 → s.life.state = .notReady →
    (getCq s (getRing s n).cq).state = .active → ∃ t, exec (.task n) s = .next t ∧ t.tiles = s.tiles
    ∧ (∃ r, (getCq t (getRing s n).cq).waiting = (getCq s (getRing s n).cq).waiting ++ [r] ∧ r.ring = n
    ∧ r.index = d.index ∧ r.bytes.take 4 = [1, BitVec.ofNat 8 n, 5, 0]))
  ∧ (∀ (s : State) (n : Nat) (d : DescSlot), nextDesc s n = some d → wdKind d = 0x10 → wdOk d = true →
    s.life.state = .claimed → newSeqStatus (newSeqOf n d) (learnMembers (takeDesc n d.index s)) = upAccepted →
    ∃ t, exec (.seqNew n) s = .next t ∧ (getSeq t (wdF d 20 2)).state = .prefill
    ∧ (getSeq t (wdF d 20 2)).remaining = wdF d 16 4 ∧ (getSeq t (wdF d 20 2)).promptAddr = wdF d 8 8
    ∧ (getSeq t (wdF d 20 2)).hostId = wdF d 24 4 ∧ (getSeq t (wdF d 20 2)).lastDesc = d.index)
  ∧ (∀ (s : State) (n : Nat) (d : DescSlot), nextDesc s n = some d → wdKind d = 0x11 → wdOk d = true →
    s.life.state = .claimed → takesUpdates s = true → isLive (getSeq s (wdF d 20 2)) = true →
    ∃ t, exec (.seqFinish n) s = .next t ∧ (getSeq t (wdF d 20 2)).state = .ending
    ∧ (getSeq t (wdF d 20 2)).endStatus = 1 ∧ t.cond.notices = s.cond.notices ++ [⟨1, 0, wdF d 20 2, 0⟩])
  ∧ (∀ (s : State) (n : Nat) (d : DescSlot), nextDesc s n = some d → wdKind d = 0x12 → wdOk d = true →
    s.life.state = .claimed → takesUpdates s = true → isLive (getSeq s (wdF d 20 2)) = true →
    ∃ t, exec (.seqSample n) s = .next t ∧ (getSeq t (wdF d 20 2)).sample = wdF d 22 2
    ∧ (getSeq t (wdF d 20 2)).state = (getSeq s (wdF d 20 2)).state)
  ∧ (∀ (s : State) (c : Nat) (r : Record) (rs : List Record), s.life.boot = .done → s.life.linkLost = false →
    (getCq s c).waiting = r :: rs → (getCq s c).state = .active → (getCq s c).writing = none →
    cqKeep s c r.kind < cqFree (getCq s c) → ∃ t, exec (.completionRecordWrite c) s = .next t
    ∧ (getCq t c).writing = some (r, 3) ∧ (getCq t c).waiting = rs
    ∧ t.out = s.out ++ [1, 2, 3].map (fun i => .d2h (s.host.nextD2h + (i - 1)) d2hItoMWr ((getCq s c).base + 256 *
      ((getCq s c).written % (getCq s c).entries) + 64 * i) ((r.bytes.drop (64 * i)).take 64)))
  ∧ (∀ (s : State) (id c : Nat) (bs : List Byte), d2hUse s id = some (.headLine c) →
    ∃ t, exec (.d2hReadData id bs) s = .next t ∧ (getCq t c).watched = true ∧ (getCq t c).head = ofBytes (bs.take 8))
  ∧ (∀ (s : State) (id n i : Nat) (bs : List Byte), d2hUse s id = some (.descriptor n i) →
    (getRing s n).state = .active → ∃ t, exec (.d2hReadData id bs) s = .next t
    ∧ (getRing t n).readCount = (getRing s n).readCount + 1
    ∧ (getRing t n).slots = insertDesc ⟨i, bs.take 64, false, false⟩ (getRing s n).slots)
  ∧ (∀ (s : State) (id c : Nat) (r : Record) (k : Nat), d2hUse s id = some (.recordLine0 c) →
    (getCq s c).writing = some (r, k) → ∃ t, exec (.d2hWriteCompletion id) s = .next t ∧ (getCq t c).writing = none
    ∧ (getCq t c).written = (getCq s c).written + 1)
  ∧ (∀ (s : State) (id c : Nat), d2hUse s id = some (.headLine c) → ∃ t, exec (.hostTimeout id) s = .next t
    ∧ (getCq t c).state = .error ∧ (getCq t c).waiting = [])
  ∧ (∀ (s : State) (c : Nat), (getCq s c).modHold = true → ∃ t, exec (.cqModerationExpire c) s = .next t
    ∧ (getCq t c).msgPending = false ∧ ((getCq s c).msgPending = false → (getCq t c).modHold = false)
    ∧ ((getCq s c).msgPending = true → msixMasked s (getCq s c).vector = false →
    t.out = s.out ++ [.msix (getCq s c).vector]))
  ∧ (∀ (s : State), s.host.esHoldoff = true → ∃ t, exec (.esMsixHoldoff) s = .next t ∧ t.host.esPending = false
    ∧ (s.host.esPending = false → t.host.esHoldoff = false) ∧ (s.host.esPending = true → msixMasked s 0 = false →
    t.out = s.out ++ [.msix 0]))

/-- The commands of the optical ports complete (R375, R378, R379, R382 to R394, R400). -/
def Obligations.PortCommandsComplete : Prop :=
  (∀ (s : State) (port ack : Nat) (errs : List (List Nat)) (lanes direct : List Nat), (getPort s port).state = .up →
    errs.all corrects = true → ((getPort s port).badWords.filter (·.lost)).length ≤ 16 →
    rxRoom (getPort s port) lanes = true →
    ∃ t, exec (.linkDataFrame port (getPort s port).rxSeq ack true errs lanes direct) s = .next t
    ∧ (getPort t port).rxSeq = ((getPort s port).rxSeq + 1) % 4096
    ∧ (getPort t port).rxLane = rxWith (getPort s port) lanes
    ∧ (∃ pre, t.out = pre ++ [.linkFrame port 1 (getPort s port).rxSeq ((getPort s port).rxSeq % 4096) []])
    ∧ t.pkg = s.pkg)
  ∧ (∀ (s : State) (port seq ack : Nat) (errs : List (List Nat)) (lanes direct : List Nat) (crcOk : Bool), linkUp s
      port = true → crcOk = false ∨ errs.all corrects = false →
    ((getPort s port).badWords.filter (·.lost)).length + (errs.filter (fun e => !corrects e)).length ≤ 16 →
    ∃ t, exec (.linkDataFrame port seq ack crcOk errs lanes direct) s = .next t
    ∧ (getPort t port).rxSeq = (getPort s port).rxSeq ∧ (getPort t port).rxLane = (getPort s port).rxLane
    ∧ (getPort t port).uncorr = satAdd 32 (getPort s port).uncorr (errs.filter (fun e => !corrects e)).length
    ∧ t.out = s.out ++ [.linkFrame port 2 (getPort s port).rxSeq (linkAck s port) []])
  ∧ (∀ (s : State) (port : Nat) (f : LinkCtl), linkUp s port = true → f.crcOk = true → f.errs.all corrects = true →
    ((getPort s port).badWords.filter (·.lost)).length ≤ 16 → ∃ t, exec (.linkAckFrame port f) s = .next t
    ∧ (∃ more, (getPort t port).replay = (getPort s port).replay.filter (fun q => !decide ((f.ack + 4096 - q.seq) %
      4096 < 2048)) ++ more) ∧ (getPort t port).rxSeq = (getPort s port).rxSeq)
  ∧ (∀ (s : State) (port : Nat) (f : LinkCtl) (l : List LinkFrame), linkUp s port = true → f.crcOk = true →
    f.errs.all corrects = true → ((getPort s port).badWords.filter (·.lost)).length ≤ 16 → f.seq < 4096 →
    f.ack = (f.seq + 4095) % 4096 → (getPort s port).replay = l → l ≠ [] → (getPort s port).txWait = [] →
    (∀ q ∈ l, q.seq < 4096 ∧ (q.seq + 4096 - f.seq) % 4096 < 2048) → ∃ t, exec (.linkNakFrame port f) s = .next t
    ∧ t.out = s.out ++ l.map (fun q => .linkFrame port 0 q.seq (linkAck s port) q.payload)
    ∧ (getPort t port).replay = l ∧ (getPort t port).replayRun = (getPort s port).replayRun + 1
    ∧ (getPort t port).replays = satAdd 32 (getPort s port).replays l.length)
  ∧ (∀ (s : State) (port seq ack : Nat) (errs : List (List Nat)) (lanes direct : List Nat) (crcOk : Bool), linkUp s
      port = true → (getPort s port).badWords = [] → 16 < (errs.filter (fun e => !corrects e)).length →
    ∃ t, exec (.linkDataFrame port seq ack crcOk errs lanes direct) s = .next t ∧ (getPort t port).state = .down
    ∧ (getPort t port).cause = 5)
  ∧ (∀ (s : State) (port : Nat), linkUp s port = true → 8 ≤ (getPort s port).replayRun →
    ∃ t, exec (.portRetryLimit port) s = .next t ∧ (getPort t port).state = .down ∧ (getPort t port).cause = 6)
  ∧ (∀ (s : State) (port : Nat), (getPort s port).state = .down → (getPort s port).disabled = false →
    portLight (getPort s port) = true → portsRun s = true → ∃ t, exec (.portTrainingStart port) s = .next t
    ∧ (getPort t port).state = .training ∧ (getPort t port).step = 1
    ∧ (getPort t port).trains = satAdd 32 (getPort s port).trains 1
    ∧ (getPort t port).useSaved = (getPort s port).saved.isSome ∧ t.life = s.life ∧ t.out = s.out)
  ∧ (∀ (s : State) (port : Nat), (getPort s port).state = .down → (getPort s port).disabled = false →
    portLight (getPort s port) = true → portsRun s = true → ∃ t, exec (.portRetrainTimer port) s = .next t
    ∧ (getPort t port).state = .training ∧ (getPort t port).step = 1
    ∧ (getPort t port).trains = satAdd 32 (getPort s port).trains 1)
  ∧ (∀ (s : State) (port loopNs : Nat), (getPort s port).state = .training → (getPort s port).step = 1 →
    portLight (getPort s port) = true → ∃ t, exec (.portTrainingStepDone port loopNs) s = .next t
    ∧ (getPort t port).step = 2 ∧ (getPort t port).state = .training ∧ t.out = s.out)
  ∧ (∀ (s : State) (port loopNs : Nat), (getPort s port).state = .training →
    (getPort s port).step = 2 ∨ (getPort s port).step = 3 → ∃ t, exec (.portTrainingStepDone port loopNs) s = .next t
    ∧ (getPort t port).step = (getPort s port).step + 1 ∧ (getPort t port).state = .training ∧ t.out = s.out)
  ∧ (∀ (s : State) (port loopNs : Nat) (r : IdRecord), (getPort s port).state = .training →
    (getPort s port).step = 4 → (getPort s port).idRec = some r → (getPort s port).idTwice = true →
    (getPort s port).useSaved = false ∨ (getPort s port).saved = some (r.serial, r.port) → loopNs ≤ 1500 →
    ∃ t, exec (.portTrainingStepDone port loopNs) s = .next t ∧ (getPort t port).step = 5
    ∧ (getPort t port).loopNs = loopNs ∧ (getPort t port).reach = decide (697 < loopNs)
    ∧ (getPort t port).saved = some (r.serial, r.port) ∧ (getPort t port).planeSeen = r.plane
    ∧ (getPort t port).swport = r.port)
  ∧ (∀ (s : State) (port loopNs m : Nat) (r : IdRecord) (e : PlanEntry), (getPort s port).state = .training →
    (getPort s port).step = 5 → (getPort s port).idRec = some r → negotiate r = some m →
    s.fabric.plan[port]? = some e → mapMatches e r = true → ∃ t, exec (.portTrainingStepDone port loopNs) s = .next t
    ∧ (getPort t port).state = .up ∧ (getPort t port).minor = m)
  ∧ (∀ (s : State) (port loopNs : Nat) (r : IdRecord), (getPort s port).state = .training →
    (getPort s port).step = 5 → (getPort s port).idRec = some r → (∀ e, negotiate r ≠ none →
    s.fabric.plan[port]? = some e → mapMatches e r = false) →
    ∃ t, exec (.portTrainingStepDone port loopNs) s = .next t ∧ (getPort t port).state = .quarantine
    ∧ (getPort t port).cause = (if (negotiate r).isNone then 8 else if s.fabric.plan[port]?.isNone then 10 else 9)
    ∧ (getPort t port).minor = 0xFF)
  ∧ (∀ (s : State) (port : Nat) (r : IdRecord), (getPort s port).state = .training → (getPort s port).step = 4 →
    r.crcOk = true → ∃ t, exec (.idRecord port r) s = .next t ∧ (getPort t port).idRec = some r
    ∧ (getPort t port).idTwice = decide ((getPort s port).idRec = some r))
  ∧ (∀ (s : State) (port : Nat), (getPort s port).state = .training → 1 ≤ (getPort s port).step →
    (getPort s port).step ≤ 4 → ∃ t, exec (.trainingStepTimeout port) s = .next t ∧ (getPort t port).state = .down
    ∧ (getPort t port).cause = (getPort s port).step)
  ∧ (∀ (s : State) (lasersOk lanesOk : Nat), ∃ t, exec (.opticalPowerSample lasersOk lanesOk) s = .next t
    ∧ (∀ p, p < 10 → (getPort t p).laserOk = bit lasersOk (p / 5)
    ∧ (getPort t p).lanesOk = bits lanesOk (8 * p + 7) (8 * p)
    ∧ (getPort t p).laserBad = (if bit lasersOk (p / 5) then 0 else (getPort s p).laserBad + 1)
    ∧ (getPort t p).state = (getPort s p).state) ∧ t.out = s.out)
  ∧ (∀ (s : State) (index p : Nat), p < 10 → p / 5 = index → 10 ≤ (getPort s p).laserBad →
    (getPort s p).state ≠ .down → ∃ t, exec (.lightLoss true index) s = .next t ∧ (getPort t p).state = .down
    ∧ (getPort t p).cause = 1)
  ∧ (∀ (s : State) (index : Nat), 10 ≤ mapGet 0 (getPort s (index / 8)).laneRuns (index % 8) →
    (getPort s (index / 8)).state ≠ .down → ∃ t, exec (.lightLoss false index) s = .next t
    ∧ (getPort t (index / 8)).state = .down ∧ (getPort t (index / 8)).cause = 1
    ∧ (getPort t (index / 8)).laneBad = 2 ^ (index % 8))
  ∧ (∀ (s : State) (port lane : Nat), (getPort s port).state ≠ .down → lane < 8 →
    ∃ t, exec (.laneFail port lane) s = .next t ∧ (getPort t port).state = .down ∧ (getPort t port).cause = 5
    ∧ (getPort t port).laneBad = 2 ^ lane)
  ∧ (∀ (s : State) (port : Nat) (ids : List Nat), port < 10 → portUp s port = true → mapped s port = true →
    ∃ t, exec (.switchReachabilityReport port ids) s = .next t ∧ mapGet [] t.fabric.reach port = ids
    ∧ (∀ id ∈ ids, reaches t (((s.fabric.plan[port]?).map (·.plane)).getD port) id = true))

/-- The commands between modules complete (R409, R410, R421, R550 to R553, R571, R573 to R577). -/
def Obligations.MemberCommandsComplete : Prop :=
  (∀ (s : State) (peer chan : Nat), attested s peer = true → (getChan s (chanKey peer chan)).state = .opening →
    ∃ t, exec (.channelOpenRequest peer chan) s = .next t ∧ (getChan t (chanKey peer chan)).state = .opened)
  ∧ (∀ (s : State) (peer chan : Nat), attested s peer = true → (getChan s (chanKey peer chan)).state = .closed →
    ∃ t, exec (.channelOpenRequest peer chan) s = .next t ∧ (getChan t (chanKey peer chan)).peerAsked = true
    ∧ (getChan t (chanKey peer chan)).state = .closed)
  ∧ (∀ (s : State) (peer counter window epoch ops bound : Nat), (getPeer s peer).admitted = true →
    (getPeer s peer).rxCounter < counter →
    ∃ t, exec (.windowNotice peer counter true window epoch ops bound) s = .next t
    ∧ mapGet ⟨0, 0, 0⟩ t.fabric.notices (peer * 256 + window) = ⟨epoch, ops, bound⟩
    ∧ (getPeer t peer).rxCounter = counter ∧ t.pkg = s.pkg ∧ t.out = s.out)
  ∧ (∀ (s : State) (peer counter window epoch ops bound : Nat) (tagOk : Bool), tagOk = false ∨ counter ≤ (getPeer s
      peer).rxCounter → ∃ t, exec (.windowNotice peer counter tagOk window epoch ops bound) s = .next t
    ∧ t.fabric = s.fabric ∧ t.es.auth = satAdd 32 s.es.auth 1)
  ∧ (∀ (s : State) (peer counter : Nat), s.host.filter = [] → (getPeer s peer).admitted = true →
    (getPeer s peer).rxCounter < counter → ∃ t, exec (.releaseNotice peer counter true) s = .next t
    ∧ (getPeer t peer).admitted = false ∧ (getPeer t peer).gone = true ∧ (getPeer t peer).pairKey = 0)
  ∧ (∀ (s : State) (peer counter secret : Nat), (getPeer s peer).admitted = true →
    (getPeer s peer).rxCounter < counter → ∃ t, exec (.pairRekey peer counter true secret) s = .next t
    ∧ (getPeer t peer).generation = (getPeer s peer).generation + 1
    ∧ (getPeer t peer).oldKey = (getPeer s peer).pairKey
    ∧ (getPeer t peer).pairKey = Config.hmac (le 32 (getPeer s peer).pairKey ++ le 32 secret) (ascii "UMA9REKY" ++ le
      4 ((getPeer s peer).generation + 1)))
  ∧ (∀ (s : State) (peer nonce ek port : Nat), s.life.state = .claimed → peer ∈ s.fabric.members →
    mgmtPort s (portOfPlane s (hubPlane s peer)) = some port → ∃ t, exec (.paReq peer nonce ek) s = .next t
    ∧ (getPeer t peer).answered = true ∧ (getPeer t peer).secretIn = Config.kemSecret ek (Config.random s.sec.draws)
    ∧ t.sec.draws = s.sec.draws + 1
    ∧ (∃ more, t.out = s.out ++ .mgmt peer 0x26 (peerReply peer nonce ek (Config.random s.sec.draws) s) :: more))
  ∧ (∀ (s : State) (peer : Nat) (q : Req) (r : PeerReport), s.mgmt.executing = .peerAttest q peer →
    ∃ t, exec (.paResp peer r) s = .next t ∧ Answered t q 0x0503 stSuccess (le 8 (peerResult s r) ++ le 32 r.digest)
    ∧ (getPeer t peer).admitted = decide (peerResult s r = 0))
  ∧ (∀ (s : State) (id k : Nat), id ≠ ownId s → keyPeer k = id → (getChan s k).state ≠ .closed →
    ∃ t, exec (.fmMemberDown id) s = .next t ∧ (getChan t k).state = .reset ∧ (getChan t k).retained = [])
  ∧ (∀ (s : State) (id k : Nat), ChannelsWf s → id ≠ ownId s → keyPeer k = id → (getChan s k).state = .reset →
    attested s id = true → (getPeer s id).gone = false → portUp s (getChan s k).port = true →
    ∃ t, exec (.fmMemberUp id) s = .next t
    ∧ (getChan t k).state = (if (getChan s k).peerAsked then .opened else .opening)
    ∧ (getChan t k).epoch = nextEpoch (chanEpoch (getChan s k)))
  ∧ (∀ (s : State) (id : Nat), s.host.filter = [] → id ≠ ownId s → ∃ t, exec (.fmMemberGone id) s = .next t
    ∧ (getPeer t id).gone = true ∧ (getPeer t id).admitted = false ∧ (∀ k, keyPeer k = id →
    (getChan s k).state ≠ .closed → (getChan t k).state = .reset))

/-- The memory controllers' and the power manager's commands complete (R361 to R364, R369, R538, R584 to R586, R591,
R592). -/
def Obligations.PowerCommandsServe : Prop :=
  (∀ (s : State) (tile chan : Nat) (r : MemReq), s.host.filter = [] → nextReq s tile chan = some r →
    ∃ t, exec (.memRequestServe tile chan) s = .next t
    ∧ (getMc t tile chan).queue = (getMc s tile chan).queue.erase r
    ∧ (getMc t tile chan).slotCount = (if 63 ≤ (getMc s tile chan).slotCount then 0 else (getMc s tile
      chan).slotCount + 1)
    ∧ (getMc t tile chan).class0 = (if 63 ≤ (getMc s tile chan).slotCount then 0 else if r.cls = 0 then (getMc s tile
      chan).class0 + 1 else (getMc s tile chan).class0) ∧ (r.write = true → t.pkg.bytes = s.pkg.bytes))
  ∧ (∀ (s : State) (tile chan : Nat) (r : MemReq), (getMc s tile chan).queue = [r] → r.cls = 1 ∨ r.cls = 2 →
    r.promoted = false → ∃ t, exec (.memRequestPromote tile chan) s = .next t
    ∧ (getMc t tile chan).queue = [{ r with promoted := true }] ∧ t.pkg.bytes = s.pkg.bytes)
  ∧ (∀ (s : State) (tile chan : Nat), s.life.filled = true → s.life.state ≠ .standby → tile < 8 → chan < 64 →
    refreshDue s tile chan = true → ∃ t, exec (.refresh tile chan) s = .next t
    ∧ (getMc t tile chan).refreshes = (getMc s tile chan).refreshes + 1 ∧ t.pkg.bytes = s.pkg.bytes ∧ t.out = s.out)
  ∧ (∀ (s : State) (tile : Nat), mapGet 0 s.pkg.band tile ≠ 0 →
    tileHot s tile + 2 ≤ bandLimit (mapGet 0 s.pkg.band tile - 1) → ∃ t, exec (.refreshBandRelax tile) s = .next t
    ∧ mapGet 0 t.pkg.band tile = mapGet 0 s.pkg.band tile - 1 ∧ t.sens = s.sens)
  ∧ (∀ (s : State) (ts : List TileTemps) (hub : List Nat), s.life.inputOn = true →
    fatalTemp (samplePairs 8 s.sens.hub hub) = false → (∀ i, i < 8 →
    fatalTemp (tilePairs s i (ts.getD i ⟨[], []⟩)) = false) → ∃ t, exec (.temperatureSample ts hub) s = .next t
    ∧ t.sens.hub = hub ∧ (∀ i, i < 8 → mapGet [] t.sens.dram i = (ts.getD i ⟨[], []⟩).dram
    ∧ mapGet [] t.sens.junction i = (ts.getD i ⟨[], []⟩).junction
    ∧ mapGet 0 t.pkg.band i = max (mapGet 0 s.pkg.band i) (bandOf (hot (ts.getD i ⟨[], []⟩).dram))
    ∧ (getTile t i).tempHold = latch (getTile s i).tempHold 105 100 [(tileHot s i, hot (ts.getD i ⟨[], []⟩).dram)]
    ∧ (getTile t i).halved = latch (getTile s i).halved 105 100 (samplePairs 8 (mapGet [] s.sens.junction i) (ts.getD
      i ⟨[], []⟩).junction)))
  ∧ (∀ (s : State) (ts : List TileTemps) (hub : List Nat), s.life.inputOn = true → s.life.state ≠ .off →
    s.sens.tripped = false → fatalTemp (samplePairs 8 s.sens.hub hub) = true →
    ∃ t, exec (.temperatureSample ts hub) s = .next t ∧ t.life.state = .standby ∧ t.sens.tripped = true
    ∧ t.integ.trips = s.integ.trips + 1)
  ∧ (∀ (s : State) (mv ma : Nat), s.life.inputOn = true → ∃ t, exec (.powerSample mv ma) s = .next t
    ∧ t.sens.millivolts = mv ∧ t.sens.milliamps = ma ∧ t.sens.power = (mv * ma / 1000 :: s.sens.power).take 10000)
  ∧ (∀ (s : State) (binds : Bool) (grants : List Nat), ∃ t, exec (.issueBudgetGrant binds grants) s = .next t
    ∧ (∀ i, i < 8 →
    (getTile t i).budget = if (getTile s i).halved then some (grants.getD i 0 / 2) else if binds || !powerKept s then
      some (grants.getD i 0) else none) ∧ t.pkg = s.pkg ∧ t.out = s.out)
  ∧ (∀ (s : State), s.life.cardamomRuns = true →
    exec (.heartbeatTick) s = .next ({ s with life := { s.life with hbCount := (s.life.hbCount + 1) % 2 ^ 64 } }))

/-- The events that end long commands complete (R81, R296, R409, R425, R486, R491, R555, R566). -/
def Obligations.ClosingCommandsComplete : Prop :=
  (∀ (s : State) (tile engine slot : Nat) (q : Req), s.mgmt.executing = .tableLoad q slot →
    engineHasOp s tile 3 engine = false → (mapGet {} s.cfg.tables (tableKey tile engine slot)).shadowReady = true →
    ∃ t, exec (.tableBankSwap tile engine) s = .next t
    ∧ (mapGet {} t.cfg.tables (tableKey tile engine slot)).active = (mapGet {} s.cfg.tables (tableKey tile engine
      slot)).shadow ∧ (mapGet {} t.cfg.tables (tableKey tile engine slot)).loaded = true
    ∧ (tableSwapped t slot = true → Answered t q 0x0609 stSuccess []))
  ∧ (∀ (s : State) (tile : Nat) (v : Via) (x : EngineSel), s.mgmt.bg.drain = some (v, x) → bit x.tiles tile = true →
    tileQuiet s tile = true → (getTile s tile).quiesced = false → ∃ t, exec (.drainQuiesced tile) s = .next t
    ∧ (getTile t tile).quiesced = true ∧ (v ≠ .mbm → (getMb t v).event = true))
  ∧ (∀ (s : State) (w : Nat) (q : Req) (p : WindowParams), s.mgmt.executing = .windowClose q w → winIdle s w = true →
    (getWin s w).params = some p → ∃ t, exec (.closeDrainComplete 0 w) s = .next t ∧ getWin t w = {}
    ∧ Answered t q 0x0509 stSuccess [])
  ∧ (∀ (s : State) (k : Nat) (q : Req), s.mgmt.executing = .chanClose q k → (getChan s k).retained = [] →
    ∃ t, exec (.closeDrainComplete 1 k) s = .next t ∧ (getChan t k).state = .closed
    ∧ (getChan t k).epoch = (getChan s k).epoch ∧ Answered t q 0x0507 stSuccess [])
  ∧ (∀ (s : State) (n : Nat) (q : Req), s.mgmt.executing = .ringDestroy q n → ringIdle s n = true →
    ∃ t, exec (.closeDrainComplete 2 n) s = .next t ∧ getRing t n = {}
    ∧ Answered t q 0x0405 stSuccess (le 8 (getRing s n).prog))
  ∧ (∀ (s : State) (n : Nat) (q : Req), s.mgmt.executing = .cqDestroy q n → cqIdle s n = true →
    ∃ t, exec (.closeDrainComplete 3 n) s = .next t ∧ getCq t n = {} ∧ Answered t q 0x0407 stSuccess [])
  ∧ (∀ (s : State) (g tile first n : Nat) (q : Req), s.mgmt.executing = .slotRelease q tile first n → first ≤ g →
    g < first + n → opClaims s tile g = false → ∃ t, exec (.slotReleaseGranule g) s = .next t
    ∧ getTag t tile g = tagEmpty ∧ (allEmpty t tile first n = true → Answered t q 0x0409 stSuccess [])
    ∧ t.pkg = s.pkg)
  ∧ (∀ (s : State), exec (.sessionPendingExpire) s = .next ({ s with sec := { s.sec with pendingSession := none } }))

/-- Packets that are good and next in sequence complete (R145, R147, R151, R411, R412, R419, R423, R426, R427, R437).
-/
def Obligations.PacketCommandsComplete : Prop :=
  (∀ (s : State) (port : Nat) (p : Packet) (w : WindowParams), PacketNext s port 0x01 p → p.chan ≠ 2 →
    (p.window = 255 → openTrust s = false) → (getWin s p.window).params = some w → w.kind = 1 →
    writeReason (getWin s p.window) p = 0 → foldHeld s (w.base + p.offset) p.payload.length = false →
    ∃ t, exec (.write port p) s = .next t ∧ (getChan t (chanKey p.src p.chan)).rxSeq = p.seq + 1 ∧ (w.expected = 0 →
    (w.base + p.offset) % 64 + p.payload.length ≤ 64 →
    memRead t.pkg.bytes (cwOf s (w.base + p.offset) * 64 + (w.base + p.offset) % 64) p.payload.length = p.payload))
  ∧ (∀ (s : State) (port : Nat) (p : Packet) (w : WindowParams), PacketNext s port 0x01 p → p.chan ≠ 2 →
    (p.window = 255 → openTrust s = false) → (getWin s p.window).params = some w → w.kind = 0 →
    writeReason (getWin s p.window) p = 0 → (getSlot s w.tile).errors = [] → (getSlot s w.tile).flips = [] →
    ∃ t, exec (.write port p) s = .next t ∧ (getChan t (chanKey p.src p.chan)).rxSeq = p.seq + 1
    ∧ memRead (getSlot t w.tile).bytes (w.base + p.offset) p.payload.length = p.payload ∧ t.pkg.bytes = s.pkg.bytes)
  ∧ (∀ (s : State) (port : Nat) (p : Packet), PacketNext s port 0x01 p → p.chan ≠ 2 → (p.window = 255 →
    openTrust s = false) → writeReason (getWin s p.window) p ≠ 0 → writeReason (getWin s p.window) p ≠ 10 →
    ∃ t, exec (.write port p) s = .next t ∧ (getChan t (chanKey p.src p.chan)).rxSeq = p.seq + 1
    ∧ (∃ n, .packet (getChan s (chanKey p.src p.chan)).port 0x12 (mkPacket s (chanKey p.src p.chan) n
      { op := 0x12, aux := p.seq + 2 ^ 24 * writeReason (getWin s p.window) p }) ∈ t.out)
    ∧ t.es.refusal = satAdd 32 s.es.refusal 1 ∧ t.pkg.bytes = s.pkg.bytes ∧ t.slots = s.slots)
  ∧ (∀ (s : State) (port : Nat) (p : Packet) (w : WindowParams), PacketNext s port 0x02 p → p.chan ≠ 2 →
    (p.window = 255 → openTrust s = false) → (getWin s p.window).params = some w →
    readReason (getWin s p.window) p = 0 → (w.base + p.offset) % 64 + readLen p ≤ 64 →
    foldHeld s (w.base + p.offset) (readLen p) = false → (∀ l ∈ cacheSet s (cwOf s (w.base + p.offset)), l.err = 0) →
    (cacheSet s (cwOf s (w.base + p.offset))).length < 16 → mapGet 0 s.pkg.errors (cwOf s (w.base + p.offset)) = 0 →
    ∃ t, exec (.read port p) s = .next t ∧ (getChan t (chanKey p.src p.chan)).rxSeq = p.seq + 1
    ∧ (∃ r ∈ (getChan t (chanKey p.src p.chan)).retained, r.op = 0x03 ∧ r.pkt.aux = p.seq
    ∧ r.pkt.payload = memRead s.pkg.bytes (cwOf s (w.base + p.offset) * 64 + (w.base + p.offset) % 64) (readLen p))
    ∧ t.slots = s.slots)
  ∧ (∀ (s : State) (port : Nat) (p : Packet) (r : Nat × Nat) (e : Entry), PacketNext s port 0x03 p →
    (getChan s (chanKey p.src p.chan)).reads.find? (fun x => x.1 == p.aux % 2 ^ 24) = some r →
    findEntry s (r.2 % 8) (r.2 / 8) = some e → ∃ t, exec (.readResp port p) s = .next t
    ∧ (getChan t (chanKey p.src p.chan)).rxSeq = p.seq + 1
    ∧ findEntry t (r.2 % 8) (r.2 / 8) = some
      { e with gotData := e.gotData ++ p.payload, bads := if p.poison then e.bads ++ [(e.gotData.length, p.payload.length)] else e.bads }
    ∧ (getChan t (chanKey p.src p.chan)).reads = (getChan s (chanKey p.src p.chan)).reads.erase r)
  ∧ (∀ (s : State) (port : Nat) (p : Packet), PacketNext s port 0x04 p → p.chan ≠ 2 → (p.window = 255 →
    openTrust s = false) →
    accumReason s (getWin s p.window) (inPeers (getWin s p.window) p.src) (p.aux % 65536) p.offset (contribSpan
      (winTarget (getWin s p.window)) p.fmt (accBlk16 p) p.payload) p.fmt (tagAt (getWin s p.window) (accTag p))
      (accRidx p) = 0 → (stamped (getWin s p.window) = true →
    stampCase s (getWin s p.window) (tagAt (getWin s p.window) (accTag p)) (accRidx p) ≠ .discarded) →
    contribVals p.fmt (accBlk16 p) p.payload ≠ [] → ∃ t, exec (.accum port p) s = .next t
    ∧ (getChan t (chanKey p.src p.chan)).rxSeq = p.seq + 1 ∧ (p.last = false ∨ (getWin s p.window).lastsWait = [] →
    (∃ a ∈ allAccums t, a.stream = 2 * chanKey p.src p.chan ∧ a.seq = absSeq p.epoch p.seq ∧ a.window = p.window)
    ∧ t.pkg.bytes = s.pkg.bytes) ∧ t.slots = s.slots)
  ∧ (∀ (s : State) (port : Nat) (p : Packet), PacketNext s port 0x05 p →
    (getChan s (chanKey p.src p.chan)).low ≤ p.aux % 4096 → p.aux % 4096 ≤ (getChan s (chanKey p.src p.chan)).high →
    isStepCounter s (p.aux % 4096) = false → ∃ t, exec (.fenceInc port p) s = .next t
    ∧ (getChan t (chanKey p.src p.chan)).rxSeq = p.seq + 1
    ∧ fenceVal t (p.aux % 4096) = min (fenceVal s (p.aux % 4096) + bits p.aux 63 32) (2 ^ 64 - 1)
    ∧ t.pkg.bytes = s.pkg.bytes)
  ∧ (∀ (s : State) (port : Nat) (p : Packet) (st rr : Nat), PacketNext s port 0x05 p →
    (getChan s (chanKey p.src p.chan)).low ≤ p.aux % 4096 → p.aux % 4096 ≤ (getChan s (chanKey p.src p.chan)).high →
    isStepCounter s (p.aux % 4096) = true → incRun p = some (st, rr) → runClass s st rr ≠ 0 →
    s.fences.pendingInc.length < 256 → ∃ t, exec (.fenceInc port p) s = .next t
    ∧ (getChan t (chanKey p.src p.chan)).rxSeq = p.seq + 1 ∧ fenceVal t (p.aux % 4096) = fenceVal s (p.aux % 4096)
    ∧ (runClass s st rr = 1 →
    t.fences.pendingInc = s.fences.pendingInc ++ [⟨p.aux % 4096, bits p.aux 63 32, st, rr, p.src, p.chan, absSeq
      p.epoch p.seq⟩]) ∧ (runClass s st rr = 2 → t.es.staleInc = satAdd 32 s.es.staleInc 1 ∧ t.fences = s.fences))
  ∧ (∀ (s : State) (port b : Nat) (p : Packet), PacketNext s port 0x06 p → b = p.aux % 64 → b ≠ 0 →
    (getBarrier s b).configured = true → (getBarrier s b).root = ownId s →
    barGenOf (getBarrier s b).done (bits p.aux 63 8) = (getBarrier s b).done →
    ∃ t, exec (.barArrive port p) s = .next t ∧ (getChan t (chanKey p.src p.chan)).rxSeq = p.seq + 1
    ∧ ((getBarrier s b).members ≤ (if p.src ∈ (getBarrier s b).rootNow then (getBarrier s b).rootNow else (getBarrier
      s b).rootNow ++ [p.src]).length → (getBarrier t b).done = (getBarrier s b).done + 1
    ∧ (getBarrier t b).failed = false)
    ∧ ((if p.src ∈ (getBarrier s b).rootNow then (getBarrier s b).rootNow else (getBarrier s b).rootNow ++
      [p.src]).length < (getBarrier s b).members → (getBarrier t b).done = (getBarrier s b).done
    ∧ p.src ∈ (getBarrier t b).rootNow))
  ∧ (∀ (s : State) (port b : Nat) (p : Packet), PacketNext s port 0x07 p → b = p.aux % 64 → b ≠ 0 →
    (getBarrier s b).configured = true → ∃ t, exec (.barRelease port p) s = .next t
    ∧ (getChan t (chanKey p.src p.chan)).rxSeq = p.seq + 1
    ∧ (getBarrier t b).done = barGenOf (getBarrier s b).done (bits p.aux 63 8) + 1
    ∧ (getBarrier t b).failed = bit p.aux 6)

/-- What answers packets, sends them again and applies accumulates completes (R411, R412, R416, R423, R427, R439,
R446). -/
def Obligations.ChannelCommandsComplete : Prop :=
  (∀ (s : State) (port : Nat) (p : Packet), PacketGood s port 0x10 p →
    (∀ r ∈ (getChan s (chanKey p.src p.chan)).retained, r.sentOut = true) → ∃ t, exec (.ack port p) s = .next t
    ∧ (∃ more, (getChan t (chanKey p.src p.chan)).retained = (getChan s (chanKey p.src p.chan)).retained.filter (fun
      r => !seqAtMost r.seq (p.aux % 2 ^ 24)) ++ more))
  ∧ (∀ (s : State) (port : Nat) (p : Packet), PacketGood s port 0x11 p →
    (getChan s (chanKey p.src p.chan)).busySeq ≠ some (p.aux % 2 ^ 24) → ∃ t, exec (.nak port p) s = .next t
    ∧ (getChan t (chanKey p.src p.chan)).retained = (getChan s (chanKey p.src p.chan)).retained
    ∧ (∀ r ∈ (getChan s (chanKey p.src p.chan)).retained, r.sentOut = true →
    seqAtMost (p.aux % 2 ^ 24) r.seq = true → .packet (getChan s (chanKey p.src p.chan)).port r.op r.pkt ∈ t.out))
  ∧ (∀ (s : State) (port : Nat) (p : Packet) (r : Retained), PacketGood s port 0x12 p →
    (getChan s (chanKey p.src p.chan)).retained.find? (fun x => x.sentOut && x.seq == p.aux % 2 ^ 24) = some r →
    bits p.aux 31 24 = 10 → ∃ t, exec (.refuse port p) s = .next t
    ∧ (getChan t (chanKey p.src p.chan)).busySeq = some (p.aux % 2 ^ 24)
    ∧ (getChan t (chanKey p.src p.chan)).retained = (getChan s (chanKey p.src p.chan)).retained)
  ∧ (∀ (s : State) (port : Nat) (p : Packet) (r : Retained) (e : Entry), PacketGood s port 0x12 p →
    (getChan s (chanKey p.src p.chan)).retained = [r] → r.sentOut = true → r.seq = p.aux % 2 ^ 24 →
    bits p.aux 31 24 ≠ 10 → r.owner ≠ 0 → findEntry s (r.owner % 8) (r.owner / 8) = some e → e.ended = true →
    e.sent = 1 → e.fault = 0 → (getTask s (r.owner % 8) e.task).phase = .active →
    ∃ t, exec (.refuse port p) s = .next t ∧ findEntry t (r.owner % 8) (r.owner / 8) = none ∧ t.es.lastFault = 6)
  ∧ (∀ (s : State) (peer chan : Nat), (getChan s (chanKey peer chan)).state = .opened ∨ (getChan s (chanKey peer
      chan)).state = .closing → (getChan s (chanKey peer chan)).rxUnacked ≠ 0 →
    (getChan s (chanKey peer chan)).rxSeq ≠ 0 → (∀ a ∈ allAccums s, a.stream ≠ 2 * chanKey peer chan) →
    (∀ i ∈ s.fences.pendingInc, chanKey i.peer i.chan ≠ chanKey peer chan) →
    ∃ t, exec (.ackTimer peer chan) s = .next t ∧ (getChan t (chanKey peer chan)).rxUnacked = 0
    ∧ (∃ n, .packet (getChan s (chanKey peer chan)).port 0x10 (mkPacket s (chanKey peer chan) n
      { op := 0x10, aux := (getChan s (chanKey peer chan)).rxSeq - 1 + 2 ^ 24 * (portBusy s (getChan s (chanKey peer chan)).port).toNat })
      ∈ t.out))
  ∧ (∀ (s : State) (peer chan : Nat), (getChan s (chanKey peer chan)).state = .opened ∨ (getChan s (chanKey peer
      chan)).state = .closing → ∃ t, exec (.channelRetransmitTimer peer chan) s = .next t
    ∧ (getChan t (chanKey peer chan)).retained = (getChan s (chanKey peer chan)).retained
    ∧ (∀ r ∈ (getChan s (chanKey peer chan)).retained, r.sentOut = true →
    .packet (getChan s (chanKey peer chan)).port r.op r.pkt ∈ t.out))
  ∧ (∀ (s : State) (peer chan n : Nat), (getChan s (chanKey peer chan)).busySeq = some n →
    ∃ t, exec (.busyResendTimer peer chan) s = .next t ∧ (getChan t (chanKey peer chan)).busySeq = none
    ∧ (getChan t (chanKey peer chan)).retained = (getChan s (chanKey peer chan)).retained
    ∧ (∀ r ∈ (getChan s (chanKey peer chan)).retained, r.sentOut = true → seqAtMost n r.seq = true →
    .packet (getChan s (chanKey peer chan)).port r.op r.pkt ∈ t.out))
  ∧ (∀ (s : State) (port dest : Nat), mapGet 0 s.fabric.caps (port * 256 + dest) ≠ 0 →
    ∃ t, exec (.busyCapRecover port dest) s = .next t
    ∧ mapGet 0 t.fabric.caps (port * 256 + dest) = (if 2 ^ 20 - 4096 * otherDests s port dest ≤ 2 * mapGet 0
      s.fabric.caps (port * 256 + dest) then 0 else 2 * mapGet 0 s.fabric.caps (port * 256 + dest)))
  ∧ (∀ (s : State) (window granule : Nat) (w : WindowParams), (getWin s window).params = some w →
    (getWin s window).isOpen = true → (getWin s window).closing = false → w.kind = 0 → w.base / 4096 ≤ granule →
    granule < (w.base + w.bound) / 4096 → granule ∉ (getWin s window).claimed → getTag s w.tile granule = tagEmpty →
    outClaim s w.tile granule = 0 → ∃ t, exec (.slotWindowClaim window granule) s = .next t
    ∧ outClaim t w.tile granule = ownerWin window
    ∧ (getWin t window).claimed = (getWin s window).claimed ++ [granule] ∧ getTag t w.tile granule = tagEmpty
    ∧ t.pkg = s.pkg)
  ∧ (∀ (s : State) (tile chan : Nat) (a : Accum), s.host.filter = [] → tile < 8 → chan < 64 →
    nextAccum s tile chan = some a → mcOf s a.addr = tile * 64 + chan → a.isWindow = false → a.stream % 2 = 0 →
    mapGet 0 s.pkg.errors (cwOf s (a.addr / 64 * 64)) = 0 → cached s (cwOf s (a.addr / 64 * 64)) = false →
    ∃ t, exec (.maceApply tile chan) s = .next t
    ∧ mapGet [] t.fabric.accums (tile * 64 + chan) = (mapGet [] s.fabric.accums (tile * 64 + chan)).erase a
    ∧ memRead t.pkg.bytes (cwOf s (a.addr / 64 * 64) * 64) 64 = adderLine a.tgtFmt (a.addr % 64) a.vals (memRead
      s.pkg.bytes (cwOf s (a.addr / 64 * 64) * 64) 64)
    ∧ mapGet false t.pkg.poison (cwOf s (a.addr / 64 * 64)) = (mapGet false s.pkg.poison (cwOf s (a.addr / 64 * 64))
      || a.poison) ∧ t.slots = s.slots)
  ∧ (∀ (s : State) (window chan : Nat), ∃ t, exec (.foldComplete window chan) s = .next t
    ∧ (getWin t window).foldWait = (getWin s window).foldWait.filter (· != chan) ∧ ((getWin t window).foldWait = [] →
    (getWin t window).folding = false) ∧ t.pkg = s.pkg ∧ t.out = s.out)

/-- The commands of group 5 complete (R109, R384, R389, R390, R394, R396, R407 to R410, R420, R421, R425, R428, R443,
R448, R573). -/
def Obligations.FabricMailboxCommandsComplete : Prop :=
  (∀ (s : State) (q : Req) (f g : Nat) (l : List PlanEntry), MailRuns s q vMb0 (sB + sU + sC + sN) false false →
    planOk f l = true → s.job = none → ∃ t, exec (.fabricPlanSet q f g l) s = .next t
    ∧ Answered t q 0x0501 stSuccess [] ∧ t.fabric.planId = f ∧ t.fabric.planGen = g % 2 ^ 64 ∧ t.fabric.plan = l
    ∧ (∀ p r e, p < 10 → (getPort s p).state = .up → (getPort s p).idRec = some r → l[p]? = some e →
    mapMatches e r = false → (getPort t p).state = .quarantine ∧ (getPort t p).cause = 9))
  ∧ (∀ (s : State) (q : Req) (ids : List Nat), MailRuns s q vMb0 (sU + sC + sN) false false → (∀ i ∈ ids, i < 256) →
    (∀ m ∈ s.fabric.members, m ∉ ids → jobMember s m = false) → ∃ t, exec (.fabricMembersSet q ids) s = .next t
    ∧ Answered t q 0x0502 stSuccess [] ∧ (∀ m, m ∈ t.fabric.members ↔ m ∈ ids))
  ∧ (∀ (s : State) (q : Req) (peer : Nat), MailRuns s q vMb0 sC false false → peer ≤ 254 → peer ≠ ownId s →
    peer ∈ s.fabric.members → ∃ t, exec (.peerAttest q peer) s = .next t ∧ t.mgmt.executing = .peerAttest q peer
    ∧ (∀ port, mgmtPort s (portOfPlane s (hubPlane s peer)) = some port →
    ∃ more, t.out = s.out ++ .mgmt peer 0x25 [Config.random s.sec.draws, Config.random (s.sec.draws + 1)] :: more)
    ∧ t.sec.draws = s.sec.draws + 2)
  ∧ (∀ (s : State) (q : Req) (peer : Nat), MailRuns s q vMb0 sC false false → peer ≤ 254 → peer ≠ ownId s →
    peer ∉ s.fabric.members → ∃ t, exec (.peerAttest q peer) s = .next t
    ∧ Answered t q 0x0503 stSuccess (le 8 1 ++ le 32 0) ∧ (getPeer t peer).admitted = false)
  ∧ (∀ (s : State) (q : Req) (job : Nat) (l : List Nat) (m : Nat), MailRuns s q vMb0 sC false false →
    membersOk l m s = true → (∀ p ∈ l, p ≠ ownId s → available s p = true) → s.job = none →
    contextsUsed s + (hubChannels s l m).length ≤ 4096 → ∃ t, exec (.fabricJobJoin q job l m) s = .next t
    ∧ Answered t q 0x0504 stSuccess [] ∧ t.job = some ⟨job, l, m, false⟩
    ∧ (∀ k ∈ hubChannels s l m, (getChan t k).state = .opening ∨ (getChan t k).state = .opened))
  ∧ (∀ (s : State) (q : Req) (j : Job), MailRuns s q vMb0 (sC + sNp) false false → s.job = some j →
    uncommitted s = false → s.stepSet = none → ∃ t, exec (.fabricJobLeave q j.id) s = .next t
    ∧ Answered t q 0x0505 stSuccess [] ∧ t.job = none ∧ (∀ k, keyNum k < 3 → (getChan t k).state = .closed)
    ∧ t.fennel.pool = s.fennel.pool)
  ∧ (∀ (s : State) (q : Req) (n p port low high : Nat), MailRuns s q vMb0 sC false false → 8 ≤ n → n ≤ 4095 →
    available s p = true → attested s p = true → port ≤ 9 → portUp s port = true → low < 4096 → high < 4096 →
    generalKey s n = none → contextsUsed s < 4096 → ∃ t, exec (.channelOpen q n p port low high) s = .next t
    ∧ ((getChan s (chanKey p n)).peerAsked = true → (getChan t (chanKey p n)).state = .opened
    ∧ Answered t q 0x0506 stSuccess []) ∧ ((getChan s (chanKey p n)).peerAsked = false →
    (getChan t (chanKey p n)).state = .opening ∧ t.mgmt.executing = .chanOpen q (chanKey p n))
    ∧ (getChan t (chanKey p n)).epoch = nextEpoch (chanEpoch (getChan s (chanKey p n)))
    ∧ (getChan t (chanKey p n)).port = port ∧ (getChan t (chanKey p n)).low = low
    ∧ (getChan t (chanKey p n)).high = high)
  ∧ (∀ (s : State) (q : Req) (n p : Nat), MailRuns s q vMb0 (sC + sNp) false false → 8 ≤ n → n ≤ 4095 →
    (getChan s (chanKey p n)).state ≠ .closed → ((getChan s (chanKey p n)).state = .opened →
    (getChan s (chanKey p n)).retained = []) → ∃ t, exec (.channelClose q n p) s = .next t
    ∧ Answered t q 0x0507 stSuccess [] ∧ (getChan t (chanKey p n)).state = .closed
    ∧ (getChan t (chanKey p n)).epoch = (getChan s (chanKey p n)).epoch)
  ∧ (∀ (s : State) (q : Req) (n p : Nat), MailRuns s q vMb0 (sC + sNp) false false → 8 ≤ n → n ≤ 4095 →
    (getChan s (chanKey p n)).state = .opened → (getChan s (chanKey p n)).retained ≠ [] →
    ∃ t, exec (.channelClose q n p) s = .next t ∧ t.mgmt.executing = .chanClose q (chanKey p n)
    ∧ (getChan t (chanKey p n)).state = .closing
    ∧ (getChan t (chanKey p n)).retained = (getChan s (chanKey p n)).retained)
  ∧ (∀ (s : State) (q : Req) (w : WindowParams), MailRuns s q vMb0 sC false false → winParamsOk w s = true →
    (getWin s w.number).isOpen = false → (∀ kv ∈ touchWith w s, kv.2 ≤ 65536) →
    ∃ t, exec (.windowOpen q w) s = .next t
    ∧ Answered t q 0x0508 stSuccess (le 2 (nextEpoch (mapGet 0 s.fabric.winEpochs w.number)))
    ∧ (getWin t w.number).isOpen = true ∧ (getWin t w.number).params = some (winPlaced w)
    ∧ (getWin t w.number).epoch = nextEpoch (mapGet 0 s.fabric.winEpochs w.number)
    ∧ (getWin t w.number).stepBound = s.stepSet.isSome)
  ∧ (∀ (s : State) (q : Req) (w : Nat) (p : WindowParams), MailRuns s q vMb0 (sC + sNp) false false → w ≤ 255 →
    (getWin s w).isOpen = true → (getWin s w).params = some p → winIdle s w = true →
    ∃ t, exec (.windowClose q w) s = .next t ∧ Answered t q 0x0509 stSuccess [] ∧ getWin t w = {})
  ∧ (∀ (s : State) (q : Req) (w : Nat), MailRuns s q vMb0 (sC + sNp) false false → w ≤ 255 →
    (getWin s w).isOpen = true → winIdle s w = false → ∃ t, exec (.windowClose q w) s = .next t
    ∧ t.mgmt.executing = .windowClose q w ∧ getWin t w = { getWin s w with closing := true })
  ∧ (∀ (s : State) (q : Req) (w : Nat), MailRuns s q vMb0 (sC + sNp) false false → w ≤ 255 →
    ∃ t, exec (.windowStatus q w) s = .next t ∧ Answered t q 0x050A stSuccess (windowBytes (getWin s w))
    ∧ t.fabric = s.fabric)
  ∧ (∀ (s : State) (q : Req) (j : Job), MailRuns s q vMb0 sC true false → s.job = some j →
    bit s.sec.policy 0 = true → (∀ p ∈ j.members, p ≠ ownId s → attested s p = true) →
    (getWin s 255).isOpen = false → ∃ t, exec (.fabricOpenTrust q j.id) s = .next t
    ∧ Answered t q 0x050B stSuccess [] ∧ t.job = some { j with openTrust := true })
  ∧ (∀ (s : State) (q : Req), MailRuns s q v0M sAll false false → ∃ t, exec (.portStatus q) s = .next t
    ∧ Answered t q 0x050C stSuccess ((List.range 10).flatMap (portBytes s)) ∧ t.fabric = s.fabric)
  ∧ (∀ (s : State) (q : Req) (mask : Nat), MailRuns s q v0M sUCNF false false → mask < 1024 →
    ∃ t, exec (.portRetrain q mask) s = .next t ∧ Answered t q 0x050D stSuccess [] ∧ (∀ p, p < 10 →
    bit mask p = true → (getPort s p).disabled = false → (getPort s p).state ≠ .down → (getPort t p).cause = 11
    ∧ (portLight (getPort s p) = true → portsRun s = true → (getPort t p).state = .training)))
  ∧ (∀ (s : State) (q : Req) (mask : Nat), MailRuns s q v0M sUCNF false false → mask < 1024 →
    ∃ t, exec (.portDisable q mask) s = .next t ∧ Answered t q 0x050E stSuccess [] ∧ (∀ p, p < 10 →
    bit mask p = true → (getPort t p).disabled = true ∧ (getPort t p).state = .down ∧ ((getPort s p).state ≠ .down →
    (getPort t p).cause = 12)))
  ∧ (∀ (s : State) (q : Req) (mask : Nat), MailRuns s q v0M sUCNF false false → mask < 1024 →
    ∃ t, exec (.portEnable q mask) s = .next t ∧ Answered t q 0x050F stSuccess [] ∧ (∀ p, p < 10 →
    bit mask p = true → (getPort t p).disabled = false ∧ ((getPort s p).disabled = true →
    (getPort s p).state = .down → portLight (getPort s p) = true → portsRun s = true →
    (getPort t p).state = .training)))

/-- The commands of group 6 complete (R54, R110, R135, R142, R148, R217, R251, R267, R292, R296, R554 to R556). -/
def Obligations.EngineMailboxCommandsComplete : Prop :=
  (∀ (s : State) (q : Req) (c : Nat), MailRuns s q vMb0 sUCNRF false false → 1 ≤ c → c ≤ 8 →
    ∃ t, exec (.engineCapsRead q c) s = .next t ∧ Answered t q 0x0601 stSuccess (capBytes c) ∧ t.tiles = s.tiles)
  ∧ (∀ (s : State) (q : Req) (f : StepSetParams) (j : Job) (p : PoolParams), MailRuns s q vMb0 sC false false →
    setOk f s = true → s.job = some j → s.fennel.pool = some p →
    (judgeSteps f f.tasks (mailReady 0x0602 q s)).1.1 = none →
    (judgeLoads f.residency (judgeSteps f f.tasks (mailReady 0x0602 q s)).2).1 = none → s.stepSet = none →
    placesFor f s = true → ∃ t, exec (.stepSetRegister q f) s = .next t
    ∧ Answered t q 0x0602 stSuccess (le 4 (capacityOf p))
    ∧ t.stepSet = some ⟨{ f with abortLimit := limitOf f.abortLimit }, capacityOf p⟩ ∧ (s.cond.current = none →
    getBarrier t 0 =
      { configured := true, root := j.manager, members := j.members.length, localCount := f.barLocal, arrCh := 1, relCh := 0 }))
  ∧ (∀ (s : State) (q : Req) (j : Job), MailRuns s q vMb0 (sC + sNp) false false → s.job = some j →
    s.stepSet ≠ none → uncommitted s = false → ∃ t, exec (.stepSetRelease q j.id) s = .next t
    ∧ Answered t q 0x0603 stSuccess [] ∧ t.stepSet = none ∧ t.fences.bases = [] ∧ getBarrier t 0 = {}
    ∧ (∀ i k, i < 8 → (getTask t i k).source ≠ .stepSet))
  ∧ (∀ (s : State) (q : Req) (j : Job), MailRuns s q vMb0 sC false false → s.job = some j → j.manager = ownId s →
    s.cond.held = true → (∀ b ∈ s.integ.reloading, b.lost = false) → ∃ t, exec (.jobResume q j.id) s = .next t
    ∧ Answered t q 0x0604 stSuccess [] ∧ t.cond = { s.cond with held := false, reloadAgain := false, aborts := 0 })
  ∧ (∀ (s : State) (q : Req) (x : EngineSel), MailRuns s q vMb0 (sC + sNp + sR) false false → selOk' x = true →
    s.mgmt.bg.drain = none → ∃ t, exec (.engineDrain q x) s = .next t ∧ Answered t q 0x0605 stInProgress []
    ∧ t.mgmt.bg.drain = some (q.via, x) ∧ (∀ i, i < 8 → bit x.tiles i = true → x ∈ (getTile t i).drains
    ∧ (getTile t i).quiesced = false))
  ∧ (∀ (s : State) (q : Req) (x : EngineSel), MailRuns s q vMb0 (sC + sNp + sR) false false → selOk' x = true →
    ∃ t, exec (.engineAbort q x) s = .next t ∧ (∃ n, Answered t q 0x0606 stSuccess (le 4 n)) ∧ (∀ i, i < 8 →
    bit x.tiles i = true → x ∉ (getTile t i).drains) ∧ (x.sel = 0 → ∀ i, i < 8 → bit x.tiles i = true →
    (getTile t i).queue = [] ∧ ∀ k, (getTask t i k).source = .stepSet ∨ getTask t i k = {}))
  ∧ (∀ (s : State) (q : Req), MailRuns s q vMb0 sUCNRF false false → ∃ t, exec (.engineStatus q) s = .next t
    ∧ Answered t q 0x0607 stSuccess (engineBytes s) ∧ t.tiles = s.tiles)
  ∧ (∀ (s : State) (q : Req) (i : Nat) (c : List Byte), MailRuns s q vMb0 sC false false → c.length = 64 → i < 64 →
    configOk c = true → configNamed s i = false → ∃ t, exec (.sfConfigLoad q i c) s = .next t
    ∧ Answered t q 0x0608 stSuccess [] ∧ mapGet none t.cfg.attn i = some c ∧ mapGet none t.cfg.attnSource i = some c
    ∧ (∀ k, k ≠ i → mapGet none t.cfg.attn k = mapGet none s.cfg.attn k))
  ∧ (∀ (s : State) (q : Req) (slot dpa : Nat) (img : List Byte), MailRuns s q vMb0 sC false false → slot ≤ 15 →
    dpa % 64 = 0 → dpa + 832 ≤ memEnd → (pkgRead 1 0 dpa 832 (mailReady 0x0609 q s)).1 = (img, false) →
    tableOk img = true → ∃ t, exec (.smTableLoad q slot dpa) s = .next t ∧ mapGet [] t.cfg.tableSource slot = img
    ∧ (∀ i e, i < 8 → e < 2 → engineHasOp s i 3 e = false →
    (mapGet {} t.cfg.tables (tableKey i e slot)).active = img) ∧ (∀ i e, i < 8 → e < 2 → engineHasOp s i 3 e = true →
    (mapGet {} t.cfg.tables (tableKey i e slot)).shadow = img
    ∧ (mapGet {} t.cfg.tables (tableKey i e slot)).active = (mapGet {} s.cfg.tables (tableKey i e slot)).active)
    ∧ ((∀ i e, i < 8 → e < 2 → engineHasOp s i 3 e = false) → Answered t q 0x0609 stSuccess []))
  ∧ (∀ (s : State) (q : Req) (i : Nat), MailRuns s q vMb0 sC false false → i ≤ 15 →
    (mapGet {} s.cfg.tables (tableKey 0 0 i)).loaded = true → ∃ t, exec (.smTableRead q 0 i) s = .next t
    ∧ Answered t q 0x060A stSuccess (fit 832 (slotTable s 0 0 i).img))
  ∧ (∀ (s : State) (q : Req) (i : Nat), MailRuns s q vMb0 sC false false → i ≤ 15 →
    (mapGet {} s.cfg.tables (tableKey 0 0 i)).loaded = false → ∃ t, exec (.smTableRead q 0 i) s = .next t
    ∧ Answered t q 0x060A stSuccess (le 832 (Config.freeValue s.freeUsed % 2 ^ (8 * 832))))
  ∧ (∀ (s : State) (q : Req) (i : Nat), MailRuns s q vMb0 sC false false → ∃ t, exec (.smTableRead q 1 i) s = .next t
    ∧ (i ≤ 10 → Answered t q 0x060A stSuccess (fit 832 (compatImage i))) ∧ (10 < i →
    Answered t q 0x060A stInvalidParam []))
  ∧ (∀ (s : State) (q : Req) (i : Nat), MailRuns s q vMb0 sC false false → ∃ t, exec (.smTableRead q 2 i) s = .next t
    ∧ (i ≤ 2 → Answered t q 0x060A stSuccess (fit 832 (nativeImage (2 * i)))) ∧ (2 < i →
    Answered t q 0x060A stInvalidParam []))
  ∧ (∀ (s : State) (q : Req) (c : Nat) (v : BitVec 64), MailRuns s q vMb0 (sC + sNp) false false → c < 4096 →
    isStepCounter s c = false → ∃ t, exec (.fenceSet q c v) s = .next t ∧ Answered t q 0x060B stSuccess []
    ∧ fenceVal t c = v.toNat ∧ (∀ d, d ≠ c → fenceVal t d = fenceVal s d))
  ∧ (∀ (s : State) (q : Req) (a n : Nat), MailRuns s q vMb0 (sC + sNp + sR) false false → 1 ≤ n → n ≤ 512 →
    a + n ≤ 4096 → ∃ t, exec (.fenceRead q a n) s = .next t
    ∧ Answered t q 0x060C stSuccess ((List.range n).flatMap (fun i => le 8 (fenceVal s (a + i))))
    ∧ t.fences = s.fences)
  ∧ (∀ (s : State) (q : Req) (b : BarrierParams), MailRuns s q vMb0 sC false false → barrierOk b = true →
    (b.barrier = 0 → s.stepSet = none) → ∃ t, exec (.barrierConfig q b) s = .next t
    ∧ Answered t q 0x060D stSuccess []
    ∧ getBarrier t b.barrier =
      { configured := true, root := b.root, members := b.members, localCount := b.localCount, arrCh := b.arrCh, relCh := b.relCh })

/-- The step conductor's commands complete (R117 to R123, R129 to R135, R249, R261 to R263, R321). -/
def Obligations.StepCommandsComplete : Prop :=
  (∀ (s : State) (p : StepSetParams) (pool : PoolParams) (l : List SeqPlace), mayForm (learnMembers s) = true →
    limitsOf s = some p → s.fennel.pool = some pool → stages p (admitSeqs (learnMembers s)) = l → l ≠ [] →
    (∀ x ∈ l, x.chunk = 0) → ringsHaveRoom (admitSeqs (learnMembers s)) (placeRecs pool 0 l) = true →
    ∃ t, exec (.stepForm) s = .next t ∧ (∃ r, t.cond.current = some r ∧ r.step = s.cond.nextStep ∧ r.rerunCount = 0
    ∧ r.recs = placeRecs pool 0 l ∧ r.notices = s.cond.notices) ∧ t.cond.forming = none ∧ t.cond.notices = [])
  ∧ (∀ (s : State) (p : StepSetParams) (pool : PoolParams) (l : List SeqPlace), mayForm (learnMembers s) = true →
    limitsOf s = some p → s.fennel.pool = some pool → stages p (admitSeqs (learnMembers s)) = l →
    (∃ x ∈ l, x.chunk ≠ 0) → ringsHaveRoom (admitSeqs (learnMembers s)) (placeRecs pool 0 l) = true →
    ∃ t, exec (.stepForm) s = .next t ∧ (∃ r, t.cond.forming = some r ∧ r.step = s.cond.nextStep
    ∧ r.recs = placeRecs pool 0 l ∧ r.notices = s.cond.notices) ∧ t.cond.current = none ∧ t.cond.prompts ≠ [])
  ∧ (∀ (s : State) (m : Nat) (h : StepHeader), s.host.filter = [] → fromManager s m = true → s.stepSet ≠ none →
    m = ownId s ∨ (getChan s (chanKey m 0)).state = .opened ∨ (getChan s (chanKey m 0)).state = .closing →
    headerOk s h = true → ∃ t, exec (.msgStepHeader m h) s = .next t ∧ t.cond.hdrSeen = some h
    ∧ t.cond.toksSeen = none ∧ t.cond.bound = s.cond.bound)
  ∧ (∀ (s : State) (m : Nat) (h : StepHeader), s.host.filter = [] → fromManager s m = true → s.stepSet ≠ none →
    m = ownId s ∨ (getChan s (chanKey m 0)).state = .opened ∨ (getChan s (chanKey m 0)).state = .closing →
    headerOk s h = false → ∃ t, exec (.msgStepHeader m h) s = .next t ∧ t.cond.hdrSeen = none
    ∧ t.cond.toksSeen = none ∧ t.es.lastFault = 7 ∧ t.cond.bound = s.cond.bound)
  ∧ (∀ (s : State) (m : Nat) (l : List Nat) (h : StepHeader), s.host.filter = [] → fromManager s m = true →
    s.stepSet ≠ none →
    m = ownId s ∨ (getChan s (chanKey m 0)).state = .opened ∨ (getChan s (chanKey m 0)).state = .closing →
    s.cond.hdrSeen = some h → l.length = h.tokenCount → ∃ t, exec (.msgTokenList m l) s = .next t
    ∧ t.cond.bound = some h ∧ t.cond.boundToks = l ∧ t.cond.hdrSeen = none
    ∧ t.cond.lastRun = some (h.step, h.rerunCount))
  ∧ (∀ (s : State) (m : Nat) (l : List Nat), s.host.filter = [] → fromManager s m = true → s.stepSet ≠ none →
    m = ownId s ∨ (getChan s (chanKey m 0)).state = .opened ∨ (getChan s (chanKey m 0)).state = .closing →
    ∃ t, exec (.msgTokenList m l) s = .next t ∧ (s.cond.hdrSeen = none → t.cond.toksSeen = some l)
    ∧ (∀ h, s.cond.hdrSeen = some h → l.length ≠ h.tokenCount → t.es.lastFault = 7 ∧ t.cond.bound = s.cond.bound))
  ∧ (∀ (s : State) (m n : Nat) (l : List TokenReport) (x : EngStatus) (r : RetStep), isManager s = true →
    jobMember s m = true →
    m = ownId s ∨ (getChan s (chanKey m 1)).state = .opened ∨ (getChan s (chanKey m 1)).state = .closing →
    s.cond.current = some r → r.step = n → s.cond.abort = none → ∃ t, exec (.msgResult m n l x) s = .next t
    ∧ t.cond.results = s.cond.results ++ l.map (fun y => (m, y)) ∧ t.cond.stepStatus = engMerge s.cond.stepStatus x
    ∧ t.cond.current = s.cond.current)
  ∧ (∀ (s : State) (m n code id tile : Nat) (r : RetStep) (j : Job), s.job = some j → isManager s = true →
    jobMember s m = true →
    m = ownId s ∨ (getChan s (chanKey m 1)).state = .opened ∨ (getChan s (chanKey m 1)).state = .closing →
    s.stepSet ≠ none → s.cond.current = some r → r.step = n → s.cond.nextStep ≤ n → s.cond.abort = none →
    ∃ t, exec (.msgFault m n code id tile) s = .next t ∧ t.cond.abort = some ⟨n, code, j.members⟩
    ∧ t.cond.results = [] ∧ t.es.lastFault = code ∧ t.es.lastTask = id)
  ∧ (∀ (s : State) (m n code id tile : Nat), isManager s = true → jobMember s m = true →
    m = ownId s ∨ (getChan s (chanKey m 1)).state = .opened ∨ (getChan s (chanKey m 1)).state = .closing →
    n < s.cond.nextStep → ∃ t, exec (.msgFault m n code id tile) s = .next t
    ∧ t.es.lateFault = satAdd 32 s.es.lateFault 1 ∧ t.cond = s.cond)
  ∧ (∀ (s : State) (n code : Nat) (j : Job), s.job = some j →
    j.manager = ownId s ∨ (getChan s (chanKey j.manager 0)).state = .opened ∨ (getChan s (chanKey j.manager 0)).state
      = .closing → n = s.cond.committed → s.cond.abortedStep ≠ some n → s.cond.abortingStep = none →
    ∃ t, exec (.msgAbort n code) s = .next t ∧ t.cond.abortingStep = some (n, code)
    ∧ t.cond.committed = s.cond.committed ∧ (∀ i k, i < 8 → (getTask s i k).source = .stepSet →
    (getTask s i k).phase ≠ .parked → (getTask t i k).phase = .faulted))
  ∧ (∀ (s : State) (n code : Nat) (j : Job) (f : StepSetParams), s.host.filter = [] → s.job = some j →
    limitsOf s = some f → s.cond.abortingStep = some (n, code) → stepPackets s = false →
    ∃ t, exec (.abortPacketsSettled) s = .next t ∧ t.cond.abortedStep = some n ∧ t.cond.abortingStep = none
    ∧ t.cond.bound = none ∧ (liveRun s ≠ none → ∀ c ∈ f.counters, fenceVal t c = stepBase s c % 2 ^ 64))
  ∧ (∀ (s : State) (m n : Nat) (x : AbortState), isManager s = true → jobMember s m = true →
    m = ownId s ∨ (getChan s (chanKey m 1)).state = .opened ∨ (getChan s (chanKey m 1)).state = .closing →
    s.cond.abort = some x → x.step = n → ∃ t, exec (.msgAbortDone m n) s = .next t
    ∧ t.cond.abort = some { x with waitDone := x.waitDone.filter (· != m) } ∧ t.cond.current = s.cond.current)
  ∧ (∀ (s : State) (x : AbortState) (r : RetStep), s.cond.abort = some x → s.cond.current = some r →
    mayRerun s x = true → ∃ t, exec (.stepRerun) s = .next t ∧ t.cond.abort = none
    ∧ t.cond.current = some { r with rerunCount := (r.rerunCount + 1) % 256 } ∧ t.cond.results = []
    ∧ t.cond.nextStep = s.cond.nextStep)
  ∧ (∀ (s : State) (r : RetStep), s.host.filter = [] → isManager s = true → s.cond.current = some r →
    s.cond.abort = none → stepComplete s = true → ∃ t, exec (.stepCommit) s = .next t ∧ t.cond.nextStep = r.step + 1
    ∧ t.cond.current = none ∧ (s.cond.committed ≤ r.step → t.cond.committed = r.step + 1) ∧ t.cond.aborts = 0
    ∧ t.cond.lastNotices = r.notices ∧ t.cond.results = [])
  ∧ (∀ (s : State) (n : Nat) (l : List PageNotice) (j : Job), s.host.filter = [] → s.job = some j →
    j.manager = ownId s ∨ (getChan s (chanKey j.manager 0)).state = .opened ∨ (getChan s (chanKey j.manager 0)).state
      = .closing → s.cond.committed ≤ n → ∃ t, exec (.msgCommit n l) s = .next t ∧ t.cond.committed = n + 1
    ∧ t.cond.ownReports = [])
  ∧ (∀ (s : State) (n : Nat) (l : List PageNotice), s.host.filter = [] → s.job ≠ none → n < s.cond.committed →
    ∃ t, exec (.msgCommit n l) s = .next t ∧ t.cond.committed = s.cond.committed ∧ t.fennel = s.fennel
    ∧ t.pkg.bytes = s.pkg.bytes)
  ∧ (∀ (s : State) (tile : Nat) (p : PoolParams) (a b c e : Nat) (ws : List FoldWork), s.host.filter = [] →
    s.fennel.pool = some p → (getEngine s tile 6 0).busy = false → workOf s tile = .entry a b c e :: ws →
    ptAddr p a b c % 64 ≤ 60 → ∃ t, exec (.fennelBackground tile) s = .next t ∧ workOf t tile = ws
    ∧ memRead t.pkg.bytes (cwOf s (ptAddr p a b c) * 64 + ptAddr p a b c % 64) 4 = le 4 (overlayPte (fnWord e 16
      (clearTouch s)).1.1))
  ∧ (∀ (s : State) (tile g : Nat) (p : PoolParams) (gs : List Nat), s.host.filter = [] → s.fennel.pool = some p →
    (getEngine s tile 6 0).busy = false → workOf s tile = [] → deadOf s tile = g :: gs →
    (fnWord (pdAddr p g + 8) 8 (clearTouch s)).1.1 < s.fennel.committed →
    ∃ t, exec (.fennelBackground tile) s = .next t ∧ deadOf t tile = gs ∧ freeHeadOf t tile = g + 1)

/-- PEPPER's commands complete (R52, R53, R57 to R61, R73, R82, R93 to R106). -/
def Obligations.TaskCommandsComplete : Prop :=
  (∀ (s u : State) (tile : Nat) (w : Waiting) (d : DescWord) (ops : List OpWord) (compat : Bool), s.host.filter = [] →
    (getTile s tile).tasks.length < 64 → nextAdmit (clearTouch s) tile = (some w, u) →
    (admission tile w.addr none (modTile u tile (fun x => { x with queue := x.queue.erase w }))).1 = (d, .accepted
      ops compat) → ∃ t, exec (.taskAdmit tile) s = .next t
    ∧ getTask t tile (getTile s tile).nextTask =
      { desc := d, addr := w.addr, source := w.source, order := (getTile s tile).nextTask, ops := ops, compat := compat }
    ∧ (getTile t tile).queue = (getTile s tile).queue.erase w ∧ (getTile t tile).pll = true)
  ∧ (∀ (s u : State) (tile code ix : Nat) (w : Waiting) (d : DescWord), s.host.filter = [] →
    (getTile s tile).tasks.length < 64 → nextAdmit (clearTouch s) tile = (some w, u) →
    (admission tile w.addr none (modTile u tile (fun x => { x with queue := x.queue.erase w }))).1 = (d, .refuse code
      ix) → ∃ t, exec (.taskAdmit tile) s = .next t ∧ (getTile t tile).queue = (getTile s tile).queue.erase w
    ∧ (getTile t tile).tasks = (getTile s tile).tasks ∧ t.es.refused = satAdd 32 s.es.refused 1)
  ∧ (∀ (s : State) (tile k : Nat), isResident s tile k = true → (getTask s tile k).phase = .waiting →
    allWaitsMet s (getTask s tile k) = true → ((getTask s tile k).source = .stepSet → s.cond.bound ≠ none) →
    ∃ t, exec (.taskEligible tile k) s = .next t ∧ getTask t tile k = { getTask s tile k with phase := .active }
    ∧ t.fences = s.fences ∧ t.out = s.out)
  ∧ (∀ (s u : State) (tile k : Nat) (x : Task), s.host.filter = [] → (getTile s tile).window.length < 256 →
    (fillTask s tile).map (·.1) = some k → readBlock tile k (clearTouch s) = u → getTask u tile k = x →
    (rereadOp tile x x.pos u).2.1 = 0 → ¬ (opClass (rereadOp tile x x.pos u).1 = 8
    ∧ opCode (rereadOp tile x x.pos u).1 = 0x20) →
    fillTask (fillOp tile k (clearTouch s)) tile = none ∨ (getTile s tile).window.length = 255 →
    ∃ t, exec (.opWindowFill tile) s = .next t ∧ (∃ e ∈ (getTile t tile).window, e.uid = (getTile s tile).nextUid
    ∧ e.task = k ∧ e.opIndex = x.pos ∧ e.op = (rereadOp tile x x.pos u).1 ∧ e.state = .unissued)
    ∧ (getTile t tile).window.length = (getTile s tile).window.length + 1)
  ∧ (∀ (s : State) (tile cls i : Nat) (e : Entry), s.host.filter = [] → poisonedOp s tile cls = none → (cls = 5 →
    recordPoisoned s tile = none ∧ recordOp s tile = none) → pickOp s tile cls = some e → opChanFault s tile e = 0 →
    freeInst s tile cls = some i → ∃ t, exec (.opIssue tile cls) s = .next t ∧ (getEngine t tile cls i).busy = true
    ∧ (getEngine t tile cls i).running = true ∧ (getEngine t tile cls i).uid = e.uid
    ∧ (∀ g ∈ granulesOf (entryOuts s tile e), outClaim t g.1 g.2 = ownerOp tile e.uid)
    ∧ (∃ x, findEntry t tile e.uid = some x ∧ x.state = .issued))
  ∧ (∀ (s : State) (tile cls : Nat) (e : Entry), s.host.filter = [] → poisonedOp s tile cls = some e →
    (getTask s tile e.task).phase = .active → ∃ t, exec (.opIssue tile cls) s = .next t ∧ t.es.lastFault = 2
    ∧ (∀ x ∈ (getTile t tile).window, x.task = e.task → x.state = .issued))
  ∧ (∀ (s : State) (tile uid : Nat) (e : Entry), findEntry s tile uid = some e → e.state = .unissued →
    e.ready = true ∨ opReady s tile e = true → ∃ t, exec (.issueAgePromote tile uid) s = .next t
    ∧ findEntry t tile uid = some { e with promoted := true } ∧ t.slots = s.slots)
  ∧ (∀ (s : State) (tile : Nat), ∃ t, exec (.cuminGroupStart tile) s = .next t
    ∧ (getTile t tile).groups = (((getTile s tile).window.filter (·.group)).take 3).length
    ∧ (∀ e ∈ ((getTile s tile).window.filter (·.group)).take 3, ∀ x ∈ (getTile t tile).window, x.uid = e.uid →
    x.group = false))
  ∧ (∀ (s : State) (tile cls inst : Nat), engineHasOp s tile cls inst = false →
    ∃ t, exec (.engineClockStop tile cls inst) s = .next t
    ∧ getEngine t tile cls inst = { getEngine s tile cls inst with running := false }
    ∧ (getTile t tile).window = (getTile s tile).window)
  ∧ (∀ (s : State) (tile : Nat), (getTile s tile).tasks = [] → ∃ t, exec (.tilePllOff tile) s = .next t
    ∧ (getTile t tile).pll = false ∧ (∀ c i, (getEngine t tile c i).running = false))

/-- The control ops complete (R44, R97, R113, R124 to R127, R141, R143, R144, R147, R150, R152). -/
def Obligations.ControlOpsComplete : Prop :=
  (∀ (s : State) (tile uid : Nat) (e : Entry), CtlStands s tile uid e 0 0 → ∃ t, exec (.noOp tile uid) s = .next t
    ∧ findEntry t tile uid = none ∧ t.pkg = s.pkg ∧ t.slots = s.slots)
  ∧ (∀ (s : State) (tile uid : Nat) (e : Entry), CtlStands s tile uid e 8 1 →
    ∃ t, exec (.ctlFenceWait tile uid) s = .next t ∧ (opWaitMet s e = true → findEntry t tile uid = none)
    ∧ (opWaitMet s e = false → findEntry t tile uid = some { e with state := .issued } ∧ t.fences = s.fences)
    ∧ t.pkg = s.pkg ∧ t.slots = s.slots)
  ∧ (∀ (s : State) (tile uid : Nat) (e : Entry), CtlStands s tile uid e 8 1 → e.state = .issued →
    opWaitMet s e = true → ∃ t, exec (.fenceWaitRelease tile uid) s = .next t ∧ findEntry t tile uid = none
    ∧ t.pkg = s.pkg ∧ t.slots = s.slots)
  ∧ (∀ (s : State) (tile uid : Nat) (e : Entry), CtlStands s tile uid e 8 2 → earlierDone s tile e = true →
    ∃ t, exec (.ctlFenceSignal tile uid) s = .next t ∧ findEntry t tile uid = none
    ∧ (GoesOn s tile e.task (getTask s tile e.task).pos →
    fenceVal t (oF e.op 20 2 % 4096) = min (fenceVal s (oF e.op 20 2 % 4096) + oF e.op 24 4) (2 ^ 64 - 1))
    ∧ t.pkg = s.pkg ∧ t.slots = s.slots)
  ∧ (∀ (s : State) (tile uid k : Nat) (e : Entry), findEntry s tile uid = some e → opClass e.op = 8 →
    opCode e.op = 3 → e.state = .unissued → tileHeld s tile = false → earlierDone s tile e = true →
    generalKey s (oF e.op 22 2 % 4096) = some k → (getChan s k).state = .opened →
    ∃ t, exec (.ctlFenceSignalRemote tile uid) s = .next t ∧ (∃ r ∈ (getChan t k).retained, r.op = 0x05
    ∧ r.owner = opOwner tile uid ∧ r.pkt.aux = oF e.op 20 2 % 4096 + 2 ^ 32 * oF e.op 24 4)
    ∧ findEntry t tile uid = some { e with state := .issued, ended := true, sent := e.sent + 1 }
    ∧ t.fences = s.fences)
  ∧ (∀ (s : State) (tile uid : Nat) (e : Entry), CtlStands s tile uid e 8 4 → arriveReady s (oF e.op 20 1) = true →
    oF e.op 20 1 ≠ 0 ∨ s.cond.current = none → ∃ t, exec (.ctlBarrierArrive tile uid) s = .next t
    ∧ findEntry t tile uid = none
    ∧ ((getBarrier s (oF e.op 20 1)).arrivals + 1 < (getBarrier s (oF e.op 20 1)).localCount →
    (getBarrier t (oF e.op 20 1)).arrivals = (getBarrier s (oF e.op 20 1)).arrivals + 1
    ∧ (getBarrier t (oF e.op 20 1)).cur = (getBarrier s (oF e.op 20 1)).cur)
    ∧ ((getBarrier s (oF e.op 20 1)).localCount ≤ (getBarrier s (oF e.op 20 1)).arrivals + 1 →
    (getBarrier t (oF e.op 20 1)).arrivals = 0
    ∧ (getBarrier t (oF e.op 20 1)).cur = (getBarrier s (oF e.op 20 1)).cur + 1))
  ∧ (∀ (s : State) (tile uid : Nat) (e : Entry), CtlStands s tile uid e 8 5 →
    (getBarrier s (oF e.op 20 1)).configured = true → arrivalOpen s tile e = false →
    ∃ t, exec (.ctlBarrierWait tile uid) s = .next t
    ∧ ((getBarrier s (oF e.op 20 1)).done ≤ mapGet 0 (getTask s tile e.task).arrived (oF e.op 20 1) - 1 →
    findEntry t tile uid = some { e with state := .issued } ∧ t.fences = s.fences)
    ∧ (mapGet 0 (getTask s tile e.task).arrived (oF e.op 20 1) - 1 < (getBarrier s (oF e.op 20 1)).done →
    findEntry t tile uid = none)
    ∧ (mapGet 0 (getTask s tile e.task).arrived (oF e.op 20 1) - 1 < (getBarrier s (oF e.op 20 1)).done →
    (getTask s tile e.task).phase = .active →
    mapGet 0 (getBarrier s (oF e.op 20 1)).fails (mapGet 0 (getTask s tile e.task).arrived (oF e.op 20 1) - 1) ≠ 0 →
    t.es.lastFault = mapGet 0 (getBarrier s (oF e.op 20 1)).fails (mapGet 0 (getTask s tile e.task).arrived (oF e.op
      20 1) - 1)))
  ∧ (∀ (s : State) (tile uid : Nat) (e : Entry), CtlStands s tile uid e 8 0x10 →
    ∃ t, exec (.ctlStepLoop tile uid) s = .next t ∧ findEntry t tile uid = none
    ∧ (GoesOn s tile e.task (getTask s tile e.task).pos →
    (getTask t tile e.task).loops = ⟨e.opIndex + 1, (loopInfo e.op).unit, (loopInfo e.op).stride, (loopInfo
      e.op).adv, 0, loopItems s (loopInfo e.op) ((getTask s tile e.task).loops.head?.map loopItem)⟩ :: (getTask s
      tile e.task).loops) ∧ t.pkg = s.pkg)
  ∧ (∀ (s : State) (tile uid : Nat) (e : Entry) (l : Loop) (ls : List Loop), CtlStands s tile uid e 8 0x11 →
    (getTask s tile e.task).loops = l :: ls → ∃ t, exec (.ctlStepLoopEnd tile uid) s = .next t
    ∧ findEntry t tile uid = none ∧ (loopLast l = true → GoesOn s tile e.task (getTask s tile e.task).pos →
    (getTask t tile e.task).loops = ls) ∧ (loopLast l = false → GoesOn s tile e.task l.startPos →
    (getTask t tile e.task).loops = { l with iter := l.iter + 1 } :: ls ∧ (getTask t tile e.task).pos = l.startPos))

/-- The ops of the four slot engines complete (R76, R77, R82, R187, R214, R272, R308); `engineWork` names what each
computes by its rules. -/
def Obligations.EngineOpsComplete : Prop :=
  (∀ (s : State) (tile uid cls code : Nat) (e : Entry) (c : Instr), (c, cls, code) ∈ [(.cmMm tile uid false, 1, 1),
      (.sfAttnFwd tile uid false, 2, 1), (.sfAttnBwd tile uid false, 2, 2), (.sfMerge tile uid false, 2, 3), (.sfRope
      tile uid false, 2, 4), (.anSample tile uid false, 4, 1), (.anVerify tile uid false, 4, 2)] →
    running s tile uid cls code = some e → (engineWork cls code tile e s).2.1 = false →
    inputBad (engineWork cls code tile e s).2.2 tile e = false → ∃ t, exec (c) s = .next t ∧ OpDone s t tile uid e
    ∧ SlotBytes t (engineWork cls code tile e s).2.2 ∧ ((getTask s tile e.task).phase = .active →
    (getTask t tile e.task).status = engMerge (getTask s tile e.task).status (engineWork cls code tile e s).1)
    ∧ t.pkg = s.pkg)
  ∧ (∀ (s : State) (tile uid code : Nat) (e : Entry) (c : Instr), (c, code) ∈ [(.smAdd tile uid false, 1), (.smMul
      tile uid false, 2), (.smMax tile uid false, 3), (.smMin tile uid false, 4), (.smCmp tile uid false, 5),
      (.smSelect tile uid false, 6), (.smConvert tile uid false, 7), (.smFunc tile uid false, 8), (.smGate tile uid
      false, 9), (.smRowsum tile uid false, 10), (.smRowmax tile uid false, 11), (.smRowdot tile uid false, 12),
      (.smRmsnorm tile uid false, 13), (.smLayernorm tile uid false, 14), (.smSoftmax tile uid false, 15)] →
    running s tile uid 3 code = some e → (engineWork 3 code tile e s).2.1 = false →
    inputBad (engineWork 3 code tile e s).2.2 tile e = false → ∃ t, exec (c) s = .next t ∧ OpDone s t tile uid e
    ∧ SlotBytes t (engineWork 3 code tile e s).2.2 ∧ ((getTask s tile e.task).phase = .active →
    (getTask t tile e.task).status = engMerge (getTask s tile e.task).status (engineWork 3 code tile e s).1)
    ∧ t.pkg = s.pkg)
  ∧ (∀ (s : State) (tile uid cls code : Nat) (e : Entry) (c : Instr), (c, cls, code) ∈ [(.cmMm tile uid false, 1, 1),
      (.sfAttnFwd tile uid false, 2, 1), (.sfAttnBwd tile uid false, 2, 2), (.sfMerge tile uid false, 2, 3), (.sfRope
      tile uid false, 2, 4), (.smAdd tile uid false, 3, 1), (.smMul tile uid false, 3, 2), (.smMax tile uid false, 3,
      3), (.smMin tile uid false, 3, 4), (.smCmp tile uid false, 3, 5), (.smSelect tile uid false, 3, 6), (.smConvert
      tile uid false, 3, 7), (.smFunc tile uid false, 3, 8), (.smGate tile uid false, 3, 9), (.smRowsum tile uid
      false, 3, 10), (.smRowmax tile uid false, 3, 11), (.smRowdot tile uid false, 3, 12), (.smRmsnorm tile uid
      false, 3, 13), (.smLayernorm tile uid false, 3, 14), (.smSoftmax tile uid false, 3, 15), (.anSample tile uid
      false, 4, 1), (.anVerify tile uid false, 4, 2)] → running s tile uid cls code = some e →
    (engineWork cls code tile e s).2.1 = true ∨ inputBad (engineWork cls code tile e s).2.2 tile e = true →
    ∃ t, exec (c) s = .next t ∧ findEntry t tile uid = none ∧ SlotBytes t (engineWork cls code tile e s).2.2
    ∧ (∀ k g, getTag t k g = getTag (engineWork cls code tile e s).2.2 k g)
    ∧ ((getTask s tile e.task).phase = .active → t.es.lastFault = 2))

/-- CLOVE's and FENNEL's ops complete (R248 to R258, R327 to R347, R412, R633). -/
def Obligations.TransferOpsComplete : Prop :=
  (∀ (s : State) (tile uid code : Nat) (e : Entry) (c : Instr), (c, code) ∈ [(.clCopy tile uid false, 1), (.clGather
      tile uid false, 2), (.clScatter tile uid false, 3), (.clTranspose tile uid false, 4), (.clFill tile uid false,
      5)] → s.host.filter = [] → running s tile uid 5 code = some e → e.fault = 0 → clDataReady s tile e = true →
    placeKey (clDstPlace s tile e) = none → (clLocal tile e (clearTouch s)).1 = false →
    inputBad (clLocal tile e (clearTouch s)).2 tile e = false → ∃ t, exec (c) s = .next t ∧ OpDone s t tile uid e
    ∧ SlotBytes t (clLocal tile e (clearTouch s)).2 ∧ PkgData t (clLocal tile e (clearTouch s)).2)
  ∧ (∀ (s : State) (tile uid code k : Nat) (e : Entry) (c : Instr), (c, code) ∈ [(.clCopy tile uid false, 1),
      (.clGather tile uid false, 2), (.clScatter tile uid false, 3), (.clTranspose tile uid false, 4), (.clFill tile
      uid false, 5)] → s.host.filter = [] → running s tile uid 5 code = some e → e.fault = 0 →
    clDataReady s tile e = true → placeKey (clDstPlace s tile e) = some k →
    (clRead tile e (clearTouch s)).1.any anyBad = false →
    0 < e.sent + (farPackets (clDstPlace s tile e) (clOuts tile e (clearTouch s))).length → ∃ t, exec (c) s = .next t
    ∧ findEntry t tile uid = some
      { e with ended := true, sent := e.sent + (farPackets (clDstPlace s tile e) (clOuts tile e (clearTouch s))).length }
    ∧ ((getEngine s tile 5 e.inst).uid = uid → (getEngine t tile 5 e.inst).busy = false) ∧ PkgData t s)
  ∧ (∀ (s : State) (tile uid : Nat) (e : Entry) (p : PoolParams), s.host.filter = [] →
    running s tile uid 5 6 = some e → reqsPending s tile uid = false → s.fennel.pool = some p →
    kvFits p (entryOp s e) = true → (kvPeek s p (kvListTile tile (entryOp s e)) (kvList (entryOp s e))).2 = false →
    kvNeed (entryOp s e) 0 (kvPeek s p (kvListTile tile (entryOp s e)) (kvList (entryOp s e))).1 ≤ 64 * kvPstride
      (entryOp s e) →
    (kvGather tile e p (kvPeek s p (kvListTile tile (entryOp s e)) (kvList (entryOp s e))).1 (clearTouch s)).2.1 =
      false →
    inputBad (kvGather tile e p (kvPeek s p (kvListTile tile (entryOp s e)) (kvList (entryOp s e))).1 (clearTouch
      s)).2.2 tile e = false → ∃ t, exec (.clKvGather tile uid false) s = .next t ∧ OpDone s t tile uid e
    ∧ SlotBytes t (kvGather tile e p (kvPeek s p (kvListTile tile (entryOp s e)) (kvList (entryOp s e))).1
      (clearTouch s)).2.2 ∧ PkgData t s)
  ∧ (∀ (s : State) (tile uid : Nat) (e : Entry) (p : PoolParams), s.host.filter = [] →
    running s tile uid 5 7 = some e → reqsPending s tile uid = false → s.fennel.pool = some p →
    kvFits p (entryOp s e) = true → (kvPeek s p (kvListTile tile (entryOp s e)) (kvList (entryOp s e))).2 = false →
    kvNeed (entryOp s e) 1 (kvPeek s p (kvListTile tile (entryOp s e)) (kvList (entryOp s e))).1 ≤ 64 * kvPstride
      (entryOp s e) →
    (kvAppend tile e p (kvPeek s p (kvListTile tile (entryOp s e)) (kvList (entryOp s e))).1 (clearTouch s)).2.1 =
      false →
    inputBad (kvAppend tile e p (kvPeek s p (kvListTile tile (entryOp s e)) (kvList (entryOp s e))).1 (clearTouch
      s)).2.2 tile e = false → ∃ t, exec (.clKvAppend tile uid false) s = .next t ∧ OpDone s t tile uid e
    ∧ PkgData t (kvAppend tile e p (kvPeek s p (kvListTile tile (entryOp s e)) (kvList (entryOp s e))).1 (clearTouch
      s)).2.2)
  ∧ (∀ (s : State) (tile uid code : Nat) (e : Entry) (c : Instr) (p : PoolParams), (c, code) ∈ [(.fnAppend tile uid
      false, 1), (.fnGather tile uid false, 2)] → s.host.filter = [] → running s tile uid 6 code = some e →
    s.fennel.pool = some p → fnLayersFit p tile (entryOp s e) = true → fnBeyond s tile e p = false →
    (fnBlocks code tile e p (clearTouch s)).noPage = false → (fnStamped code tile e p (clearTouch s)).bad = false →
    inputBad (fnListed code tile e p (clearTouch s)) tile e = false → ∃ t, exec (c) s = .next t
    ∧ OpDone s t tile uid e ∧ PkgData t (fnListed code tile e p (clearTouch s))
    ∧ t.fennel = (fnListed code tile e p (clearTouch s)).fennel)

/-- `MA_ACCUM` completes its sending (R412, R430, R434, R437, R450, R451). -/
def Obligations.AccumulateOpsComplete : Prop :=
  (∀ (s : State) (tile uid key w first : Nat) (e : Entry), tile < 8 → running s tile uid 7 1 = some e →
    maTarget s tile e (entryOp s e) = some (.peer key w first) → (maSend tile e key w first s).1 = 0 →
    ∃ t, exec (.maAccum tile uid false) s = .next t
    ∧ findEntry t tile uid = some { e with ended := true, sent := e.sent + (maPackets (entryOp s e)).length }
    ∧ ((getEngine s tile 7 e.inst).busy = true → (getEngine s tile 7 e.inst).uid = uid →
    (instTaken t tile 7 e.inst = false ↔ ∀ c ∈ t.fabric.chans, ∀ r ∈ c.2.retained, r.owner = opOwner tile uid →
    r.sentOut = true)) ∧ ((getChan t key).openLast = some (opOwner tile uid) →
    (lastOpen t key = false ↔ ∀ c ∈ t.fabric.chans, ∀ r ∈ c.2.retained, r.owner = opOwner tile uid →
    r.sentOut = true)) ∧ PkgData t s)
  ∧ (∀ (s : State) (tile uid w first : Nat) (e : Entry), tile < 8 → 0 < uid → e.fault = 0 →
    running s tile uid 7 1 = some e → maTarget s tile e (entryOp s e) = some (.window w first) →
    maWaits s tile e w = false → (maFold tile e w first s).1 = 0 → ∃ t, exec (.maAccum tile uid false) s = .next t
    ∧ ((getEngine s tile 7 e.inst).uid = uid → (getEngine t tile 7 e.inst).busy = false)
    ∧ allAccums t = allAccums (maFold tile e w first s).2 ∧ ((∃ a ∈ allAccums t, a.stream = maStream tile uid) →
    findEntry t tile uid = some { e with ended := true, sent := 1 })
    ∧ ((∀ a ∈ allAccums t, a.stream ≠ maStream tile uid) → findEntry t tile uid = none))
  ∧ (∀ (s : State) (tile uid dpa : Nat) (e : Entry), tile < 8 → 0 < uid → e.fault = 0 →
    running s tile uid 7 1 = some e → maTarget s tile e (entryOp s e) = some (.memory dpa) →
    (maStore tile e dpa s).1 = 0 → ∃ t, exec (.maAccum tile uid false) s = .next t
    ∧ ((getEngine s tile 7 e.inst).uid = uid → (getEngine t tile 7 e.inst).busy = false)
    ∧ allAccums t = allAccums (maStore tile e dpa s).2 ∧ ((∃ a ∈ allAccums t, a.stream = maStream tile uid) →
    findEntry t tile uid = some { e with ended := true, sent := 1 })
    ∧ ((∀ a ∈ allAccums t, a.stream ≠ maStream tile uid) → findEntry t tile uid = none))

/-- R522: health never returns to an earlier state; a module in FAILED stays FAILED, through every reset and loss of
power. -/
def Obligations.HealthNeverReturns : Prop :=
  ∀ s t : State, step s = .next t → healthCode s.integ.health ≤ healthCode t.integ.health

/-- R497: `FI_MIN_SVN` never decreases. R578: the debug counter is only added to, so that no token works twice. -/
def Obligations.RetainedNumbersNeverFall : Prop :=
  ∀ s t : State, step s = .next t → s.mgmt.minSvn ≤ t.mgmt.minSvn ∧ s.sec.debugCounter ≤ t.sec.debugCounter

/-- R620: each count saturates at 0xFFFF_FFFF, and the counts clear only at power-on. -/
def Obligations.ErrorCountsNeverFall : Prop :=
  (∀ (s t : State) (c : Instr), CountsFit s → exec c s = .next t → CountsFit t ∧ ((∀ us, c ≠ .inputExcursion us) →
    ∀ i < 13, (errorCounts s).getD i 0 ≤ (errorCounts t).getD i 0))
  ∧ (∀ s : State, CountsFit s → CountsFit (tick s)
    ∧ ∀ i < 13, (errorCounts s).getD i 0 ≤ (errorCounts (tick s)).getD i 0)

/-- R618: each bit stays set until software clears it. -/
def Obligations.ErrorBitsStay : Prop :=
  ∀ (s t : State) (c : Instr), s.pending.head? = some c → (∀ us, c ≠ .inputExcursion us) → (∀ b, c ≠ .esBitsW1c b) →
    (∀ o n v, o ∈ [0x7000, 0x7004] → c ≠ .registerWrite false o n v) → step s = .next t →
    s.es.bits &&& t.es.bits = s.es.bits

/-- R140: increments are applied one at a time, each a saturating addition that sets the overflow bit when it
saturates; their order does not matter. -/
def Obligations.FenceIncrementsAdd : Prop :=
  (∀ (s : State) (c : Nat) (l : List Nat), fenceVal (l.foldl (fun a n => fenceAdd c n a) s) c = min (fenceVal s c +
      l.sum) (2 ^ 64 - 1) ∧ (∀ d, d ≠ c → fenceVal (l.foldl (fun a n => fenceAdd c n a) s) d = fenceVal s d)
    ∧ (2 ^ 64 ≤ fenceVal s c + l.sum → bit (l.foldl (fun a n => fenceAdd c n a) s).es.bits.toNat 3 = true))
  ∧ (∀ (s : State) (c : Nat) (l k : List Nat), l.Perm k →
    fenceVal (l.foldl (fun a n => fenceAdd c n a) s) c = fenceVal (k.foldl (fun a n => fenceAdd c n a) s) c)

/-- R353: channel and channel address of a DPA in a tile-local region. -/
def Obligations.TileLocalPlacement : Prop :=
  ∀ (s : State) (dpa : Nat), dpa < 2 ^ 39 → (regionOf s (dpa / 2 ^ 30)).wide = false →
    (regionOf s (dpa / 2 ^ 30)).tile < 8 → (regionOf s (dpa / 2 ^ 30)).slice < 512 →
    cwTile (cwOf s dpa) = (regionOf s (dpa / 2 ^ 30)).tile
    ∧ cwChan (cwOf s dpa) = dpa / 2 ^ 8 % 64 ^^^ dpa / 2 ^ 14 % 64 ^^^ dpa / 2 ^ 20 % 64 ^^^ dpa / 2 ^ 26 % 64 ^^^
      dpa / 2 ^ 32 % 64
    ∧ cwAddr (cwOf s dpa) = (((regionOf s (dpa / 2 ^ 30)).slice * 8192 + dpa / 2 ^ 14 % 2 ^ 16) * 256 + dpa % 256) /
      64 * 64

/-- R351: as long as software has set no region, DPA[38:36] names the tile; and the placement loses nothing. -/
def Obligations.DefaultPlacement : Prop :=
  (∀ (s : State) (i : Nat), s.pkg.regions = [] → i < 512 → (regionOf s i).wide = false ∧ (regionOf s i).tile = i / 64
    ∧ (regionOf s i).slice = i % 64 * 8)
  ∧ (∀ (s : State) (a : Nat), s.pkg.regions = [] → a < 2 ^ 39 → cwTile (cwOf s a) = a / 2 ^ 36)
  ∧ (∀ (s : State) (a b : Nat), s.pkg.regions = [] → a < 2 ^ 39 → b < 2 ^ 39 → a / 64 ≠ b / 64 → cwOf s a ≠ cwOf s b)

/-- R68: the bank of a tile-absolute line. -/
def Obligations.BankOfLine : Prop :=
  ∀ (line i : Nat), i < 8 →
    (bankOf line).testBit i = ((line.testBit i).xor (line.testBit (i + 8))).xor (decide (i < 5) && line.testBit (i +
      16)) ∧ bankOf line < 256

/-- R171, over whole rows: every element that a block with scale code 0xFF holds. -/
def Obligations.NanScaleReadsNan : Prop :=
  ∀ (fmt blk i : Nat) (scs cs : List Nat), i < cs.length → scs.getD (i / blk) 0 = 0xFF →
    (decodeRow fmt true blk scs cs)[i]? = some .nan

/-- R164, for the decoder that every operand goes through and for operand C. -/
def Obligations.ZeroExponentsReadZero : Prop :=
  (∀ fmt e m c : Nat, (fmt, e, m) ∈ [(0, 8, 23), (1, 8, 7), (2, 5, 10), (3, 4, 3), (4, 5, 2)] → c < 2 ^ (1 + e + m) →
    c / 2 ^ m % 2 ^ e = 0 → decodeElem fmt c = fzero (decide (2 ^ (e + m) ≤ c)))
  ∧ (∀ c : Nat, c < 2 ^ 32 → c / 2 ^ 23 % 2 ^ 8 = 0 → fp32Val c = fzero (decide (2 ^ 31 ≤ c)))

/-- A conversion rounds only what its destination cannot hold: R160, R162, R176 to R179. -/
def Obligations.ConversionKeepsExactValues : Prop :=
  ∀ fmt c : Nat, fmt < 10 → c < 2 ^ fmtBits fmt → isZero (decodeElem fmt c) = false →
    isNan (decodeElem fmt c) = false → (convElem fmt {} .nearest (decodeElem fmt c)).1 = c

/-- R163: rows of whole packing groups survive packing and unpacking. -/
def Obligations.PackingRoundTrips : Prop :=
  ∀ (w : Nat) (cs : List Nat), w ∈ [4, 6, 8, 16, 32] → cs.length % groupLen w = 0 → (∀ c ∈ cs, c < 2 ^ w) →
    codesOf w cs.length (packCodes w cs) = cs ∧ (packCodes w cs).length = rowBytes w cs.length

/-- R203: the sum is exact, and only its end saturates. -/
def Obligations.IntegerProductsSaturateOnce : Prop :=
  (∀ (xs : List (Int × Int)) (c : Option Int), (cmInteger (xs.map (fun p => mulExact (fvalOfInt p.1) (fvalOfInt
      p.2))) c).val = fvalOfInt (max (-2 ^ 31) (min (2 ^ 31 - 1) (c.getD 0 + (xs.map (fun p => p.1 * p.2)).sum)))
    ∧ (cmInteger (xs.map (fun p => mulExact (fvalOfInt p.1) (fvalOfInt p.2))) c).isat = decide (c.getD 0 + (xs.map
      (fun p => p.1 * p.2)).sum < -2 ^ 31 ∨ 2 ^ 31 - 1 < c.getD 0 + (xs.map (fun p => p.1 * p.2)).sum))
  ∧ (∀ (xs ys : List FVal) (c : Option Int), xs.Perm ys → cmInteger xs c = cmInteger ys c)

/-- R70: what a write to error-free slot memory leaves, byte by byte; tags stay. -/
def Obligations.SlotWritesTouchOnlyTheirBytes : Prop :=
  ∀ (s : State) (who : Nat) (p : SlotAt) (bs : List Byte), SlotsClean s → (wr who p bs (false, s)).1 = false
    ∧ memRead (getSlot (wr who p bs (false, s)).2 p.tile).bytes p.byte bs.length = bs
    ∧ (∀ k a, k ≠ p.tile ∨ a < p.byte ∨ p.byte + bs.length ≤ a →
    memGet (getSlot (wr who p bs (false, s)).2 k).bytes a = memGet (getSlot s k).bytes a)
    ∧ (∀ k g, getTag (wr who p bs (false, s)).2 k g = getTag s k g) ∧ (wr who p bs (false, s)).2.pkg = s.pkg
    ∧ (wr who p bs (false, s)).2.tiles = s.tiles ∧ SlotsClean (wr who p bs (false, s)).2

/-- The frame of the twenty-two slot-engine ops: a store goes to the tile of operand OUT, from its first byte up
(`opndAt`), tags of other granules stay, and nothing beyond the op's own task, window entry, engine and slots changes.
-/
def Obligations.EngineOpsFrame : Prop :=
  ∀ (s t : State) (tile uid cls code : Nat) (e : Entry) (c : Instr), (c, cls, code) ∈ [(.cmMm tile uid false, 1, 1),
      (.sfAttnFwd tile uid false, 2, 1), (.sfAttnBwd tile uid false, 2, 2), (.sfMerge tile uid false, 2, 3), (.sfRope
      tile uid false, 2, 4), (.smAdd tile uid false, 3, 1), (.smMul tile uid false, 3, 2), (.smMax tile uid false, 3,
      3), (.smMin tile uid false, 3, 4), (.smCmp tile uid false, 3, 5), (.smSelect tile uid false, 3, 6), (.smConvert
      tile uid false, 3, 7), (.smFunc tile uid false, 3, 8), (.smGate tile uid false, 3, 9), (.smRowsum tile uid
      false, 3, 10), (.smRowmax tile uid false, 3, 11), (.smRowdot tile uid false, 3, 12), (.smRmsnorm tile uid
      false, 3, 13), (.smLayernorm tile uid false, 3, 14), (.smSoftmax tile uid false, 3, 15), (.anSample tile uid
      false, 4, 1), (.anVerify tile uid false, 4, 2)] → running s tile uid cls code = some e →
    (getTask s tile e.task).phase = .active → inputBad s tile e = false → SlotsClean s → exec c s = .next t →
    (∀ k a, k ≠ (opndAt s tile e 3).tile ∨ a < (opndAt s tile e 3).byte →
    memGet (getSlot t k).bytes a = memGet (getSlot s k).bytes a) ∧ (∀ k g, (k, g) ∉ granulesOf (entryOuts s tile e) →
    (k, g) ∉ consumedOf e (entryIns s tile e) → getTag t k g = getTag s k g)
    ∧ (getTile t tile).window = (getTile s tile).window.filter (fun x => x.uid != uid) ∧ (∀ k, k ≠ e.task →
    getTask t tile k = getTask s tile k) ∧ t.pkg = s.pkg ∧ t.fences = s.fences ∧ t.fabric = s.fabric
    ∧ t.fennel = s.fennel ∧ t.job = s.job ∧ t.stepSet = s.stepSet ∧ t.cascade = s.cascade ∧ t.cfg = s.cfg
    ∧ t.sec = s.sec ∧ t.mgmt = s.mgmt

/-- A frame over all commands: slot memory keeps every byte unless the command is of `mayWriteSlotBytes`. -/
def Obligations.SlotMemoryFrame : Prop :=
  ∀ (c : Instr) (s t : State), mayWriteSlotBytes c = false → exec c s = .next t →
    ∀ k, (getSlot t k).bytes = (getSlot s k).bytes

/-- A frame over all commands: package memory keeps every byte and every poison mark unless the command is of
`mayWritePackage`. -/
def Obligations.PackageMemoryFrame : Prop :=
  ∀ (c : Instr) (s t : State), mayWritePackage c = false → exec c s = .next t → PkgData t s

/-- A frame over all commands: the tiles keep their tasks, issue windows and engines unless the command is of
`mayChangeTiles`. -/
def Obligations.TasksFrame : Prop :=
  ∀ (c : Instr) (s t : State), mayChangeTiles c = false → exec c s = .next t → t.tiles = s.tiles

/-- A frame over all commands: fence counters, step bases and barriers stay unless the command is of `mayChangeFences`
(R139, R148). -/
def Obligations.FencesFrame : Prop :=
  ∀ (c : Instr) (s t : State), mayChangeFences c = false → exec c s = .next t → t.fences = s.fences

/-- A frame over all commands for the state that few of them change. -/
def Obligations.JobTablesAndPoolFrame : Prop :=
  ∀ (c : Instr) (s t : State), exec c s = .next t → (mayChangeJob c = false → t.job = s.job ∧ t.stepSet = s.stepSet)
    ∧ (mayChangeEngineCfg c = false → t.cfg = s.cfg) ∧ (mayChangePool c = false → t.fennel = s.fennel)
    ∧ (mayChangeCascade c = false → t.cascade = s.cascade) ∧ (mayWriteFlash c = false → t.mgmt.flash = s.mgmt.flash)

/-- What the board cascade does without a frame completes (R504 to R506, R600), with all that it changes, and changes
nothing where its condition does not hold. -/
def Obligations.CascadeSlotsComplete : Prop :=
  (∀ (s : State), isMaster s = true → s.life.inputOn = true → s.cascade.masterWaited = false →
    s.cascade.fault = false → s.cascade.nextSlot = 0 →
    exec (.cascadeMasterWait) s = .next
      ({ s with cascade := { s.cascade with masterWaited := true, granted := some 0, nextSlot := 1, grants := s.cascade.grants + 1, ownGrant := some s.cascade.grants, ramping := !s.life.ramped } }))
  ∧ (∀ (s : State), (isMaster s = false ∨ s.life.inputOn = false ∨ s.cascade.masterWaited = true ∨ s.cascade.fault =
      true) → exec (.cascadeMasterWait) s = .next (s))
  ∧ (∀ (s : State) (p q : Nat), isMaster s = true → s.cascade.granted = some p → s.cascade.nextSlot = q → 1 ≤ q →
    q ≤ 3 → saidHello s q = true →
    exec (.rampSlotExpire) s = .next
      ({ s with cascade := { s.cascade with absent := s.cascade.absent ++ [p], ramping := s.cascade.ramping && p != 0, granted := some q, nextSlot := q + 1, grants := s.cascade.grants + 1 }, out := s.out ++ [cascadeOut 2 (cfAddr q 0 false) [s.cascade.grants]] }))
  ∧ (∀ (s : State) (p : Nat), isMaster s = true → s.cascade.granted = some p → 4 ≤ s.cascade.nextSlot →
    s.cascade.haveTable = false → s.cascade.fault = false → ∃ t, exec (.rampSlotExpire) s = .next t
    ∧ t.cascade.haveTable = true ∧ t.cascade.granted = none ∧ t.cascade.absent = s.cascade.absent ++ [p]
    ∧ (∀ q < 4, mapGet {} t.cascade.table q = if saidHello s q && !(s.cascade.absent ++ [p]).contains q then ⟨true,
      serialAt s q⟩ else {})
    ∧ (∃ x, t.out = s.out ++ [0, 1, 2, 3].map (fun q => cascadeOut 4 (cfAddr 0 0 true) [q, (mapGet {} t.cascade.table
      q).present.toNat, (mapGet {} t.cascade.table q).serial]) ++ (List.range 64).map (fun i => cascadeOut 5 (cfAddr
      0 0 true) [i, x])))
  ∧ (∀ (s : State), isMaster s = true → s.cascade.granted = none → exec (.rampSlotExpire) s = .next (s))
  ∧ (∀ (s : State), isMaster s = false → s.cascade.ramping = true → s.cascade.ownGrant.isSome = true →
    s.cascade.absent.contains s.life.pos = false →
    exec (.rampSlotExpire) s = .next
      ({ s with cascade := { s.cascade with ramping := false, absent := s.cascade.absent ++ [s.life.pos] } }))
  ∧ (∀ (s : State), isMaster s = false → (s.cascade.ramping = false ∨ s.cascade.ownGrant = none) →
    exec (.rampSlotExpire) s = .next (s))
  ∧ (∀ (s : State), s.life.inputOn = true → isMaster s = false → s.cascade.ownGrant = none → s.life.ramped = false →
    s.cascade.fault = false → ∃ t, exec (.cascadeGrantTimeout) s = .next t
    ∧ t.cascade = { s.cascade with fault := true, table := [], haveTable := false } ∧ t.life = s.life
    ∧ bit t.es.bits.toNat 13 = true ∧ t.integ.log1 ≠ []
    ∧ (∃ c, t.out.getLast? = some (cascadeOut 7 (cfAddr 0 s.life.pos false) [c])))
  ∧ (∀ (s : State), (s.life.inputOn = false ∨ isMaster s = true ∨ s.cascade.ownGrant ≠ none ∨ s.life.ramped = true ∨
      s.cascade.fault = true) → exec (.cascadeGrantTimeout) s = .next (s))
  ∧ (∀ (s : State), s.life.inputOn = true → s.life.ramped = false →
    (s.cascade.fault = true ∨ s.life.pos ∈ s.cascade.absent) →
    exec (.cascadeSoloRamp) s = .next ({ s with cascade := { s.cascade with ramping := true } }))
  ∧ (∀ (s : State), (s.life.inputOn = false ∨ s.life.ramped = true ∨ (s.cascade.fault = false
    ∧ s.life.pos ∉ s.cascade.absent)) → exec (.cascadeSoloRamp) s = .next (s))
  ∧ (∀ (s : State) (code dst : Nat) (frame : List Byte), s.life.inputOn = true →
    s.out.getLast? = some (.cascade code dst frame) →
    exec (.cascadeRetry) s = .next
      ({ s with cascade := { s.cascade with retries := s.cascade.retries + 1 }, out := s.out ++ [.cascade code dst frame] }))
  ∧ (∀ (s : State), s.life.inputOn = false → exec (.cascadeRetry) s = .next (s))

/-- Each frame of R503 completes at the master, at a member and on its way (R502 to R507), with all that it changes.
-/
def Obligations.CascadeFramesComplete : Prop :=
  (∀ (s : State) (pos serial : Nat), s.life.inputOn = true → isMaster s = true → 1 ≤ pos → pos ≤ 3 →
    exec (.csHello pos serial false) s = .next
      ({ s with cascade := { s.cascade with hello := mapSet 0 s.cascade.hello pos (serial % 2 ^ 48 + 1) } }))
  ∧ (∀ (s : State) (pos serial : Nat), s.life.inputOn = true → s.cascade.fault = false →
    (isMaster s = true ∨ pos + 1 ≠ s.life.pos) → ∃ t, exec (.csHello pos serial true) s = .next t
    ∧ t.cascade = { s.cascade with fault := true, table := [], haveTable := false } ∧ bit t.es.bits.toNat 13 = true)
  ∧ (∀ (s : State) (pos serial : Nat), s.life.inputOn = true → isMaster s = false → pos + 1 = s.life.pos →
    exec (.csHello pos serial true) s = .next (s))
  ∧ (∀ (s : State) (pos serial : Nat), s.life.inputOn = true → isMaster s = false →
    exec (.csHello pos serial false) s = .next
      ({ s with out := s.out ++ [cascadeOut 1 (cfAddr 0 pos false) [serial % 2 ^ 48]] }))
  ∧ (∀ (s : State) (slot : Nat), s.life.inputOn = true → isMaster s = false → s.cascade.ownGrant = none →
    s.cascade.fault = false → s.life.ramped = false →
    exec (.csRampGrant slot) s = .next
      ({ s with cascade := { s.cascade with ownGrant := some slot, ramping := true } }))
  ∧ (∀ (s : State) (slot : Nat), (s.life.inputOn = false ∨ isMaster s = true ∨ s.cascade.ownGrant ≠ none ∨
      s.cascade.fault = true ∨ s.life.ramped = true) → exec (.csRampGrant slot) s = .next (s))
  ∧ (∀ (s : State) (pos : Nat), s.life.inputOn = true → isMaster s = false →
    exec (.csRampDone pos) s = .next ({ s with out := s.out ++ [cascadeOut 3 (cfAddr 0 pos false) []] }))
  ∧ (∀ (s : State) (pos q : Nat), s.life.inputOn = true → isMaster s = true → s.cascade.granted = some pos →
    pos ≠ 0 → s.cascade.nextSlot = q → q ≤ 3 → 1 ≤ q → saidHello s q = true →
    exec (.csRampDone pos) s = .next
      ({ s with cascade := { s.cascade with granted := some q, nextSlot := q + 1, grants := s.cascade.grants + 1 }, out := s.out ++ [cascadeOut 2 (cfAddr q 0 false) [s.cascade.grants]] }))
  ∧ (∀ (s : State) (pos : Nat) (present : Bool) (serial : Nat), s.life.inputOn = true → isMaster s = false →
    s.cascade.fault = false →
    exec (.csBoardTable pos present serial) s = .next
      ({ s with cascade := { s.cascade with table := mapSet {} s.cascade.table (pos % 4) ⟨present, serial % 2 ^ 48⟩, haveTable := true, loops := [] }, out := s.out ++ (if s.life.pos < 3 then [cascadeOut 4 (cfAddr 0 0 true) [pos, present.toNat, serial % 2 ^ 48]] else []) }))
  ∧ (∀ (s : State) (seq pattern : Nat), s.life.inputOn = true → isMaster s = false → s.cascade.fault = false →
    seq ≠ 63 →
    exec (.csLoop 0 seq pattern) s = .next
      ({ s with cascade := { s.cascade with lastPattern := pattern, loops := mapSet 0 s.cascade.loops s.life.pos (mapGet 0 s.cascade.loops s.life.pos + 1) }, out := s.out ++ [cascadeOut 5 (cfAddr 0 s.life.pos false) [seq, pattern]] ++ (if s.life.pos < 3 then [cascadeOut 5 (cfAddr 0 0 true) [seq, pattern]] else []) }))
  ∧ (∀ (s : State) (pos seq pattern : Nat), s.life.inputOn = true → isMaster s = true → s.cascade.haveTable = true →
    pos ≠ 0 → seq ≠ 63 →
    exec (.csLoop pos seq pattern) s = .next
      ({ s with cascade := { s.cascade with loops := mapSet 0 s.cascade.loops pos (mapGet 0 s.cascade.loops pos + (if pattern = s.cascade.lastPattern then 1 else 0)) } }))
  ∧ (∀ (s : State), s.life.inputOn = true → isMaster s = false → s.cascade.fault = false → hasBooted s = true →
    resetsCore s.life.state = true → ∃ t, exec (.csReset 0) s = .next t ∧ t.life.rcLevel = 1 ∧ t.life.rcCause = 4
    ∧ t.life.boot = .coreCardamom ∧ t.life.state = .recovering)
  ∧ (∀ (s : State), s.life.inputOn = true → isMaster s = false → s.cascade.fault = false → hasBooted s = true →
    s.life.released = true → ∃ t, exec (.csReset 1) s = .next t ∧ t.life.rcLevel = 2 ∧ t.life.rcCause = 9
    ∧ t.sec.claimed = false ∧ t.job = none)
  ∧ (∀ (s : State) (level : Nat), (s.life.inputOn = false ∨ isMaster s = true ∨ s.cascade.fault = true) →
    exec (.csReset level) s = .next (s))
  ∧ (∀ (s : State) (pos cause : Nat), s.life.inputOn = true → isMaster s = true →
    exec (.csFault pos cause) s = .next
      ({ s with cascade := { s.cascade with faultsSeen := mapSet 0 s.cascade.faultsSeen pos (cause + 1) } }))
  ∧ (∀ (s : State) (pos cause : Nat), s.life.inputOn = true → isMaster s = false →
    exec (.csFault pos cause) s = .next ({ s with out := s.out ++ [cascadeOut 7 (cfAddr 0 pos false) [cause]] }))

/-- R456: device id, class code, capability structures, `HDM_Count`, `Mem_HwInit_Mode` and cache size. R454 lets only
the two `Capable` bits depend on the link, so they are no part of this. -/
def Obligations.ConfigurationSpaceStays : Prop :=
  (SpaceFixed State.reset ∧ State.reset.host.space.cacheCapable = true ∧ State.reset.host.space.memCapable = true)
  ∧ (∀ s t : State, SpaceFixed s → step s = .next t → SpaceFixed t)

/-- R9 and R610: a read returns the current value of an RO or W1C field and the last value written to an RW field, and
zero for WO and RSV fields, unnamed offsets and every access that is not 4 or 8 bytes, naturally aligned. No command
of the table reads BAR0: `bar0Read` is what a read would return. -/
def Obligations.Bar0ReadsByAccess : Prop :=
  (∀ (s : State) (off size : Nat), isComponent off = false → (¬ (size = 4 ∨ size = 8) ∨ off % size ≠ 0) →
    bar0Read off size s = some 0)
  ∧ (∀ s : State, bar0Open s = true → SpaceFixed s → bar0Read 0 4 s = some 0x39414D55
    ∧ bar0Read 4 4 s = some 0x0A900001 ∧ bar0Read 0x20 4 s = some (isStatus s % 2 ^ 32))
  ∧ (∀ s : State, bar0Open s = true → bar0Read 0x7000 8 s = some s.es.bits.toNat
    ∧ bar0Read 0x7000 4 s = some (s.es.bits.toNat % 2 ^ 32) ∧ bar0Read 0x7004 4 s = some (s.es.bits.toNat / 2 ^ 32))
  ∧ (∀ (s : State) (i : Nat), bar0Open s = true → CountsFit s → i < 13 →
    bar0Read (0x7010 + 4 * (if i = 12 then 13 else i)) 4 s = some ((errorCounts s).getD i 0))
  ∧ (∀ s : State, bar0Open s = true → bar0Read 0x6F00 8 s = some s.evc.freeze.toNat
    ∧ bar0Read 0x1000 4 s = some (2 * s.mgmt.mb0.intEn.toNat))
  ∧ (∀ (s : State) (off : Nat), bar0Open s = true → 0x300 ≤ off → off < 0x1000 → off % 4 = 0 →
    bar0Read off 4 s = some 0)
  ∧ (∀ (s : State) (bank i : Nat), bar0Open s = true → bank < 9 → i < 16 → s.sec.claimed = true →
    bit s.sec.policy 1 = false → bar0Read (0x6000 + 0x180 * bank + 8 * i) 8 s = some 0
    ∧ bar0Read (0x6100 + 0x180 * bank) 8 s = some 0)
  ∧ (∀ (s : State) (b : BitVec 64), bar0Open s = true → ∃ t, exec (.esBitsW1c b) s = .next t
    ∧ bar0Read 0x7000 8 t = some (s.es.bits &&& ~~~b).toNat)
  ∧ (∀ (s : State) (bank i v : Nat), bar0Open s = true → bank < 9 → i < 16 → v < 2 ^ 64 → selOk bank v = true →
    ∃ t, exec (.registerWrite false (0x6080 + 0x180 * bank + 8 * i) 8 v) s = .next t
    ∧ bar0Read (0x6080 + 0x180 * bank + 8 * i) 8 t = some v)
end

