-- ==== Sys2Proof/Laws/Tables.lean ====
section
/-!
SUPPORT. The sparse tables and byte memories: a read after a write, and every write keeps the canonical form.
-/
namespace Sys2Proof.Machine

variable {α : Type}

theorem mapGet_of_forall_ne (d : α) {m : SMap α} {k : Nat} (h : ∀ kv ∈ m, kv.1 ≠ k) : mapGet d m k = d := by
  induction m with
  | nil => rfl
  | cons kv m ih =>
    rw [mapGet, if_neg (fun e => h kv (by simp) e.symm), ih (fun x hx => h x (by simp [hx]))]

theorem mapGet_append_of_ne (d : α) {m n : SMap α} {k : Nat} (h : ∀ kv ∈ m, kv.1 ≠ k) :
    mapGet d (m ++ n) k = mapGet d n k := by
  induction m with
  | nil => rfl
  | cons kv m ih =>
    rw [List.cons_append, mapGet, if_neg (fun e => h kv (by simp) e.symm), ih (fun x hx => h x (by simp [hx]))]

theorem mapGet_mapDel (d : α) (m : SMap α) (k k' : Nat) :
    mapGet d (mapDel m k) k' = if k' = k then d else mapGet d m k' := by
  induction m with
  | nil => simp [mapDel, mapGet]
  | cons kv m ih =>
    obtain ⟨a, v⟩ := kv
    simp only [mapDel, List.filter_cons] at ih ⊢
    by_cases ha : a = k
    · subst ha
      by_cases hk : k' = a <;> simp_all [mapGet]
    · by_cases hk : k' = k
      · subst hk
        have : k' ≠ a := fun e => ha e.symm
        simp_all [mapGet]
      · by_cases hka : k' = a <;> simp_all [mapGet]

variable [DecidableEq α]

theorem mapGet_mapCell_append (d : α) (m : SMap α) (k : Nat) (v : α) (h : mapGet d m k = d) (k' : Nat) :
    mapGet d (mapCell d k v ++ m) k' = if k' = k then v else mapGet d m k' := by
  unfold mapCell
  by_cases hv : v = d
  · by_cases hk : k' = k <;> simp_all
  · by_cases hk : k' = k <;> simp_all [mapGet]

/-- A read after a write, of any table. -/
@[simp] theorem mapGet_mapSet (d : α) (m : SMap α) (k : Nat) (v : α) (k' : Nat) :
    mapGet d (mapSet d m k v) k' = if k' = k then v else mapGet d m k' := by
  induction m with
  | nil => simpa [mapSet, mapGet] using mapGet_mapCell_append d [] k v rfl k'
  | cons kv m ih =>
    obtain ⟨a, w⟩ := kv
    rw [mapSet]
    split
    · rename_i hlt
      rw [show ((a, w) :: mapDel m k) = mapDel ((a, w) :: m) k by
        simp only [mapDel, List.filter_cons]; rw [if_pos (by simp; omega)]]
      rw [mapGet_mapCell_append _ _ _ _ (by simp [mapGet_mapDel]), mapGet_mapDel]
      by_cases hk : k' = k <;> simp [hk]
    · split
      · rename_i h1 h2
        subst h2
        rw [mapGet_mapCell_append _ _ _ _ (by simp [mapGet_mapDel]), mapGet_mapDel]
        by_cases hk : k' = k <;> simp [hk, mapGet]
      · rename_i h1 h2
        rw [mapGet, ih, mapGet]
        by_cases hk : k' = k
        · subst hk; simp [h2]
        · simp [hk]

@[simp] theorem mapGet_mapMod (d : α) (m : SMap α) (k : Nat) (f : α → α) (k' : Nat) :
    mapGet d (mapMod d m k f) k' = if k' = k then f (mapGet d m k) else mapGet d m k' := mapGet_mapSet ..

/-! ### The canonical form -/

theorem mapWfFrom_le (d : α) {lo lo' : Nat} (h : lo ≤ lo') {m : SMap α} (w : mapWfFrom d lo' m = true) :
    mapWfFrom d lo m = true := by
  cases m with
  | nil => rfl
  | cons kv m => simp_all [mapWfFrom]; omega

theorem mapWfFrom_keys (d : α) {lo : Nat} {m : SMap α} (w : mapWfFrom d lo m = true) : ∀ kv ∈ m, lo ≤ kv.1 := by
  induction m generalizing lo with
  | nil => simp
  | cons kv m ih =>
    simp only [mapWfFrom, Bool.and_eq_true, decide_eq_true_eq] at w
    intro x hx
    rcases List.mem_cons.1 hx with rfl | hx
    · exact w.1.1
    · have := ih w.2 x hx; omega

theorem mapDel_eq_of_wf (d : α) {m : SMap α} {k : Nat} (w : mapWfFrom d (k + 1) m = true) : mapDel m k = m := by
  unfold mapDel
  rw [List.filter_eq_self]
  intro kv h
  have := mapWfFrom_keys d w kv h
  simp; omega

theorem mapWfFrom_cell (d : α) {lo k : Nat} {v : α} {m : SMap α} (h : lo ≤ k) (w : mapWfFrom d (k + 1) m = true) :
    mapWfFrom d lo (mapCell d k v ++ m) = true := by
  unfold mapCell
  split
  · exact mapWfFrom_le d (by omega) w
  · simp_all [mapWfFrom]

theorem mapWfFrom_mapSet (d : α) {lo : Nat} {m : SMap α} {k : Nat} {v : α} (h : lo ≤ k) (w : mapWfFrom d lo m = true) :
    mapWfFrom d lo (mapSet d m k v) = true := by
  induction m generalizing lo with
  | nil => simpa [mapSet] using mapWfFrom_cell (m := []) d h rfl
  | cons kv m ih =>
    obtain ⟨a, x⟩ := kv
    simp only [mapWfFrom, Bool.and_eq_true, decide_eq_true_eq] at w
    rw [mapSet]
    split
    · rename_i hlt
      rw [mapDel_eq_of_wf d (mapWfFrom_le d (by omega) w.2)]
      exact mapWfFrom_cell d h (by simp [mapWfFrom, w.1.2, w.2]; omega)
    · split
      · rename_i h1 h2
        subst h2
        rw [mapDel_eq_of_wf d w.2]
        exact mapWfFrom_cell d h w.2
      · simp only [mapWfFrom, Bool.and_eq_true, decide_eq_true_eq]
        exact ⟨w.1, ih (by omega) w.2⟩

/-- A write keeps a table's canonical form. -/
theorem mapWf_mapSet (d : α) {m : SMap α} (k : Nat) (v : α) (w : mapWf d m = true) : mapWf d (mapSet d m k v) = true :=
  mapWfFrom_mapSet d (Nat.zero_le k) w

theorem mapWf_mapMod (d : α) {m : SMap α} (k : Nat) (f : α → α) (w : mapWf d m = true) : mapWf d (mapMod d m k f) = true :=
  mapWf_mapSet d k _ w

/-! ### Byte memories -/

theorem memory_wf_nil : Memory.wf [] = true := rfl

/-- A byte written reads back, and every other byte is as before. -/
@[simp] theorem memGet_memSet (m : Mem) (a : Nat) (b : Byte) (a' : Nat) :
    memGet (memSet m a b) a' = if a' = a then b else memGet m a' := mapGet_mapSet ..

theorem memory_wf_memSet {m : Mem} (a : Nat) (b : Byte) (w : Memory.wf m = true) : Memory.wf (memSet m a b) = true :=
  mapWf_mapSet 0 a b w

/-- A run of bytes written reads back, and every other byte is as before. -/
theorem memGet_memWrite (m : Mem) (a : Nat) (bs : List Byte) (x : Nat) :
    memGet (memWrite m a bs) x = if a ≤ x ∧ x < a + bs.length then bs.getD (x - a) 0 else memGet m x := by
  induction bs generalizing m a with
  | nil => simp only [memWrite, List.length_nil]; rw [if_neg (by omega)]
  | cons b bs ih =>
    rw [memWrite, ih, memGet_memSet]
    by_cases h : x = a
    · subst h; simp
    · by_cases h2 : a + 1 ≤ x ∧ x < a + 1 + bs.length
      · rw [if_pos h2, if_pos (by simp only [List.length_cons]; omega)]
        obtain ⟨n, hn⟩ : ∃ n, x - a = n + 1 := ⟨x - a - 1, by omega⟩
        rw [hn, show x - (a + 1) = n by omega]
        simp
      · rw [if_neg h2, if_neg h, if_neg (by simp only [List.length_cons]; omega)]

theorem memory_wf_memWrite {m : Mem} (a : Nat) (bs : List Byte) (w : Memory.wf m = true) :
    Memory.wf (memWrite m a bs) = true := by
  induction bs generalizing m a with
  | nil => exact w
  | cons b bs ih => exact ih (a + 1) (memory_wf_memSet a b w)

end Sys2Proof.Machine
end

