-- ==== Sys2Proof/Laws/State.lean ====
section
/-!
SUPPORT. Reading the state after an update of one of its parts: the part reads as updated, every other part as before.
-/
namespace Sys2Proof.Machine

@[simp] theorem modTile_frame (s : State) (t : Nat) (f : Tile → Tile) :
    (modTile s t f).life = s.life ∧ (modTile s t f).cascade = s.cascade ∧ (modTile s t f).slots = s.slots ∧
    (modTile s t f).pkg = s.pkg ∧ (modTile s t f).fences = s.fences ∧ (modTile s t f).job = s.job ∧
    (modTile s t f).stepSet = s.stepSet ∧ (modTile s t f).cond = s.cond ∧ (modTile s t f).fennel = s.fennel ∧
    (modTile s t f).fabric = s.fabric ∧ (modTile s t f).host = s.host ∧ (modTile s t f).mgmt = s.mgmt ∧
    (modTile s t f).sec = s.sec ∧ (modTile s t f).integ = s.integ ∧ (modTile s t f).es = s.es ∧
    (modTile s t f).evc = s.evc ∧ (modTile s t f).sens = s.sens ∧ (modTile s t f).cfg = s.cfg ∧
    (modTile s t f).out = s.out ∧ (modTile s t f).freeUsed = s.freeUsed ∧ (modTile s t f).pending = s.pending := by
  simp [modTile]

@[simp] theorem getTile_modTile (s : State) (t x : Nat) (f : Tile → Tile) :
    getTile (modTile s t f) x = if x = t then f (getTile s t) else getTile s x := by
  simp [getTile, modTile]

@[simp] theorem modSlot_frame (s : State) (t : Nat) (f : Slot → Slot) :
    (modSlot s t f).life = s.life ∧ (modSlot s t f).cascade = s.cascade ∧ (modSlot s t f).pkg = s.pkg ∧
    (modSlot s t f).tiles = s.tiles ∧ (modSlot s t f).fences = s.fences ∧ (modSlot s t f).job = s.job ∧
    (modSlot s t f).stepSet = s.stepSet ∧ (modSlot s t f).cond = s.cond ∧ (modSlot s t f).fennel = s.fennel ∧
    (modSlot s t f).fabric = s.fabric ∧ (modSlot s t f).host = s.host ∧ (modSlot s t f).mgmt = s.mgmt ∧
    (modSlot s t f).sec = s.sec ∧ (modSlot s t f).integ = s.integ ∧ (modSlot s t f).es = s.es ∧
    (modSlot s t f).evc = s.evc ∧ (modSlot s t f).sens = s.sens ∧ (modSlot s t f).cfg = s.cfg ∧
    (modSlot s t f).out = s.out ∧ (modSlot s t f).freeUsed = s.freeUsed ∧ (modSlot s t f).pending = s.pending := by
  simp [modSlot]

@[simp] theorem getSlot_modSlot (s : State) (t x : Nat) (f : Slot → Slot) :
    getSlot (modSlot s t f) x = if x = t then f (getSlot s t) else getSlot s x := by
  simp [getSlot, modSlot]

@[simp] theorem modPort_frame (s : State) (p : Nat) (f : Port → Port) :
    (modPort s p f).life = s.life ∧ (modPort s p f).cascade = s.cascade ∧ (modPort s p f).slots = s.slots ∧
    (modPort s p f).pkg = s.pkg ∧ (modPort s p f).tiles = s.tiles ∧ (modPort s p f).fences = s.fences ∧
    (modPort s p f).job = s.job ∧ (modPort s p f).stepSet = s.stepSet ∧ (modPort s p f).cond = s.cond ∧
    (modPort s p f).fennel = s.fennel ∧ (modPort s p f).fabric.planId = s.fabric.planId ∧
    (modPort s p f).fabric.planGen = s.fabric.planGen ∧ (modPort s p f).fabric.plan = s.fabric.plan ∧
    (modPort s p f).fabric.members = s.fabric.members ∧ (modPort s p f).fabric.reach = s.fabric.reach ∧
    (modPort s p f).fabric.routes = s.fabric.routes ∧ (modPort s p f).fabric.chans = s.fabric.chans ∧
    (modPort s p f).fabric.windows = s.fabric.windows ∧ (modPort s p f).fabric.winEpochs = s.fabric.winEpochs ∧
    (modPort s p f).fabric.notices = s.fabric.notices ∧ (modPort s p f).fabric.caps = s.fabric.caps ∧
    (modPort s p f).fabric.accums = s.fabric.accums ∧ (modPort s p f).fabric.peers = s.fabric.peers ∧
    (modPort s p f).fabric.attest = s.fabric.attest ∧ (modPort s p f).fabric.refusals = s.fabric.refusals ∧
    (modPort s p f).fabric.touchUsed = s.fabric.touchUsed ∧ (modPort s p f).host = s.host ∧
    (modPort s p f).mgmt = s.mgmt ∧ (modPort s p f).sec = s.sec ∧ (modPort s p f).integ = s.integ ∧
    (modPort s p f).es = s.es ∧ (modPort s p f).evc = s.evc ∧ (modPort s p f).sens = s.sens ∧
    (modPort s p f).cfg = s.cfg ∧ (modPort s p f).out = s.out ∧ (modPort s p f).freeUsed = s.freeUsed ∧
    (modPort s p f).pending = s.pending := by
  simp [modPort]

@[simp] theorem getPort_modPort (s : State) (p x : Nat) (f : Port → Port) :
    getPort (modPort s p f) x = if x = p then f (getPort s p) else getPort s x := by
  simp [getPort, modPort]

@[simp] theorem modChan_frame (s : State) (k : Nat) (f : Chan → Chan) :
    (modChan s k f).life = s.life ∧ (modChan s k f).cascade = s.cascade ∧ (modChan s k f).slots = s.slots ∧
    (modChan s k f).pkg = s.pkg ∧ (modChan s k f).tiles = s.tiles ∧ (modChan s k f).fences = s.fences ∧
    (modChan s k f).job = s.job ∧ (modChan s k f).stepSet = s.stepSet ∧ (modChan s k f).cond = s.cond ∧
    (modChan s k f).fennel = s.fennel ∧ (modChan s k f).fabric.ports = s.fabric.ports ∧
    (modChan s k f).fabric.planId = s.fabric.planId ∧ (modChan s k f).fabric.planGen = s.fabric.planGen ∧
    (modChan s k f).fabric.plan = s.fabric.plan ∧ (modChan s k f).fabric.members = s.fabric.members ∧
    (modChan s k f).fabric.reach = s.fabric.reach ∧ (modChan s k f).fabric.routes = s.fabric.routes ∧
    (modChan s k f).fabric.windows = s.fabric.windows ∧ (modChan s k f).fabric.winEpochs = s.fabric.winEpochs ∧
    (modChan s k f).fabric.notices = s.fabric.notices ∧ (modChan s k f).fabric.caps = s.fabric.caps ∧
    (modChan s k f).fabric.accums = s.fabric.accums ∧ (modChan s k f).fabric.peers = s.fabric.peers ∧
    (modChan s k f).fabric.attest = s.fabric.attest ∧ (modChan s k f).fabric.refusals = s.fabric.refusals ∧
    (modChan s k f).fabric.touchUsed = s.fabric.touchUsed ∧ (modChan s k f).host = s.host ∧
    (modChan s k f).mgmt = s.mgmt ∧ (modChan s k f).sec = s.sec ∧ (modChan s k f).integ = s.integ ∧
    (modChan s k f).es = s.es ∧ (modChan s k f).evc = s.evc ∧ (modChan s k f).sens = s.sens ∧
    (modChan s k f).cfg = s.cfg ∧ (modChan s k f).out = s.out ∧ (modChan s k f).freeUsed = s.freeUsed ∧
    (modChan s k f).pending = s.pending := by
  simp [modChan]

@[simp] theorem getChan_modChan (s : State) (k x : Nat) (f : Chan → Chan) :
    getChan (modChan s k f) x = if x = k then f (getChan s k) else getChan s x := by
  simp [getChan, modChan]

@[simp] theorem modWin_frame (s : State) (w : Nat) (f : Window → Window) :
    (modWin s w f).life = s.life ∧ (modWin s w f).cascade = s.cascade ∧ (modWin s w f).slots = s.slots ∧
    (modWin s w f).pkg = s.pkg ∧ (modWin s w f).tiles = s.tiles ∧ (modWin s w f).fences = s.fences ∧
    (modWin s w f).job = s.job ∧ (modWin s w f).stepSet = s.stepSet ∧ (modWin s w f).cond = s.cond ∧
    (modWin s w f).fennel = s.fennel ∧ (modWin s w f).fabric.ports = s.fabric.ports ∧
    (modWin s w f).fabric.planId = s.fabric.planId ∧ (modWin s w f).fabric.planGen = s.fabric.planGen ∧
    (modWin s w f).fabric.plan = s.fabric.plan ∧ (modWin s w f).fabric.members = s.fabric.members ∧
    (modWin s w f).fabric.reach = s.fabric.reach ∧ (modWin s w f).fabric.routes = s.fabric.routes ∧
    (modWin s w f).fabric.chans = s.fabric.chans ∧ (modWin s w f).fabric.winEpochs = s.fabric.winEpochs ∧
    (modWin s w f).fabric.notices = s.fabric.notices ∧ (modWin s w f).fabric.caps = s.fabric.caps ∧
    (modWin s w f).fabric.accums = s.fabric.accums ∧ (modWin s w f).fabric.peers = s.fabric.peers ∧
    (modWin s w f).fabric.attest = s.fabric.attest ∧ (modWin s w f).fabric.refusals = s.fabric.refusals ∧
    (modWin s w f).fabric.touchUsed = s.fabric.touchUsed ∧ (modWin s w f).host = s.host ∧
    (modWin s w f).mgmt = s.mgmt ∧ (modWin s w f).sec = s.sec ∧ (modWin s w f).integ = s.integ ∧
    (modWin s w f).es = s.es ∧ (modWin s w f).evc = s.evc ∧ (modWin s w f).sens = s.sens ∧
    (modWin s w f).cfg = s.cfg ∧ (modWin s w f).out = s.out ∧ (modWin s w f).freeUsed = s.freeUsed ∧
    (modWin s w f).pending = s.pending := by
  simp [modWin]

@[simp] theorem getWin_modWin (s : State) (w x : Nat) (f : Window → Window) :
    getWin (modWin s w f) x = if x = w then f (getWin s w) else getWin s x := by
  simp [getWin, modWin]

@[simp] theorem modPeer_frame (s : State) (p : Nat) (f : Peer → Peer) :
    (modPeer s p f).life = s.life ∧ (modPeer s p f).cascade = s.cascade ∧ (modPeer s p f).slots = s.slots ∧
    (modPeer s p f).pkg = s.pkg ∧ (modPeer s p f).tiles = s.tiles ∧ (modPeer s p f).fences = s.fences ∧
    (modPeer s p f).job = s.job ∧ (modPeer s p f).stepSet = s.stepSet ∧ (modPeer s p f).cond = s.cond ∧
    (modPeer s p f).fennel = s.fennel ∧ (modPeer s p f).fabric.ports = s.fabric.ports ∧
    (modPeer s p f).fabric.planId = s.fabric.planId ∧ (modPeer s p f).fabric.planGen = s.fabric.planGen ∧
    (modPeer s p f).fabric.plan = s.fabric.plan ∧ (modPeer s p f).fabric.members = s.fabric.members ∧
    (modPeer s p f).fabric.reach = s.fabric.reach ∧ (modPeer s p f).fabric.routes = s.fabric.routes ∧
    (modPeer s p f).fabric.chans = s.fabric.chans ∧ (modPeer s p f).fabric.windows = s.fabric.windows ∧
    (modPeer s p f).fabric.winEpochs = s.fabric.winEpochs ∧ (modPeer s p f).fabric.notices = s.fabric.notices ∧
    (modPeer s p f).fabric.caps = s.fabric.caps ∧ (modPeer s p f).fabric.accums = s.fabric.accums ∧
    (modPeer s p f).fabric.attest = s.fabric.attest ∧ (modPeer s p f).fabric.refusals = s.fabric.refusals ∧
    (modPeer s p f).fabric.touchUsed = s.fabric.touchUsed ∧ (modPeer s p f).host = s.host ∧
    (modPeer s p f).mgmt = s.mgmt ∧ (modPeer s p f).sec = s.sec ∧ (modPeer s p f).integ = s.integ ∧
    (modPeer s p f).es = s.es ∧ (modPeer s p f).evc = s.evc ∧ (modPeer s p f).sens = s.sens ∧
    (modPeer s p f).cfg = s.cfg ∧ (modPeer s p f).out = s.out ∧ (modPeer s p f).freeUsed = s.freeUsed ∧
    (modPeer s p f).pending = s.pending := by
  simp [modPeer]

@[simp] theorem getPeer_modPeer (s : State) (p x : Nat) (f : Peer → Peer) :
    getPeer (modPeer s p f) x = if x = p then f (getPeer s p) else getPeer s x := by
  simp [getPeer, modPeer]

@[simp] theorem modRing_frame (s : State) (r : Nat) (f : WorkRing → WorkRing) :
    (modRing s r f).life = s.life ∧ (modRing s r f).cascade = s.cascade ∧ (modRing s r f).slots = s.slots ∧
    (modRing s r f).pkg = s.pkg ∧ (modRing s r f).tiles = s.tiles ∧ (modRing s r f).fences = s.fences ∧
    (modRing s r f).job = s.job ∧ (modRing s r f).stepSet = s.stepSet ∧ (modRing s r f).cond = s.cond ∧
    (modRing s r f).fennel = s.fennel ∧ (modRing s r f).fabric = s.fabric ∧
    (modRing s r f).host.trained = s.host.trained ∧ (modRing s r f).host.narrow = s.host.narrow ∧
    (modRing s r f).host.space = s.host.space ∧ (modRing s r f).host.hdmUnits = s.host.hdmUnits ∧
    (modRing s r f).host.hdmBase = s.host.hdmBase ∧ (modRing s r f).host.hdmCommitted = s.host.hdmCommitted ∧
    (modRing s r f).host.hdmError = s.host.hdmError ∧ (modRing s r f).host.filter = s.host.filter ∧
    (modRing s r f).host.dirty = s.host.dirty ∧ (modRing s r f).host.answered = s.host.answered ∧
    (modRing s r f).host.ide = s.host.ide ∧ (modRing s r f).host.cqs = s.host.cqs ∧
    (modRing s r f).host.d2h = s.host.d2h ∧ (modRing s r f).host.nextD2h = s.host.nextD2h ∧
    (modRing s r f).host.timeoutMs = s.host.timeoutMs ∧ (modRing s r f).host.msix = s.host.msix ∧
    (modRing s r f).host.msixPending = s.host.msixPending ∧ (modRing s r f).host.esHoldoff = s.host.esHoldoff ∧
    (modRing s r f).host.esPending = s.host.esPending ∧ (modRing s r f).host.wakes = s.host.wakes ∧
    (modRing s r f).host.stalled = s.host.stalled ∧ (modRing s r f).mgmt = s.mgmt ∧ (modRing s r f).sec = s.sec ∧
    (modRing s r f).integ = s.integ ∧ (modRing s r f).es = s.es ∧ (modRing s r f).evc = s.evc ∧
    (modRing s r f).sens = s.sens ∧ (modRing s r f).cfg = s.cfg ∧ (modRing s r f).out = s.out ∧
    (modRing s r f).freeUsed = s.freeUsed ∧ (modRing s r f).pending = s.pending := by
  simp [modRing]

@[simp] theorem getRing_modRing (s : State) (r x : Nat) (f : WorkRing → WorkRing) :
    getRing (modRing s r f) x = if x = r then f (getRing s r) else getRing s x := by
  simp [getRing, modRing]

@[simp] theorem modCq_frame (s : State) (r : Nat) (f : CompRing → CompRing) :
    (modCq s r f).life = s.life ∧ (modCq s r f).cascade = s.cascade ∧ (modCq s r f).slots = s.slots ∧
    (modCq s r f).pkg = s.pkg ∧ (modCq s r f).tiles = s.tiles ∧ (modCq s r f).fences = s.fences ∧
    (modCq s r f).job = s.job ∧ (modCq s r f).stepSet = s.stepSet ∧ (modCq s r f).cond = s.cond ∧
    (modCq s r f).fennel = s.fennel ∧ (modCq s r f).fabric = s.fabric ∧ (modCq s r f).host.trained = s.host.trained ∧
    (modCq s r f).host.narrow = s.host.narrow ∧ (modCq s r f).host.space = s.host.space ∧
    (modCq s r f).host.hdmUnits = s.host.hdmUnits ∧ (modCq s r f).host.hdmBase = s.host.hdmBase ∧
    (modCq s r f).host.hdmCommitted = s.host.hdmCommitted ∧ (modCq s r f).host.hdmError = s.host.hdmError ∧
    (modCq s r f).host.filter = s.host.filter ∧ (modCq s r f).host.dirty = s.host.dirty ∧
    (modCq s r f).host.answered = s.host.answered ∧ (modCq s r f).host.ide = s.host.ide ∧
    (modCq s r f).host.rings = s.host.rings ∧ (modCq s r f).host.d2h = s.host.d2h ∧
    (modCq s r f).host.nextD2h = s.host.nextD2h ∧ (modCq s r f).host.timeoutMs = s.host.timeoutMs ∧
    (modCq s r f).host.msix = s.host.msix ∧ (modCq s r f).host.msixPending = s.host.msixPending ∧
    (modCq s r f).host.esHoldoff = s.host.esHoldoff ∧ (modCq s r f).host.esPending = s.host.esPending ∧
    (modCq s r f).host.wakes = s.host.wakes ∧ (modCq s r f).host.stalled = s.host.stalled ∧
    (modCq s r f).mgmt = s.mgmt ∧ (modCq s r f).sec = s.sec ∧ (modCq s r f).integ = s.integ ∧
    (modCq s r f).es = s.es ∧ (modCq s r f).evc = s.evc ∧ (modCq s r f).sens = s.sens ∧ (modCq s r f).cfg = s.cfg ∧
    (modCq s r f).out = s.out ∧ (modCq s r f).freeUsed = s.freeUsed ∧ (modCq s r f).pending = s.pending := by
  simp [modCq]

@[simp] theorem getCq_modCq (s : State) (r x : Nat) (f : CompRing → CompRing) :
    getCq (modCq s r f) x = if x = r then f (getCq s r) else getCq s x := by
  simp [getCq, modCq]

@[simp] theorem modSeq_frame (s : State) (q : Nat) (f : SeqEntry → SeqEntry) :
    (modSeq s q f).life = s.life ∧ (modSeq s q f).cascade = s.cascade ∧ (modSeq s q f).slots = s.slots ∧
    (modSeq s q f).pkg = s.pkg ∧ (modSeq s q f).tiles = s.tiles ∧ (modSeq s q f).fences = s.fences ∧
    (modSeq s q f).job = s.job ∧ (modSeq s q f).stepSet = s.stepSet ∧
    (modSeq s q f).cond.nextOrder = s.cond.nextOrder ∧ (modSeq s q f).cond.committed = s.cond.committed ∧
    (modSeq s q f).cond.forming = s.cond.forming ∧ (modSeq s q f).cond.prompts = s.cond.prompts ∧
    (modSeq s q f).cond.current = s.cond.current ∧ (modSeq s q f).cond.notices = s.cond.notices ∧
    (modSeq s q f).cond.results = s.cond.results ∧ (modSeq s q f).cond.stepStatus = s.cond.stepStatus ∧
    (modSeq s q f).cond.lateEpochs = s.cond.lateEpochs ∧ (modSeq s q f).cond.ownStatus = s.cond.ownStatus ∧
    (modSeq s q f).cond.ownReports = s.cond.ownReports ∧ (modSeq s q f).cond.resultSent = s.cond.resultSent ∧
    (modSeq s q f).cond.abort = s.cond.abort ∧ (modSeq s q f).cond.aborts = s.cond.aborts ∧
    (modSeq s q f).cond.held = s.cond.held ∧ (modSeq s q f).cond.reloadAgain = s.cond.reloadAgain ∧
    (modSeq s q f).cond.stopped = s.cond.stopped ∧ (modSeq s q f).cond.downMembers = s.cond.downMembers ∧
    (modSeq s q f).cond.lastFailed = s.cond.lastFailed ∧ (modSeq s q f).cond.lastTokens = s.cond.lastTokens ∧
    (modSeq s q f).cond.hdrSeen = s.cond.hdrSeen ∧ (modSeq s q f).cond.toksSeen = s.cond.toksSeen ∧
    (modSeq s q f).cond.bound = s.cond.bound ∧ (modSeq s q f).cond.boundToks = s.cond.boundToks ∧
    (modSeq s q f).cond.abortingStep = s.cond.abortingStep ∧ (modSeq s q f).cond.abortedStep = s.cond.abortedStep ∧
    (modSeq s q f).cond.doneOwed = s.cond.doneOwed ∧ (modSeq s q f).cond.lostSeen = s.cond.lostSeen ∧
    (modSeq s q f).cond.lastRun = s.cond.lastRun ∧ (modSeq s q f).cond.nextStep = s.cond.nextStep ∧
    (modSeq s q f).cond.lastNotices = s.cond.lastNotices ∧ (modSeq s q f).cond.owed = s.cond.owed ∧
    (modSeq s q f).cond.residencyWait = s.cond.residencyWait ∧ (modSeq s q f).cond.weightAbort = s.cond.weightAbort ∧
    (modSeq s q f).cond.memberLimits = s.cond.memberLimits ∧ (modSeq s q f).fennel = s.fennel ∧
    (modSeq s q f).fabric = s.fabric ∧ (modSeq s q f).host = s.host ∧ (modSeq s q f).mgmt = s.mgmt ∧
    (modSeq s q f).sec = s.sec ∧ (modSeq s q f).integ = s.integ ∧ (modSeq s q f).es = s.es ∧
    (modSeq s q f).evc = s.evc ∧ (modSeq s q f).sens = s.sens ∧ (modSeq s q f).cfg = s.cfg ∧
    (modSeq s q f).out = s.out ∧ (modSeq s q f).freeUsed = s.freeUsed ∧ (modSeq s q f).pending = s.pending := by
  simp [modSeq]

@[simp] theorem getSeq_modSeq (s : State) (q x : Nat) (f : SeqEntry → SeqEntry) :
    getSeq (modSeq s q f) x = if x = q then f (getSeq s q) else getSeq s x := by
  simp [getSeq, modSeq]

@[simp] theorem modBarrier_frame (s : State) (b : Nat) (f : Barrier → Barrier) :
    (modBarrier s b f).life = s.life ∧ (modBarrier s b f).cascade = s.cascade ∧ (modBarrier s b f).slots = s.slots ∧
    (modBarrier s b f).pkg = s.pkg ∧ (modBarrier s b f).tiles = s.tiles ∧
    (modBarrier s b f).fences.counters = s.fences.counters ∧ (modBarrier s b f).fences.bases = s.fences.bases ∧
    (modBarrier s b f).fences.pendingInc = s.fences.pendingInc ∧ (modBarrier s b f).job = s.job ∧
    (modBarrier s b f).stepSet = s.stepSet ∧ (modBarrier s b f).cond = s.cond ∧
    (modBarrier s b f).fennel = s.fennel ∧ (modBarrier s b f).fabric = s.fabric ∧ (modBarrier s b f).host = s.host ∧
    (modBarrier s b f).mgmt = s.mgmt ∧ (modBarrier s b f).sec = s.sec ∧ (modBarrier s b f).integ = s.integ ∧
    (modBarrier s b f).es = s.es ∧ (modBarrier s b f).evc = s.evc ∧ (modBarrier s b f).sens = s.sens ∧
    (modBarrier s b f).cfg = s.cfg ∧ (modBarrier s b f).out = s.out ∧ (modBarrier s b f).freeUsed = s.freeUsed ∧
    (modBarrier s b f).pending = s.pending := by
  simp [modBarrier]

@[simp] theorem getBarrier_modBarrier (s : State) (b x : Nat) (f : Barrier → Barrier) :
    getBarrier (modBarrier s b f) x = if x = b then f (getBarrier s b) else getBarrier s x := by
  simp [getBarrier, modBarrier]

@[simp] theorem modMc_frame (s : State) (t c : Nat) (f : Channel → Channel) :
    (modMc s t c f).life = s.life ∧ (modMc s t c f).cascade = s.cascade ∧ (modMc s t c f).slots = s.slots ∧
    (modMc s t c f).pkg.bytes = s.pkg.bytes ∧ (modMc s t c f).pkg.poison = s.pkg.poison ∧
    (modMc s t c f).pkg.errors = s.pkg.errors ∧ (modMc s t c f).pkg.under = s.pkg.under ∧
    (modMc s t c f).pkg.regions = s.pkg.regions ∧ (modMc s t c f).pkg.cache = s.pkg.cache ∧
    (modMc s t c f).pkg.band = s.pkg.band ∧ (modMc s t c f).pkg.share = s.pkg.share ∧
    (modMc s t c f).pkg.threshold = s.pkg.threshold ∧ (modMc s t c f).pkg.verifying = s.pkg.verifying ∧
    (modMc s t c f).pkg.pkgOverdue = s.pkg.pkgOverdue ∧ (modMc s t c f).pkg.lapStart = s.pkg.lapStart ∧
    (modMc s t c f).pkg.lapLast = s.pkg.lapLast ∧ (modMc s t c f).pkg.lapHours = s.pkg.lapHours ∧
    (modMc s t c f).pkg.touch = s.pkg.touch ∧ (modMc s t c f).tiles = s.tiles ∧ (modMc s t c f).fences = s.fences ∧
    (modMc s t c f).job = s.job ∧ (modMc s t c f).stepSet = s.stepSet ∧ (modMc s t c f).cond = s.cond ∧
    (modMc s t c f).fennel = s.fennel ∧ (modMc s t c f).fabric = s.fabric ∧ (modMc s t c f).host = s.host ∧
    (modMc s t c f).mgmt = s.mgmt ∧ (modMc s t c f).sec = s.sec ∧ (modMc s t c f).integ = s.integ ∧
    (modMc s t c f).es = s.es ∧ (modMc s t c f).evc = s.evc ∧ (modMc s t c f).sens = s.sens ∧
    (modMc s t c f).cfg = s.cfg ∧ (modMc s t c f).out = s.out ∧ (modMc s t c f).freeUsed = s.freeUsed ∧
    (modMc s t c f).pending = s.pending := by
  simp [modMc]

@[simp] theorem getMc_modMc (s : State) (t c u d : Nat) (f : Channel → Channel) :
    getMc (modMc s t c f) u d = if u * 64 + d = t * 64 + c then f (getMc s t c) else getMc s u d := by
  simp [getMc, modMc]

end Sys2Proof.Machine
end

