-- ==== Sys2Proof/Laws/Ops.lean ====
section
/-!
SUPPORT. What the shared operations leave as it was, and what they do.
-/
namespace Sys2Proof.Machine

/-- What every step of a fold keeps, the fold keeps. -/
theorem forAll_keeps {α β : Type} (g : State → β) {xs : List α} {f : State → α → State}
    (h : ∀ s x, g (f s x) = g s) (s : State) : g (forAll xs f s) = g s := by
  induction xs generalizing s with
  | nil => rfl
  | cons x xs ih => exact (ih (f s x)).trans (h s x)

@[simp] theorem emit_frame (s : State) (x : Out) :
    (emit s x).life = s.life ∧ (emit s x).cascade = s.cascade ∧ (emit s x).slots = s.slots ∧ (emit s x).pkg = s.pkg ∧
    (emit s x).tiles = s.tiles ∧ (emit s x).fences = s.fences ∧ (emit s x).job = s.job ∧
    (emit s x).stepSet = s.stepSet ∧ (emit s x).cond = s.cond ∧ (emit s x).fennel = s.fennel ∧
    (emit s x).fabric = s.fabric ∧ (emit s x).host = s.host ∧ (emit s x).mgmt = s.mgmt ∧ (emit s x).sec = s.sec ∧
    (emit s x).integ = s.integ ∧ (emit s x).es = s.es ∧ (emit s x).evc = s.evc ∧ (emit s x).sens = s.sens ∧
    (emit s x).cfg = s.cfg ∧ (emit s x).freeUsed = s.freeUsed ∧ (emit s x).pending = s.pending := by
  simp [emit]

@[simp] theorem emit_out (s : State) (x : Out) : (emit s x).out = s.out ++ [x] := rfl

@[simp] theorem takeFree_frame (w : Nat) (s : State) :
    ((takeFree w s).2).life = s.life ∧ ((takeFree w s).2).cascade = s.cascade ∧ ((takeFree w s).2).slots = s.slots ∧
    ((takeFree w s).2).pkg = s.pkg ∧ ((takeFree w s).2).tiles = s.tiles ∧ ((takeFree w s).2).fences = s.fences ∧
    ((takeFree w s).2).job = s.job ∧ ((takeFree w s).2).stepSet = s.stepSet ∧ ((takeFree w s).2).cond = s.cond ∧
    ((takeFree w s).2).fennel = s.fennel ∧ ((takeFree w s).2).fabric = s.fabric ∧ ((takeFree w s).2).host = s.host ∧
    ((takeFree w s).2).mgmt = s.mgmt ∧ ((takeFree w s).2).sec = s.sec ∧ ((takeFree w s).2).integ = s.integ ∧
    ((takeFree w s).2).es = s.es ∧ ((takeFree w s).2).evc = s.evc ∧ ((takeFree w s).2).sens = s.sens ∧
    ((takeFree w s).2).cfg = s.cfg ∧ ((takeFree w s).2).out = s.out ∧ ((takeFree w s).2).pending = s.pending := by
  simp [takeFree]

@[simp] theorem pldmSend_frame (a b : Nat) (s : State) :
    (pldmSend a b s).life = s.life ∧ (pldmSend a b s).cascade = s.cascade ∧ (pldmSend a b s).slots = s.slots ∧
    (pldmSend a b s).pkg = s.pkg ∧ (pldmSend a b s).tiles = s.tiles ∧ (pldmSend a b s).fences = s.fences ∧
    (pldmSend a b s).job = s.job ∧ (pldmSend a b s).stepSet = s.stepSet ∧ (pldmSend a b s).cond = s.cond ∧
    (pldmSend a b s).fennel = s.fennel ∧ (pldmSend a b s).fabric = s.fabric ∧ (pldmSend a b s).host = s.host ∧
    (pldmSend a b s).mgmt = s.mgmt ∧ (pldmSend a b s).sec = s.sec ∧ (pldmSend a b s).integ = s.integ ∧
    (pldmSend a b s).es = s.es ∧ (pldmSend a b s).evc = s.evc ∧ (pldmSend a b s).sens = s.sens ∧
    (pldmSend a b s).cfg = s.cfg ∧ (pldmSend a b s).freeUsed = s.freeUsed ∧ (pldmSend a b s).pending = s.pending := by
  unfold pldmSend; split <;> simp

@[simp] theorem evCount_frame (b c i k n : Nat) (s : State) :
    (evCount b c i k n s).life = s.life ∧ (evCount b c i k n s).cascade = s.cascade ∧
    (evCount b c i k n s).slots = s.slots ∧ (evCount b c i k n s).pkg = s.pkg ∧
    (evCount b c i k n s).tiles = s.tiles ∧ (evCount b c i k n s).fences = s.fences ∧
    (evCount b c i k n s).job = s.job ∧ (evCount b c i k n s).stepSet = s.stepSet ∧
    (evCount b c i k n s).cond = s.cond ∧ (evCount b c i k n s).fennel = s.fennel ∧
    (evCount b c i k n s).fabric = s.fabric ∧ (evCount b c i k n s).host = s.host ∧
    (evCount b c i k n s).mgmt = s.mgmt ∧ (evCount b c i k n s).sec = s.sec ∧ (evCount b c i k n s).integ = s.integ ∧
    (evCount b c i k n s).es = s.es ∧ (evCount b c i k n s).sens = s.sens ∧ (evCount b c i k n s).cfg = s.cfg ∧
    (evCount b c i k n s).out = s.out ∧ (evCount b c i k n s).freeUsed = s.freeUsed ∧
    (evCount b c i k n s).pending = s.pending := by
  unfold evCount; split <;> simp

@[simp] theorem evHub_frame (c i n : Nat) (s : State) :
    (evHub c i n s).life = s.life ∧ (evHub c i n s).cascade = s.cascade ∧ (evHub c i n s).slots = s.slots ∧
    (evHub c i n s).pkg = s.pkg ∧ (evHub c i n s).tiles = s.tiles ∧ (evHub c i n s).fences = s.fences ∧
    (evHub c i n s).job = s.job ∧ (evHub c i n s).stepSet = s.stepSet ∧ (evHub c i n s).cond = s.cond ∧
    (evHub c i n s).fennel = s.fennel ∧ (evHub c i n s).fabric = s.fabric ∧ (evHub c i n s).host = s.host ∧
    (evHub c i n s).mgmt = s.mgmt ∧ (evHub c i n s).sec = s.sec ∧ (evHub c i n s).integ = s.integ ∧
    (evHub c i n s).es = s.es ∧ (evHub c i n s).sens = s.sens ∧ (evHub c i n s).cfg = s.cfg ∧
    (evHub c i n s).out = s.out ∧ (evHub c i n s).freeUsed = s.freeUsed ∧ (evHub c i n s).pending = s.pending := by
  simp [evHub]

/-- Counting changes the event counters alone. -/
theorem evCount_only (b c i k n : Nat) (s : State) : ∃ e, evCount b c i k n s = { s with evc := e } := by
  unfold evCount; dsimp only; split
  · exact ⟨s.evc, rfl⟩
  · exact ⟨_, rfl⟩

/-- So does a fold of steps that do. -/
theorem forAll_only {α : Type} {xs : List α} {f : State → α → State} (h : ∀ s x, ∃ e, f s x = { s with evc := e })
    (s : State) : ∃ e, forAll xs f s = { s with evc := e } := by
  induction xs generalizing s with
  | nil => exact ⟨s.evc, rfl⟩
  | cons x xs ih =>
    obtain ⟨e, he⟩ := h s x
    obtain ⟨e', he'⟩ := ih (f s x)
    exact ⟨e', he'.trans (by rw [he])⟩

theorem moveLines_only (a b n : Nat) (s : State) : ∃ e, moveLines a b n s = { s with evc := e } := by
  refine forAll_only (fun s h => ?_) s
  dsimp only
  obtain ⟨e, he⟩ := evCount_only h.1 0x40 (linkNo h.1 h.2) 0 n s
  obtain ⟨e', he'⟩ := evCount_only h.2 0x42 (linkNo h.2 h.1) 0 n s
  obtain ⟨e2, he2⟩ := evCount_only h.2 0x42 (linkNo h.2 h.1) 0 n { s with evc := e }
  split <;> split
  · exact ⟨s.evc, rfl⟩
  · exact ⟨e, he⟩
  · exact ⟨e', he'⟩
  · exact ⟨e2, by rw [he, he2]⟩

theorem moveTouched_only (n : Nat) (s : State) : ∃ e, moveTouched n s = { s with evc := e } := by
  refine forAll_only (fun s x => ?_) s
  dsimp only
  split <;> exact moveLines_only ..

@[simp] theorem moveLines_frame (a b n : Nat) (s : State) :
    (moveLines a b n s).life = s.life ∧ (moveLines a b n s).cascade = s.cascade ∧
    (moveLines a b n s).slots = s.slots ∧ (moveLines a b n s).pkg = s.pkg ∧ (moveLines a b n s).tiles = s.tiles ∧
    (moveLines a b n s).fences = s.fences ∧ (moveLines a b n s).job = s.job ∧
    (moveLines a b n s).stepSet = s.stepSet ∧ (moveLines a b n s).cond = s.cond ∧
    (moveLines a b n s).fennel = s.fennel ∧ (moveLines a b n s).fabric = s.fabric ∧
    (moveLines a b n s).host = s.host ∧ (moveLines a b n s).mgmt = s.mgmt ∧ (moveLines a b n s).sec = s.sec ∧
    (moveLines a b n s).integ = s.integ ∧ (moveLines a b n s).es = s.es ∧ (moveLines a b n s).sens = s.sens ∧
    (moveLines a b n s).cfg = s.cfg ∧ (moveLines a b n s).out = s.out ∧ (moveLines a b n s).freeUsed = s.freeUsed ∧
    (moveLines a b n s).pending = s.pending := by
  obtain ⟨e, h⟩ := moveLines_only a b n s; simp [h]

@[simp] theorem moveTouched_frame (n : Nat) (s : State) :
    (moveTouched n s).life = s.life ∧ (moveTouched n s).cascade = s.cascade ∧ (moveTouched n s).slots = s.slots ∧
    (moveTouched n s).pkg = s.pkg ∧ (moveTouched n s).tiles = s.tiles ∧ (moveTouched n s).fences = s.fences ∧
    (moveTouched n s).job = s.job ∧ (moveTouched n s).stepSet = s.stepSet ∧ (moveTouched n s).cond = s.cond ∧
    (moveTouched n s).fennel = s.fennel ∧ (moveTouched n s).fabric = s.fabric ∧ (moveTouched n s).host = s.host ∧
    (moveTouched n s).mgmt = s.mgmt ∧ (moveTouched n s).sec = s.sec ∧ (moveTouched n s).integ = s.integ ∧
    (moveTouched n s).es = s.es ∧ (moveTouched n s).sens = s.sens ∧ (moveTouched n s).cfg = s.cfg ∧
    (moveTouched n s).out = s.out ∧ (moveTouched n s).freeUsed = s.freeUsed ∧ (moveTouched n s).pending = s.pending := by
  obtain ⟨e, h⟩ := moveTouched_only n s; simp [h]

@[simp] theorem sendMsix_frame (v : Nat) (s : State) :
    (sendMsix v s).life = s.life ∧ (sendMsix v s).cascade = s.cascade ∧ (sendMsix v s).slots = s.slots ∧
    (sendMsix v s).pkg = s.pkg ∧ (sendMsix v s).tiles = s.tiles ∧ (sendMsix v s).fences = s.fences ∧
    (sendMsix v s).job = s.job ∧ (sendMsix v s).stepSet = s.stepSet ∧ (sendMsix v s).cond = s.cond ∧
    (sendMsix v s).fennel = s.fennel ∧ (sendMsix v s).fabric = s.fabric ∧
    (sendMsix v s).host.trained = s.host.trained ∧ (sendMsix v s).host.narrow = s.host.narrow ∧
    (sendMsix v s).host.space = s.host.space ∧ (sendMsix v s).host.hdmUnits = s.host.hdmUnits ∧
    (sendMsix v s).host.hdmBase = s.host.hdmBase ∧ (sendMsix v s).host.hdmCommitted = s.host.hdmCommitted ∧
    (sendMsix v s).host.hdmError = s.host.hdmError ∧ (sendMsix v s).host.filter = s.host.filter ∧
    (sendMsix v s).host.dirty = s.host.dirty ∧ (sendMsix v s).host.answered = s.host.answered ∧
    (sendMsix v s).host.ide = s.host.ide ∧ (sendMsix v s).host.rings = s.host.rings ∧
    (sendMsix v s).host.cqs = s.host.cqs ∧ (sendMsix v s).host.d2h = s.host.d2h ∧
    (sendMsix v s).host.nextD2h = s.host.nextD2h ∧ (sendMsix v s).host.timeoutMs = s.host.timeoutMs ∧
    (sendMsix v s).host.msix = s.host.msix ∧ (sendMsix v s).host.esHoldoff = s.host.esHoldoff ∧
    (sendMsix v s).host.esPending = s.host.esPending ∧ (sendMsix v s).host.wakes = s.host.wakes ∧
    (sendMsix v s).host.stalled = s.host.stalled ∧ (sendMsix v s).mgmt = s.mgmt ∧ (sendMsix v s).sec = s.sec ∧
    (sendMsix v s).integ = s.integ ∧ (sendMsix v s).es = s.es ∧ (sendMsix v s).sens = s.sens ∧
    (sendMsix v s).cfg = s.cfg ∧ (sendMsix v s).freeUsed = s.freeUsed ∧ (sendMsix v s).pending = s.pending := by
  unfold sendMsix; split <;> simp

@[simp] theorem vector0_frame (s : State) :
    (vector0 s).life = s.life ∧ (vector0 s).cascade = s.cascade ∧ (vector0 s).slots = s.slots ∧
    (vector0 s).pkg = s.pkg ∧ (vector0 s).tiles = s.tiles ∧ (vector0 s).fences = s.fences ∧ (vector0 s).job = s.job ∧
    (vector0 s).stepSet = s.stepSet ∧ (vector0 s).cond = s.cond ∧ (vector0 s).fennel = s.fennel ∧
    (vector0 s).fabric = s.fabric ∧ (vector0 s).host.trained = s.host.trained ∧
    (vector0 s).host.narrow = s.host.narrow ∧ (vector0 s).host.space = s.host.space ∧
    (vector0 s).host.hdmUnits = s.host.hdmUnits ∧ (vector0 s).host.hdmBase = s.host.hdmBase ∧
    (vector0 s).host.hdmCommitted = s.host.hdmCommitted ∧ (vector0 s).host.hdmError = s.host.hdmError ∧
    (vector0 s).host.filter = s.host.filter ∧ (vector0 s).host.dirty = s.host.dirty ∧
    (vector0 s).host.answered = s.host.answered ∧ (vector0 s).host.ide = s.host.ide ∧
    (vector0 s).host.rings = s.host.rings ∧ (vector0 s).host.cqs = s.host.cqs ∧ (vector0 s).host.d2h = s.host.d2h ∧
    (vector0 s).host.nextD2h = s.host.nextD2h ∧ (vector0 s).host.timeoutMs = s.host.timeoutMs ∧
    (vector0 s).host.msix = s.host.msix ∧ (vector0 s).host.wakes = s.host.wakes ∧
    (vector0 s).host.stalled = s.host.stalled ∧ (vector0 s).mgmt = s.mgmt ∧ (vector0 s).sec = s.sec ∧
    (vector0 s).integ = s.integ ∧ (vector0 s).es = s.es ∧ (vector0 s).sens = s.sens ∧ (vector0 s).cfg = s.cfg ∧
    (vector0 s).freeUsed = s.freeUsed ∧ (vector0 s).pending = s.pending := by
  unfold vector0; split <;> simp

@[simp] theorem esRaise_frame (i : Nat) (s : State) :
    (esRaise i s).life = s.life ∧ (esRaise i s).cascade = s.cascade ∧ (esRaise i s).slots = s.slots ∧
    (esRaise i s).pkg = s.pkg ∧ (esRaise i s).tiles = s.tiles ∧ (esRaise i s).fences = s.fences ∧
    (esRaise i s).job = s.job ∧ (esRaise i s).stepSet = s.stepSet ∧ (esRaise i s).cond = s.cond ∧
    (esRaise i s).fennel = s.fennel ∧ (esRaise i s).fabric = s.fabric ∧ (esRaise i s).host.trained = s.host.trained ∧
    (esRaise i s).host.narrow = s.host.narrow ∧ (esRaise i s).host.space = s.host.space ∧
    (esRaise i s).host.hdmUnits = s.host.hdmUnits ∧ (esRaise i s).host.hdmBase = s.host.hdmBase ∧
    (esRaise i s).host.hdmCommitted = s.host.hdmCommitted ∧ (esRaise i s).host.hdmError = s.host.hdmError ∧
    (esRaise i s).host.filter = s.host.filter ∧ (esRaise i s).host.dirty = s.host.dirty ∧
    (esRaise i s).host.answered = s.host.answered ∧ (esRaise i s).host.ide = s.host.ide ∧
    (esRaise i s).host.rings = s.host.rings ∧ (esRaise i s).host.cqs = s.host.cqs ∧
    (esRaise i s).host.d2h = s.host.d2h ∧ (esRaise i s).host.nextD2h = s.host.nextD2h ∧
    (esRaise i s).host.timeoutMs = s.host.timeoutMs ∧ (esRaise i s).host.msix = s.host.msix ∧
    (esRaise i s).host.wakes = s.host.wakes ∧ (esRaise i s).host.stalled = s.host.stalled ∧
    (esRaise i s).mgmt = s.mgmt ∧ (esRaise i s).sec = s.sec ∧ (esRaise i s).integ = s.integ ∧
    (esRaise i s).es.refused = s.es.refused ∧ (esRaise i s).es.discard = s.es.discard ∧
    (esRaise i s).es.auth = s.es.auth ∧ (esRaise i s).es.staleInc = s.es.staleInc ∧
    (esRaise i s).es.staleArr = s.es.staleArr ∧ (esRaise i s).es.lateFault = s.es.lateFault ∧
    (esRaise i s).es.refusal = s.es.refusal ∧ (esRaise i s).es.window = s.es.window ∧
    (esRaise i s).es.ringError = s.es.ringError ∧ (esRaise i s).es.jobFault = s.es.jobFault ∧
    (esRaise i s).es.ce = s.es.ce ∧ (esRaise i s).es.ue = s.es.ue ∧ (esRaise i s).es.bar2 = s.es.bar2 ∧
    (esRaise i s).es.lastFault = s.es.lastFault ∧ (esRaise i s).es.lastTask = s.es.lastTask ∧
    (esRaise i s).sens = s.sens ∧ (esRaise i s).cfg = s.cfg ∧ (esRaise i s).freeUsed = s.freeUsed ∧
    (esRaise i s).pending = s.pending := by
  unfold esRaise; split <;> simp

@[simp] theorem esTaskRefused_frame (s : State) :
    (esTaskRefused s).life = s.life ∧ (esTaskRefused s).cascade = s.cascade ∧ (esTaskRefused s).slots = s.slots ∧
    (esTaskRefused s).pkg = s.pkg ∧ (esTaskRefused s).tiles = s.tiles ∧ (esTaskRefused s).fences = s.fences ∧
    (esTaskRefused s).job = s.job ∧ (esTaskRefused s).stepSet = s.stepSet ∧ (esTaskRefused s).cond = s.cond ∧
    (esTaskRefused s).fennel = s.fennel ∧ (esTaskRefused s).fabric = s.fabric ∧
    (esTaskRefused s).host.trained = s.host.trained ∧ (esTaskRefused s).host.narrow = s.host.narrow ∧
    (esTaskRefused s).host.space = s.host.space ∧ (esTaskRefused s).host.hdmUnits = s.host.hdmUnits ∧
    (esTaskRefused s).host.hdmBase = s.host.hdmBase ∧ (esTaskRefused s).host.hdmCommitted = s.host.hdmCommitted ∧
    (esTaskRefused s).host.hdmError = s.host.hdmError ∧ (esTaskRefused s).host.filter = s.host.filter ∧
    (esTaskRefused s).host.dirty = s.host.dirty ∧ (esTaskRefused s).host.answered = s.host.answered ∧
    (esTaskRefused s).host.ide = s.host.ide ∧ (esTaskRefused s).host.rings = s.host.rings ∧
    (esTaskRefused s).host.cqs = s.host.cqs ∧ (esTaskRefused s).host.d2h = s.host.d2h ∧
    (esTaskRefused s).host.nextD2h = s.host.nextD2h ∧ (esTaskRefused s).host.timeoutMs = s.host.timeoutMs ∧
    (esTaskRefused s).host.msix = s.host.msix ∧ (esTaskRefused s).host.wakes = s.host.wakes ∧
    (esTaskRefused s).host.stalled = s.host.stalled ∧ (esTaskRefused s).mgmt = s.mgmt ∧
    (esTaskRefused s).sec = s.sec ∧ (esTaskRefused s).integ = s.integ ∧ (esTaskRefused s).es.discard = s.es.discard ∧
    (esTaskRefused s).es.auth = s.es.auth ∧ (esTaskRefused s).es.staleInc = s.es.staleInc ∧
    (esTaskRefused s).es.staleArr = s.es.staleArr ∧ (esTaskRefused s).es.lateFault = s.es.lateFault ∧
    (esTaskRefused s).es.refusal = s.es.refusal ∧ (esTaskRefused s).es.window = s.es.window ∧
    (esTaskRefused s).es.ringError = s.es.ringError ∧ (esTaskRefused s).es.jobFault = s.es.jobFault ∧
    (esTaskRefused s).es.ce = s.es.ce ∧ (esTaskRefused s).es.ue = s.es.ue ∧ (esTaskRefused s).es.bar2 = s.es.bar2 ∧
    (esTaskRefused s).es.lastFault = s.es.lastFault ∧ (esTaskRefused s).es.lastTask = s.es.lastTask ∧
    (esTaskRefused s).sens = s.sens ∧ (esTaskRefused s).cfg = s.cfg ∧ (esTaskRefused s).freeUsed = s.freeUsed ∧
    (esTaskRefused s).pending = s.pending := by
  simp [esTaskRefused]

@[simp] theorem esRingError_frame (s : State) :
    (esRingError s).life = s.life ∧ (esRingError s).cascade = s.cascade ∧ (esRingError s).slots = s.slots ∧
    (esRingError s).pkg = s.pkg ∧ (esRingError s).tiles = s.tiles ∧ (esRingError s).fences = s.fences ∧
    (esRingError s).job = s.job ∧ (esRingError s).stepSet = s.stepSet ∧ (esRingError s).cond = s.cond ∧
    (esRingError s).fennel = s.fennel ∧ (esRingError s).fabric = s.fabric ∧
    (esRingError s).host.trained = s.host.trained ∧ (esRingError s).host.narrow = s.host.narrow ∧
    (esRingError s).host.space = s.host.space ∧ (esRingError s).host.hdmUnits = s.host.hdmUnits ∧
    (esRingError s).host.hdmBase = s.host.hdmBase ∧ (esRingError s).host.hdmCommitted = s.host.hdmCommitted ∧
    (esRingError s).host.hdmError = s.host.hdmError ∧ (esRingError s).host.filter = s.host.filter ∧
    (esRingError s).host.dirty = s.host.dirty ∧ (esRingError s).host.answered = s.host.answered ∧
    (esRingError s).host.ide = s.host.ide ∧ (esRingError s).host.rings = s.host.rings ∧
    (esRingError s).host.cqs = s.host.cqs ∧ (esRingError s).host.d2h = s.host.d2h ∧
    (esRingError s).host.nextD2h = s.host.nextD2h ∧ (esRingError s).host.timeoutMs = s.host.timeoutMs ∧
    (esRingError s).host.msix = s.host.msix ∧ (esRingError s).host.wakes = s.host.wakes ∧
    (esRingError s).host.stalled = s.host.stalled ∧ (esRingError s).mgmt = s.mgmt ∧ (esRingError s).sec = s.sec ∧
    (esRingError s).integ = s.integ ∧ (esRingError s).es.refused = s.es.refused ∧
    (esRingError s).es.discard = s.es.discard ∧ (esRingError s).es.auth = s.es.auth ∧
    (esRingError s).es.staleInc = s.es.staleInc ∧ (esRingError s).es.staleArr = s.es.staleArr ∧
    (esRingError s).es.lateFault = s.es.lateFault ∧ (esRingError s).es.refusal = s.es.refusal ∧
    (esRingError s).es.window = s.es.window ∧ (esRingError s).es.jobFault = s.es.jobFault ∧
    (esRingError s).es.ce = s.es.ce ∧ (esRingError s).es.ue = s.es.ue ∧ (esRingError s).es.bar2 = s.es.bar2 ∧
    (esRingError s).es.lastFault = s.es.lastFault ∧ (esRingError s).es.lastTask = s.es.lastTask ∧
    (esRingError s).sens = s.sens ∧ (esRingError s).cfg = s.cfg ∧ (esRingError s).freeUsed = s.freeUsed ∧
    (esRingError s).pending = s.pending := by
  simp [esRingError]

@[simp] theorem esJobFault_frame (s : State) :
    (esJobFault s).life = s.life ∧ (esJobFault s).cascade = s.cascade ∧ (esJobFault s).slots = s.slots ∧
    (esJobFault s).pkg = s.pkg ∧ (esJobFault s).tiles = s.tiles ∧ (esJobFault s).fences = s.fences ∧
    (esJobFault s).job = s.job ∧ (esJobFault s).stepSet = s.stepSet ∧ (esJobFault s).cond = s.cond ∧
    (esJobFault s).fennel = s.fennel ∧ (esJobFault s).fabric = s.fabric ∧
    (esJobFault s).host.trained = s.host.trained ∧ (esJobFault s).host.narrow = s.host.narrow ∧
    (esJobFault s).host.space = s.host.space ∧ (esJobFault s).host.hdmUnits = s.host.hdmUnits ∧
    (esJobFault s).host.hdmBase = s.host.hdmBase ∧ (esJobFault s).host.hdmCommitted = s.host.hdmCommitted ∧
    (esJobFault s).host.hdmError = s.host.hdmError ∧ (esJobFault s).host.filter = s.host.filter ∧
    (esJobFault s).host.dirty = s.host.dirty ∧ (esJobFault s).host.answered = s.host.answered ∧
    (esJobFault s).host.ide = s.host.ide ∧ (esJobFault s).host.rings = s.host.rings ∧
    (esJobFault s).host.cqs = s.host.cqs ∧ (esJobFault s).host.d2h = s.host.d2h ∧
    (esJobFault s).host.nextD2h = s.host.nextD2h ∧ (esJobFault s).host.timeoutMs = s.host.timeoutMs ∧
    (esJobFault s).host.msix = s.host.msix ∧ (esJobFault s).host.wakes = s.host.wakes ∧
    (esJobFault s).host.stalled = s.host.stalled ∧ (esJobFault s).mgmt = s.mgmt ∧ (esJobFault s).sec = s.sec ∧
    (esJobFault s).integ = s.integ ∧ (esJobFault s).es.refused = s.es.refused ∧
    (esJobFault s).es.discard = s.es.discard ∧ (esJobFault s).es.auth = s.es.auth ∧
    (esJobFault s).es.staleInc = s.es.staleInc ∧ (esJobFault s).es.staleArr = s.es.staleArr ∧
    (esJobFault s).es.lateFault = s.es.lateFault ∧ (esJobFault s).es.refusal = s.es.refusal ∧
    (esJobFault s).es.window = s.es.window ∧ (esJobFault s).es.ringError = s.es.ringError ∧
    (esJobFault s).es.ce = s.es.ce ∧ (esJobFault s).es.ue = s.es.ue ∧ (esJobFault s).es.bar2 = s.es.bar2 ∧
    (esJobFault s).es.lastFault = s.es.lastFault ∧ (esJobFault s).es.lastTask = s.es.lastTask ∧
    (esJobFault s).sens = s.sens ∧ (esJobFault s).cfg = s.cfg ∧ (esJobFault s).freeUsed = s.freeUsed ∧
    (esJobFault s).pending = s.pending := by
  simp [esJobFault]

@[simp] theorem esStaleInc_frame (s : State) :
    (esStaleInc s).life = s.life ∧ (esStaleInc s).cascade = s.cascade ∧ (esStaleInc s).slots = s.slots ∧
    (esStaleInc s).pkg = s.pkg ∧ (esStaleInc s).tiles = s.tiles ∧ (esStaleInc s).fences = s.fences ∧
    (esStaleInc s).job = s.job ∧ (esStaleInc s).stepSet = s.stepSet ∧ (esStaleInc s).cond = s.cond ∧
    (esStaleInc s).fennel = s.fennel ∧ (esStaleInc s).fabric = s.fabric ∧
    (esStaleInc s).host.trained = s.host.trained ∧ (esStaleInc s).host.narrow = s.host.narrow ∧
    (esStaleInc s).host.space = s.host.space ∧ (esStaleInc s).host.hdmUnits = s.host.hdmUnits ∧
    (esStaleInc s).host.hdmBase = s.host.hdmBase ∧ (esStaleInc s).host.hdmCommitted = s.host.hdmCommitted ∧
    (esStaleInc s).host.hdmError = s.host.hdmError ∧ (esStaleInc s).host.filter = s.host.filter ∧
    (esStaleInc s).host.dirty = s.host.dirty ∧ (esStaleInc s).host.answered = s.host.answered ∧
    (esStaleInc s).host.ide = s.host.ide ∧ (esStaleInc s).host.rings = s.host.rings ∧
    (esStaleInc s).host.cqs = s.host.cqs ∧ (esStaleInc s).host.d2h = s.host.d2h ∧
    (esStaleInc s).host.nextD2h = s.host.nextD2h ∧ (esStaleInc s).host.timeoutMs = s.host.timeoutMs ∧
    (esStaleInc s).host.msix = s.host.msix ∧ (esStaleInc s).host.wakes = s.host.wakes ∧
    (esStaleInc s).host.stalled = s.host.stalled ∧ (esStaleInc s).mgmt = s.mgmt ∧ (esStaleInc s).sec = s.sec ∧
    (esStaleInc s).integ = s.integ ∧ (esStaleInc s).es.refused = s.es.refused ∧
    (esStaleInc s).es.discard = s.es.discard ∧ (esStaleInc s).es.auth = s.es.auth ∧
    (esStaleInc s).es.staleArr = s.es.staleArr ∧ (esStaleInc s).es.lateFault = s.es.lateFault ∧
    (esStaleInc s).es.refusal = s.es.refusal ∧ (esStaleInc s).es.window = s.es.window ∧
    (esStaleInc s).es.ringError = s.es.ringError ∧ (esStaleInc s).es.jobFault = s.es.jobFault ∧
    (esStaleInc s).es.ce = s.es.ce ∧ (esStaleInc s).es.ue = s.es.ue ∧ (esStaleInc s).es.bar2 = s.es.bar2 ∧
    (esStaleInc s).es.lastFault = s.es.lastFault ∧ (esStaleInc s).es.lastTask = s.es.lastTask ∧
    (esStaleInc s).sens = s.sens ∧ (esStaleInc s).cfg = s.cfg ∧ (esStaleInc s).freeUsed = s.freeUsed ∧
    (esStaleInc s).pending = s.pending := by
  simp [esStaleInc]

@[simp] theorem esStaleArr_frame (s : State) :
    (esStaleArr s).life = s.life ∧ (esStaleArr s).cascade = s.cascade ∧ (esStaleArr s).slots = s.slots ∧
    (esStaleArr s).pkg = s.pkg ∧ (esStaleArr s).tiles = s.tiles ∧ (esStaleArr s).fences = s.fences ∧
    (esStaleArr s).job = s.job ∧ (esStaleArr s).stepSet = s.stepSet ∧ (esStaleArr s).cond = s.cond ∧
    (esStaleArr s).fennel = s.fennel ∧ (esStaleArr s).fabric = s.fabric ∧
    (esStaleArr s).host.trained = s.host.trained ∧ (esStaleArr s).host.narrow = s.host.narrow ∧
    (esStaleArr s).host.space = s.host.space ∧ (esStaleArr s).host.hdmUnits = s.host.hdmUnits ∧
    (esStaleArr s).host.hdmBase = s.host.hdmBase ∧ (esStaleArr s).host.hdmCommitted = s.host.hdmCommitted ∧
    (esStaleArr s).host.hdmError = s.host.hdmError ∧ (esStaleArr s).host.filter = s.host.filter ∧
    (esStaleArr s).host.dirty = s.host.dirty ∧ (esStaleArr s).host.answered = s.host.answered ∧
    (esStaleArr s).host.ide = s.host.ide ∧ (esStaleArr s).host.rings = s.host.rings ∧
    (esStaleArr s).host.cqs = s.host.cqs ∧ (esStaleArr s).host.d2h = s.host.d2h ∧
    (esStaleArr s).host.nextD2h = s.host.nextD2h ∧ (esStaleArr s).host.timeoutMs = s.host.timeoutMs ∧
    (esStaleArr s).host.msix = s.host.msix ∧ (esStaleArr s).host.wakes = s.host.wakes ∧
    (esStaleArr s).host.stalled = s.host.stalled ∧ (esStaleArr s).mgmt = s.mgmt ∧ (esStaleArr s).sec = s.sec ∧
    (esStaleArr s).integ = s.integ ∧ (esStaleArr s).es.refused = s.es.refused ∧
    (esStaleArr s).es.discard = s.es.discard ∧ (esStaleArr s).es.auth = s.es.auth ∧
    (esStaleArr s).es.staleInc = s.es.staleInc ∧ (esStaleArr s).es.lateFault = s.es.lateFault ∧
    (esStaleArr s).es.refusal = s.es.refusal ∧ (esStaleArr s).es.window = s.es.window ∧
    (esStaleArr s).es.ringError = s.es.ringError ∧ (esStaleArr s).es.jobFault = s.es.jobFault ∧
    (esStaleArr s).es.ce = s.es.ce ∧ (esStaleArr s).es.ue = s.es.ue ∧ (esStaleArr s).es.bar2 = s.es.bar2 ∧
    (esStaleArr s).es.lastFault = s.es.lastFault ∧ (esStaleArr s).es.lastTask = s.es.lastTask ∧
    (esStaleArr s).sens = s.sens ∧ (esStaleArr s).cfg = s.cfg ∧ (esStaleArr s).freeUsed = s.freeUsed ∧
    (esStaleArr s).pending = s.pending := by
  simp [esStaleArr]

@[simp] theorem esLateFault_frame (s : State) :
    (esLateFault s).life = s.life ∧ (esLateFault s).cascade = s.cascade ∧ (esLateFault s).slots = s.slots ∧
    (esLateFault s).pkg = s.pkg ∧ (esLateFault s).tiles = s.tiles ∧ (esLateFault s).fences = s.fences ∧
    (esLateFault s).job = s.job ∧ (esLateFault s).stepSet = s.stepSet ∧ (esLateFault s).cond = s.cond ∧
    (esLateFault s).fennel = s.fennel ∧ (esLateFault s).fabric = s.fabric ∧
    (esLateFault s).host.trained = s.host.trained ∧ (esLateFault s).host.narrow = s.host.narrow ∧
    (esLateFault s).host.space = s.host.space ∧ (esLateFault s).host.hdmUnits = s.host.hdmUnits ∧
    (esLateFault s).host.hdmBase = s.host.hdmBase ∧ (esLateFault s).host.hdmCommitted = s.host.hdmCommitted ∧
    (esLateFault s).host.hdmError = s.host.hdmError ∧ (esLateFault s).host.filter = s.host.filter ∧
    (esLateFault s).host.dirty = s.host.dirty ∧ (esLateFault s).host.answered = s.host.answered ∧
    (esLateFault s).host.ide = s.host.ide ∧ (esLateFault s).host.rings = s.host.rings ∧
    (esLateFault s).host.cqs = s.host.cqs ∧ (esLateFault s).host.d2h = s.host.d2h ∧
    (esLateFault s).host.nextD2h = s.host.nextD2h ∧ (esLateFault s).host.timeoutMs = s.host.timeoutMs ∧
    (esLateFault s).host.msix = s.host.msix ∧ (esLateFault s).host.wakes = s.host.wakes ∧
    (esLateFault s).host.stalled = s.host.stalled ∧ (esLateFault s).mgmt = s.mgmt ∧ (esLateFault s).sec = s.sec ∧
    (esLateFault s).integ = s.integ ∧ (esLateFault s).es.refused = s.es.refused ∧
    (esLateFault s).es.discard = s.es.discard ∧ (esLateFault s).es.auth = s.es.auth ∧
    (esLateFault s).es.staleInc = s.es.staleInc ∧ (esLateFault s).es.staleArr = s.es.staleArr ∧
    (esLateFault s).es.refusal = s.es.refusal ∧ (esLateFault s).es.window = s.es.window ∧
    (esLateFault s).es.ringError = s.es.ringError ∧ (esLateFault s).es.jobFault = s.es.jobFault ∧
    (esLateFault s).es.ce = s.es.ce ∧ (esLateFault s).es.ue = s.es.ue ∧ (esLateFault s).es.bar2 = s.es.bar2 ∧
    (esLateFault s).es.lastFault = s.es.lastFault ∧ (esLateFault s).es.lastTask = s.es.lastTask ∧
    (esLateFault s).sens = s.sens ∧ (esLateFault s).cfg = s.cfg ∧ (esLateFault s).freeUsed = s.freeUsed ∧
    (esLateFault s).pending = s.pending := by
  simp [esLateFault]

@[simp] theorem esRefusal_frame (s : State) :
    (esRefusal s).life = s.life ∧ (esRefusal s).cascade = s.cascade ∧ (esRefusal s).slots = s.slots ∧
    (esRefusal s).pkg = s.pkg ∧ (esRefusal s).tiles = s.tiles ∧ (esRefusal s).fences = s.fences ∧
    (esRefusal s).job = s.job ∧ (esRefusal s).stepSet = s.stepSet ∧ (esRefusal s).cond = s.cond ∧
    (esRefusal s).fennel = s.fennel ∧ (esRefusal s).fabric = s.fabric ∧ (esRefusal s).host.trained = s.host.trained ∧
    (esRefusal s).host.narrow = s.host.narrow ∧ (esRefusal s).host.space = s.host.space ∧
    (esRefusal s).host.hdmUnits = s.host.hdmUnits ∧ (esRefusal s).host.hdmBase = s.host.hdmBase ∧
    (esRefusal s).host.hdmCommitted = s.host.hdmCommitted ∧ (esRefusal s).host.hdmError = s.host.hdmError ∧
    (esRefusal s).host.filter = s.host.filter ∧ (esRefusal s).host.dirty = s.host.dirty ∧
    (esRefusal s).host.answered = s.host.answered ∧ (esRefusal s).host.ide = s.host.ide ∧
    (esRefusal s).host.rings = s.host.rings ∧ (esRefusal s).host.cqs = s.host.cqs ∧
    (esRefusal s).host.d2h = s.host.d2h ∧ (esRefusal s).host.nextD2h = s.host.nextD2h ∧
    (esRefusal s).host.timeoutMs = s.host.timeoutMs ∧ (esRefusal s).host.msix = s.host.msix ∧
    (esRefusal s).host.wakes = s.host.wakes ∧ (esRefusal s).host.stalled = s.host.stalled ∧
    (esRefusal s).mgmt = s.mgmt ∧ (esRefusal s).sec = s.sec ∧ (esRefusal s).integ = s.integ ∧
    (esRefusal s).es.refused = s.es.refused ∧ (esRefusal s).es.discard = s.es.discard ∧
    (esRefusal s).es.auth = s.es.auth ∧ (esRefusal s).es.staleInc = s.es.staleInc ∧
    (esRefusal s).es.staleArr = s.es.staleArr ∧ (esRefusal s).es.lateFault = s.es.lateFault ∧
    (esRefusal s).es.window = s.es.window ∧ (esRefusal s).es.ringError = s.es.ringError ∧
    (esRefusal s).es.jobFault = s.es.jobFault ∧ (esRefusal s).es.ce = s.es.ce ∧ (esRefusal s).es.ue = s.es.ue ∧
    (esRefusal s).es.bar2 = s.es.bar2 ∧ (esRefusal s).es.lastFault = s.es.lastFault ∧
    (esRefusal s).es.lastTask = s.es.lastTask ∧ (esRefusal s).sens = s.sens ∧ (esRefusal s).cfg = s.cfg ∧
    (esRefusal s).freeUsed = s.freeUsed ∧ (esRefusal s).pending = s.pending := by
  simp [esRefusal]

@[simp] theorem esWindow_frame (s : State) :
    (esWindow s).life = s.life ∧ (esWindow s).cascade = s.cascade ∧ (esWindow s).slots = s.slots ∧
    (esWindow s).pkg = s.pkg ∧ (esWindow s).tiles = s.tiles ∧ (esWindow s).fences = s.fences ∧
    (esWindow s).job = s.job ∧ (esWindow s).stepSet = s.stepSet ∧ (esWindow s).cond = s.cond ∧
    (esWindow s).fennel = s.fennel ∧ (esWindow s).fabric = s.fabric ∧ (esWindow s).host.trained = s.host.trained ∧
    (esWindow s).host.narrow = s.host.narrow ∧ (esWindow s).host.space = s.host.space ∧
    (esWindow s).host.hdmUnits = s.host.hdmUnits ∧ (esWindow s).host.hdmBase = s.host.hdmBase ∧
    (esWindow s).host.hdmCommitted = s.host.hdmCommitted ∧ (esWindow s).host.hdmError = s.host.hdmError ∧
    (esWindow s).host.filter = s.host.filter ∧ (esWindow s).host.dirty = s.host.dirty ∧
    (esWindow s).host.answered = s.host.answered ∧ (esWindow s).host.ide = s.host.ide ∧
    (esWindow s).host.rings = s.host.rings ∧ (esWindow s).host.cqs = s.host.cqs ∧
    (esWindow s).host.d2h = s.host.d2h ∧ (esWindow s).host.nextD2h = s.host.nextD2h ∧
    (esWindow s).host.timeoutMs = s.host.timeoutMs ∧ (esWindow s).host.msix = s.host.msix ∧
    (esWindow s).host.wakes = s.host.wakes ∧ (esWindow s).host.stalled = s.host.stalled ∧
    (esWindow s).mgmt = s.mgmt ∧ (esWindow s).sec = s.sec ∧ (esWindow s).integ = s.integ ∧
    (esWindow s).es.refused = s.es.refused ∧ (esWindow s).es.discard = s.es.discard ∧
    (esWindow s).es.auth = s.es.auth ∧ (esWindow s).es.staleInc = s.es.staleInc ∧
    (esWindow s).es.staleArr = s.es.staleArr ∧ (esWindow s).es.lateFault = s.es.lateFault ∧
    (esWindow s).es.refusal = s.es.refusal ∧ (esWindow s).es.ringError = s.es.ringError ∧
    (esWindow s).es.jobFault = s.es.jobFault ∧ (esWindow s).es.ce = s.es.ce ∧ (esWindow s).es.ue = s.es.ue ∧
    (esWindow s).es.bar2 = s.es.bar2 ∧ (esWindow s).es.lastFault = s.es.lastFault ∧
    (esWindow s).es.lastTask = s.es.lastTask ∧ (esWindow s).sens = s.sens ∧ (esWindow s).cfg = s.cfg ∧
    (esWindow s).freeUsed = s.freeUsed ∧ (esWindow s).pending = s.pending := by
  simp [esWindow]

@[simp] theorem esDiscard_frame (s : State) :
    (esDiscard s).life = s.life ∧ (esDiscard s).cascade = s.cascade ∧ (esDiscard s).slots = s.slots ∧
    (esDiscard s).pkg = s.pkg ∧ (esDiscard s).tiles = s.tiles ∧ (esDiscard s).fences = s.fences ∧
    (esDiscard s).job = s.job ∧ (esDiscard s).stepSet = s.stepSet ∧ (esDiscard s).cond = s.cond ∧
    (esDiscard s).fennel = s.fennel ∧ (esDiscard s).fabric = s.fabric ∧ (esDiscard s).host.trained = s.host.trained ∧
    (esDiscard s).host.narrow = s.host.narrow ∧ (esDiscard s).host.space = s.host.space ∧
    (esDiscard s).host.hdmUnits = s.host.hdmUnits ∧ (esDiscard s).host.hdmBase = s.host.hdmBase ∧
    (esDiscard s).host.hdmCommitted = s.host.hdmCommitted ∧ (esDiscard s).host.hdmError = s.host.hdmError ∧
    (esDiscard s).host.filter = s.host.filter ∧ (esDiscard s).host.dirty = s.host.dirty ∧
    (esDiscard s).host.answered = s.host.answered ∧ (esDiscard s).host.ide = s.host.ide ∧
    (esDiscard s).host.rings = s.host.rings ∧ (esDiscard s).host.cqs = s.host.cqs ∧
    (esDiscard s).host.d2h = s.host.d2h ∧ (esDiscard s).host.nextD2h = s.host.nextD2h ∧
    (esDiscard s).host.timeoutMs = s.host.timeoutMs ∧ (esDiscard s).host.msix = s.host.msix ∧
    (esDiscard s).host.wakes = s.host.wakes ∧ (esDiscard s).host.stalled = s.host.stalled ∧
    (esDiscard s).mgmt = s.mgmt ∧ (esDiscard s).sec = s.sec ∧ (esDiscard s).integ = s.integ ∧
    (esDiscard s).es.refused = s.es.refused ∧ (esDiscard s).es.auth = s.es.auth ∧
    (esDiscard s).es.staleInc = s.es.staleInc ∧ (esDiscard s).es.staleArr = s.es.staleArr ∧
    (esDiscard s).es.lateFault = s.es.lateFault ∧ (esDiscard s).es.refusal = s.es.refusal ∧
    (esDiscard s).es.window = s.es.window ∧ (esDiscard s).es.ringError = s.es.ringError ∧
    (esDiscard s).es.jobFault = s.es.jobFault ∧ (esDiscard s).es.ce = s.es.ce ∧ (esDiscard s).es.ue = s.es.ue ∧
    (esDiscard s).es.bar2 = s.es.bar2 ∧ (esDiscard s).es.lastFault = s.es.lastFault ∧
    (esDiscard s).es.lastTask = s.es.lastTask ∧ (esDiscard s).sens = s.sens ∧ (esDiscard s).cfg = s.cfg ∧
    (esDiscard s).freeUsed = s.freeUsed ∧ (esDiscard s).pending = s.pending := by
  simp [esDiscard]

@[simp] theorem esAuth_frame (s : State) :
    (esAuth s).life = s.life ∧ (esAuth s).cascade = s.cascade ∧ (esAuth s).slots = s.slots ∧ (esAuth s).pkg = s.pkg ∧
    (esAuth s).tiles = s.tiles ∧ (esAuth s).fences = s.fences ∧ (esAuth s).job = s.job ∧
    (esAuth s).stepSet = s.stepSet ∧ (esAuth s).cond = s.cond ∧ (esAuth s).fennel = s.fennel ∧
    (esAuth s).fabric = s.fabric ∧ (esAuth s).host.trained = s.host.trained ∧
    (esAuth s).host.narrow = s.host.narrow ∧ (esAuth s).host.space = s.host.space ∧
    (esAuth s).host.hdmUnits = s.host.hdmUnits ∧ (esAuth s).host.hdmBase = s.host.hdmBase ∧
    (esAuth s).host.hdmCommitted = s.host.hdmCommitted ∧ (esAuth s).host.hdmError = s.host.hdmError ∧
    (esAuth s).host.filter = s.host.filter ∧ (esAuth s).host.dirty = s.host.dirty ∧
    (esAuth s).host.answered = s.host.answered ∧ (esAuth s).host.ide = s.host.ide ∧
    (esAuth s).host.rings = s.host.rings ∧ (esAuth s).host.cqs = s.host.cqs ∧ (esAuth s).host.d2h = s.host.d2h ∧
    (esAuth s).host.nextD2h = s.host.nextD2h ∧ (esAuth s).host.timeoutMs = s.host.timeoutMs ∧
    (esAuth s).host.msix = s.host.msix ∧ (esAuth s).host.wakes = s.host.wakes ∧
    (esAuth s).host.stalled = s.host.stalled ∧ (esAuth s).mgmt = s.mgmt ∧ (esAuth s).sec = s.sec ∧
    (esAuth s).integ = s.integ ∧ (esAuth s).es.refused = s.es.refused ∧ (esAuth s).es.discard = s.es.discard ∧
    (esAuth s).es.staleInc = s.es.staleInc ∧ (esAuth s).es.staleArr = s.es.staleArr ∧
    (esAuth s).es.lateFault = s.es.lateFault ∧ (esAuth s).es.refusal = s.es.refusal ∧
    (esAuth s).es.window = s.es.window ∧ (esAuth s).es.ringError = s.es.ringError ∧
    (esAuth s).es.jobFault = s.es.jobFault ∧ (esAuth s).es.ce = s.es.ce ∧ (esAuth s).es.ue = s.es.ue ∧
    (esAuth s).es.bar2 = s.es.bar2 ∧ (esAuth s).es.lastFault = s.es.lastFault ∧
    (esAuth s).es.lastTask = s.es.lastTask ∧ (esAuth s).sens = s.sens ∧ (esAuth s).cfg = s.cfg ∧
    (esAuth s).freeUsed = s.freeUsed ∧ (esAuth s).pending = s.pending := by
  simp [esAuth]

@[simp] theorem logOver_frame (s : State) (k : Nat) (b : Bool) :
    (logOver s k b).life = s.life ∧ (logOver s k b).cascade = s.cascade ∧ (logOver s k b).slots = s.slots ∧
    (logOver s k b).pkg = s.pkg ∧ (logOver s k b).tiles = s.tiles ∧ (logOver s k b).fences = s.fences ∧
    (logOver s k b).job = s.job ∧ (logOver s k b).stepSet = s.stepSet ∧ (logOver s k b).cond = s.cond ∧
    (logOver s k b).fennel = s.fennel ∧ (logOver s k b).fabric = s.fabric ∧ (logOver s k b).host = s.host ∧
    (logOver s k b).mgmt = s.mgmt ∧ (logOver s k b).sec = s.sec ∧ (logOver s k b).integ.log0 = s.integ.log0 ∧
    (logOver s k b).integ.log1 = s.integ.log1 ∧ (logOver s k b).integ.log3 = s.integ.log3 ∧
    (logOver s k b).integ.lasting = s.integ.lasting ∧ (logOver s k b).integ.health = s.integ.health ∧
    (logOver s k b).integ.tests = s.integ.tests ∧ (logOver s k b).integ.regions = s.integ.regions ∧
    (logOver s k b).integ.reloading = s.integ.reloading ∧ (logOver s k b).integ.records = s.integ.records ∧
    (logOver s k b).integ.upsets = s.integ.upsets ∧ (logOver s k b).integ.trips = s.integ.trips ∧
    (logOver s k b).es = s.es ∧ (logOver s k b).evc = s.evc ∧ (logOver s k b).sens = s.sens ∧
    (logOver s k b).cfg = s.cfg ∧ (logOver s k b).out = s.out ∧ (logOver s k b).freeUsed = s.freeUsed ∧
    (logOver s k b).pending = s.pending := by
  unfold logOver; split <;> simp

@[simp] theorem log1Add_frame (k c t u a p : Nat) (s : State) :
    (log1Add k c t u a p s).life = s.life ∧ (log1Add k c t u a p s).cascade = s.cascade ∧
    (log1Add k c t u a p s).slots = s.slots ∧ (log1Add k c t u a p s).pkg = s.pkg ∧
    (log1Add k c t u a p s).tiles = s.tiles ∧ (log1Add k c t u a p s).fences = s.fences ∧
    (log1Add k c t u a p s).job = s.job ∧ (log1Add k c t u a p s).stepSet = s.stepSet ∧
    (log1Add k c t u a p s).cond = s.cond ∧ (log1Add k c t u a p s).fennel = s.fennel ∧
    (log1Add k c t u a p s).fabric = s.fabric ∧ (log1Add k c t u a p s).host.trained = s.host.trained ∧
    (log1Add k c t u a p s).host.narrow = s.host.narrow ∧ (log1Add k c t u a p s).host.space = s.host.space ∧
    (log1Add k c t u a p s).host.hdmUnits = s.host.hdmUnits ∧ (log1Add k c t u a p s).host.hdmBase = s.host.hdmBase ∧
    (log1Add k c t u a p s).host.hdmCommitted = s.host.hdmCommitted ∧
    (log1Add k c t u a p s).host.hdmError = s.host.hdmError ∧ (log1Add k c t u a p s).host.filter = s.host.filter ∧
    (log1Add k c t u a p s).host.dirty = s.host.dirty ∧ (log1Add k c t u a p s).host.answered = s.host.answered ∧
    (log1Add k c t u a p s).host.ide = s.host.ide ∧ (log1Add k c t u a p s).host.rings = s.host.rings ∧
    (log1Add k c t u a p s).host.cqs = s.host.cqs ∧ (log1Add k c t u a p s).host.d2h = s.host.d2h ∧
    (log1Add k c t u a p s).host.nextD2h = s.host.nextD2h ∧
    (log1Add k c t u a p s).host.timeoutMs = s.host.timeoutMs ∧ (log1Add k c t u a p s).host.msix = s.host.msix ∧
    (log1Add k c t u a p s).host.wakes = s.host.wakes ∧ (log1Add k c t u a p s).host.stalled = s.host.stalled ∧
    (log1Add k c t u a p s).mgmt = s.mgmt ∧ (log1Add k c t u a p s).sec = s.sec ∧
    (log1Add k c t u a p s).integ.log0 = s.integ.log0 ∧ (log1Add k c t u a p s).integ.log3 = s.integ.log3 ∧
    (log1Add k c t u a p s).integ.lasting = s.integ.lasting ∧ (log1Add k c t u a p s).integ.health = s.integ.health ∧
    (log1Add k c t u a p s).integ.tests = s.integ.tests ∧ (log1Add k c t u a p s).integ.regions = s.integ.regions ∧
    (log1Add k c t u a p s).integ.reloading = s.integ.reloading ∧
    (log1Add k c t u a p s).integ.records = s.integ.records ∧ (log1Add k c t u a p s).integ.upsets = s.integ.upsets ∧
    (log1Add k c t u a p s).integ.trips = s.integ.trips ∧ (log1Add k c t u a p s).es.refused = s.es.refused ∧
    (log1Add k c t u a p s).es.discard = s.es.discard ∧ (log1Add k c t u a p s).es.auth = s.es.auth ∧
    (log1Add k c t u a p s).es.staleInc = s.es.staleInc ∧ (log1Add k c t u a p s).es.staleArr = s.es.staleArr ∧
    (log1Add k c t u a p s).es.lateFault = s.es.lateFault ∧ (log1Add k c t u a p s).es.refusal = s.es.refusal ∧
    (log1Add k c t u a p s).es.window = s.es.window ∧ (log1Add k c t u a p s).es.ringError = s.es.ringError ∧
    (log1Add k c t u a p s).es.jobFault = s.es.jobFault ∧ (log1Add k c t u a p s).es.ce = s.es.ce ∧
    (log1Add k c t u a p s).es.ue = s.es.ue ∧ (log1Add k c t u a p s).es.bar2 = s.es.bar2 ∧
    (log1Add k c t u a p s).es.lastFault = s.es.lastFault ∧ (log1Add k c t u a p s).es.lastTask = s.es.lastTask ∧
    (log1Add k c t u a p s).sens = s.sens ∧ (log1Add k c t u a p s).cfg = s.cfg ∧
    (log1Add k c t u a p s).freeUsed = s.freeUsed ∧ (log1Add k c t u a p s).pending = s.pending := by
  simp [log1Add]

@[simp] theorem log3Add_frame (k t u : Nat) (s : State) :
    (log3Add k t u s).life = s.life ∧ (log3Add k t u s).cascade = s.cascade ∧ (log3Add k t u s).slots = s.slots ∧
    (log3Add k t u s).pkg = s.pkg ∧ (log3Add k t u s).tiles = s.tiles ∧ (log3Add k t u s).fences = s.fences ∧
    (log3Add k t u s).job = s.job ∧ (log3Add k t u s).stepSet = s.stepSet ∧ (log3Add k t u s).cond = s.cond ∧
    (log3Add k t u s).fennel = s.fennel ∧ (log3Add k t u s).fabric = s.fabric ∧
    (log3Add k t u s).host.trained = s.host.trained ∧ (log3Add k t u s).host.narrow = s.host.narrow ∧
    (log3Add k t u s).host.space = s.host.space ∧ (log3Add k t u s).host.hdmUnits = s.host.hdmUnits ∧
    (log3Add k t u s).host.hdmBase = s.host.hdmBase ∧ (log3Add k t u s).host.hdmCommitted = s.host.hdmCommitted ∧
    (log3Add k t u s).host.hdmError = s.host.hdmError ∧ (log3Add k t u s).host.filter = s.host.filter ∧
    (log3Add k t u s).host.dirty = s.host.dirty ∧ (log3Add k t u s).host.answered = s.host.answered ∧
    (log3Add k t u s).host.ide = s.host.ide ∧ (log3Add k t u s).host.rings = s.host.rings ∧
    (log3Add k t u s).host.cqs = s.host.cqs ∧ (log3Add k t u s).host.d2h = s.host.d2h ∧
    (log3Add k t u s).host.nextD2h = s.host.nextD2h ∧ (log3Add k t u s).host.timeoutMs = s.host.timeoutMs ∧
    (log3Add k t u s).host.msix = s.host.msix ∧ (log3Add k t u s).host.wakes = s.host.wakes ∧
    (log3Add k t u s).host.stalled = s.host.stalled ∧ (log3Add k t u s).mgmt = s.mgmt ∧
    (log3Add k t u s).sec = s.sec ∧ (log3Add k t u s).integ.log0 = s.integ.log0 ∧
    (log3Add k t u s).integ.log1 = s.integ.log1 ∧ (log3Add k t u s).integ.lasting = s.integ.lasting ∧
    (log3Add k t u s).integ.health = s.integ.health ∧ (log3Add k t u s).integ.tests = s.integ.tests ∧
    (log3Add k t u s).integ.regions = s.integ.regions ∧ (log3Add k t u s).integ.reloading = s.integ.reloading ∧
    (log3Add k t u s).integ.records = s.integ.records ∧ (log3Add k t u s).integ.upsets = s.integ.upsets ∧
    (log3Add k t u s).integ.trips = s.integ.trips ∧ (log3Add k t u s).es.refused = s.es.refused ∧
    (log3Add k t u s).es.discard = s.es.discard ∧ (log3Add k t u s).es.auth = s.es.auth ∧
    (log3Add k t u s).es.staleInc = s.es.staleInc ∧ (log3Add k t u s).es.staleArr = s.es.staleArr ∧
    (log3Add k t u s).es.lateFault = s.es.lateFault ∧ (log3Add k t u s).es.refusal = s.es.refusal ∧
    (log3Add k t u s).es.window = s.es.window ∧ (log3Add k t u s).es.ringError = s.es.ringError ∧
    (log3Add k t u s).es.jobFault = s.es.jobFault ∧ (log3Add k t u s).es.ce = s.es.ce ∧
    (log3Add k t u s).es.ue = s.es.ue ∧ (log3Add k t u s).es.bar2 = s.es.bar2 ∧
    (log3Add k t u s).es.lastFault = s.es.lastFault ∧ (log3Add k t u s).es.lastTask = s.es.lastTask ∧
    (log3Add k t u s).sens = s.sens ∧ (log3Add k t u s).cfg = s.cfg ∧ (log3Add k t u s).freeUsed = s.freeUsed ∧
    (log3Add k t u s).pending = s.pending := by
  simp [log3Add]

@[simp] theorem log4Add_frame (w x c f r : Nat) (s : State) :
    (log4Add w x c f r s).life = s.life ∧ (log4Add w x c f r s).cascade = s.cascade ∧
    (log4Add w x c f r s).slots = s.slots ∧ (log4Add w x c f r s).pkg = s.pkg ∧
    (log4Add w x c f r s).tiles = s.tiles ∧ (log4Add w x c f r s).fences = s.fences ∧
    (log4Add w x c f r s).job = s.job ∧ (log4Add w x c f r s).stepSet = s.stepSet ∧
    (log4Add w x c f r s).cond = s.cond ∧ (log4Add w x c f r s).fennel = s.fennel ∧
    (log4Add w x c f r s).fabric.ports = s.fabric.ports ∧ (log4Add w x c f r s).fabric.planId = s.fabric.planId ∧
    (log4Add w x c f r s).fabric.planGen = s.fabric.planGen ∧ (log4Add w x c f r s).fabric.plan = s.fabric.plan ∧
    (log4Add w x c f r s).fabric.members = s.fabric.members ∧ (log4Add w x c f r s).fabric.reach = s.fabric.reach ∧
    (log4Add w x c f r s).fabric.routes = s.fabric.routes ∧ (log4Add w x c f r s).fabric.chans = s.fabric.chans ∧
    (log4Add w x c f r s).fabric.windows = s.fabric.windows ∧
    (log4Add w x c f r s).fabric.winEpochs = s.fabric.winEpochs ∧
    (log4Add w x c f r s).fabric.notices = s.fabric.notices ∧ (log4Add w x c f r s).fabric.caps = s.fabric.caps ∧
    (log4Add w x c f r s).fabric.accums = s.fabric.accums ∧ (log4Add w x c f r s).fabric.peers = s.fabric.peers ∧
    (log4Add w x c f r s).fabric.attest = s.fabric.attest ∧
    (log4Add w x c f r s).fabric.touchUsed = s.fabric.touchUsed ∧ (log4Add w x c f r s).host = s.host ∧
    (log4Add w x c f r s).mgmt = s.mgmt ∧ (log4Add w x c f r s).sec = s.sec ∧
    (log4Add w x c f r s).integ.log0 = s.integ.log0 ∧ (log4Add w x c f r s).integ.log1 = s.integ.log1 ∧
    (log4Add w x c f r s).integ.log3 = s.integ.log3 ∧ (log4Add w x c f r s).integ.lasting = s.integ.lasting ∧
    (log4Add w x c f r s).integ.health = s.integ.health ∧ (log4Add w x c f r s).integ.tests = s.integ.tests ∧
    (log4Add w x c f r s).integ.regions = s.integ.regions ∧
    (log4Add w x c f r s).integ.reloading = s.integ.reloading ∧
    (log4Add w x c f r s).integ.records = s.integ.records ∧ (log4Add w x c f r s).integ.upsets = s.integ.upsets ∧
    (log4Add w x c f r s).integ.trips = s.integ.trips ∧ (log4Add w x c f r s).es = s.es ∧
    (log4Add w x c f r s).evc = s.evc ∧ (log4Add w x c f r s).sens = s.sens ∧ (log4Add w x c f r s).cfg = s.cfg ∧
    (log4Add w x c f r s).out = s.out ∧ (log4Add w x c f r s).freeUsed = s.freeUsed ∧
    (log4Add w x c f r s).pending = s.pending := by
  simp [log4Add]

@[simp] theorem ueLog_frame (l : Loc) (p : Nat) (s : State) :
    (ueLog l p s).life = s.life ∧ (ueLog l p s).cascade = s.cascade ∧ (ueLog l p s).slots = s.slots ∧
    (ueLog l p s).pkg = s.pkg ∧ (ueLog l p s).tiles = s.tiles ∧ (ueLog l p s).fences = s.fences ∧
    (ueLog l p s).job = s.job ∧ (ueLog l p s).stepSet = s.stepSet ∧ (ueLog l p s).cond = s.cond ∧
    (ueLog l p s).fennel = s.fennel ∧ (ueLog l p s).fabric = s.fabric ∧ (ueLog l p s).host.trained = s.host.trained ∧
    (ueLog l p s).host.narrow = s.host.narrow ∧ (ueLog l p s).host.space = s.host.space ∧
    (ueLog l p s).host.hdmUnits = s.host.hdmUnits ∧ (ueLog l p s).host.hdmBase = s.host.hdmBase ∧
    (ueLog l p s).host.hdmCommitted = s.host.hdmCommitted ∧ (ueLog l p s).host.hdmError = s.host.hdmError ∧
    (ueLog l p s).host.filter = s.host.filter ∧ (ueLog l p s).host.dirty = s.host.dirty ∧
    (ueLog l p s).host.answered = s.host.answered ∧ (ueLog l p s).host.ide = s.host.ide ∧
    (ueLog l p s).host.rings = s.host.rings ∧ (ueLog l p s).host.cqs = s.host.cqs ∧
    (ueLog l p s).host.d2h = s.host.d2h ∧ (ueLog l p s).host.nextD2h = s.host.nextD2h ∧
    (ueLog l p s).host.timeoutMs = s.host.timeoutMs ∧ (ueLog l p s).host.msix = s.host.msix ∧
    (ueLog l p s).host.wakes = s.host.wakes ∧ (ueLog l p s).host.stalled = s.host.stalled ∧
    (ueLog l p s).mgmt = s.mgmt ∧ (ueLog l p s).sec = s.sec ∧ (ueLog l p s).integ.log0 = s.integ.log0 ∧
    (ueLog l p s).integ.log3 = s.integ.log3 ∧ (ueLog l p s).integ.lasting = s.integ.lasting ∧
    (ueLog l p s).integ.health = s.integ.health ∧ (ueLog l p s).integ.tests = s.integ.tests ∧
    (ueLog l p s).integ.regions = s.integ.regions ∧ (ueLog l p s).integ.reloading = s.integ.reloading ∧
    (ueLog l p s).integ.records = s.integ.records ∧ (ueLog l p s).integ.upsets = s.integ.upsets ∧
    (ueLog l p s).integ.trips = s.integ.trips ∧ (ueLog l p s).es.refused = s.es.refused ∧
    (ueLog l p s).es.discard = s.es.discard ∧ (ueLog l p s).es.auth = s.es.auth ∧
    (ueLog l p s).es.staleInc = s.es.staleInc ∧ (ueLog l p s).es.staleArr = s.es.staleArr ∧
    (ueLog l p s).es.lateFault = s.es.lateFault ∧ (ueLog l p s).es.refusal = s.es.refusal ∧
    (ueLog l p s).es.window = s.es.window ∧ (ueLog l p s).es.ringError = s.es.ringError ∧
    (ueLog l p s).es.jobFault = s.es.jobFault ∧ (ueLog l p s).es.ce = s.es.ce ∧ (ueLog l p s).es.bar2 = s.es.bar2 ∧
    (ueLog l p s).es.lastFault = s.es.lastFault ∧ (ueLog l p s).es.lastTask = s.es.lastTask ∧
    (ueLog l p s).sens = s.sens ∧ (ueLog l p s).cfg = s.cfg ∧ (ueLog l p s).freeUsed = s.freeUsed ∧
    (ueLog l p s).pending = s.pending := by
  simp [ueLog]

@[simp] theorem ceLog_frame (l : Loc) (p : Nat) (s : State) :
    (ceLog l p s).life = s.life ∧ (ceLog l p s).cascade = s.cascade ∧ (ceLog l p s).slots = s.slots ∧
    (ceLog l p s).pkg = s.pkg ∧ (ceLog l p s).tiles = s.tiles ∧ (ceLog l p s).fences = s.fences ∧
    (ceLog l p s).job = s.job ∧ (ceLog l p s).stepSet = s.stepSet ∧ (ceLog l p s).cond = s.cond ∧
    (ceLog l p s).fennel = s.fennel ∧ (ceLog l p s).fabric = s.fabric ∧ (ceLog l p s).host = s.host ∧
    (ceLog l p s).mgmt = s.mgmt ∧ (ceLog l p s).sec = s.sec ∧ (ceLog l p s).integ.log1 = s.integ.log1 ∧
    (ceLog l p s).integ.log3 = s.integ.log3 ∧ (ceLog l p s).integ.health = s.integ.health ∧
    (ceLog l p s).integ.regions = s.integ.regions ∧ (ceLog l p s).integ.reloading = s.integ.reloading ∧
    (ceLog l p s).integ.records = s.integ.records ∧ (ceLog l p s).integ.upsets = s.integ.upsets ∧
    (ceLog l p s).integ.trips = s.integ.trips ∧ (ceLog l p s).es.bits = s.es.bits ∧
    (ceLog l p s).es.refused = s.es.refused ∧ (ceLog l p s).es.discard = s.es.discard ∧
    (ceLog l p s).es.auth = s.es.auth ∧ (ceLog l p s).es.staleInc = s.es.staleInc ∧
    (ceLog l p s).es.staleArr = s.es.staleArr ∧ (ceLog l p s).es.lateFault = s.es.lateFault ∧
    (ceLog l p s).es.refusal = s.es.refusal ∧ (ceLog l p s).es.window = s.es.window ∧
    (ceLog l p s).es.ringError = s.es.ringError ∧ (ceLog l p s).es.jobFault = s.es.jobFault ∧
    (ceLog l p s).es.ue = s.es.ue ∧ (ceLog l p s).es.bar2 = s.es.bar2 ∧ (ceLog l p s).es.lastFault = s.es.lastFault ∧
    (ceLog l p s).es.lastTask = s.es.lastTask ∧ (ceLog l p s).sens = s.sens ∧ (ceLog l p s).cfg = s.cfg ∧
    (ceLog l p s).out = s.out ∧ (ceLog l p s).freeUsed = s.freeUsed ∧ (ceLog l p s).pending = s.pending := by
  unfold ceLog; dsimp only
  generalize hc : (if (locKind l == 1) = true then 0x3A else 0x24) = code
  clear hc
  split
  · simp
  · split <;> simp

@[simp] theorem ceMark_frame (k t u a : Nat) (s : State) :
    (ceMark k t u a s).life = s.life ∧ (ceMark k t u a s).cascade = s.cascade ∧ (ceMark k t u a s).slots = s.slots ∧
    (ceMark k t u a s).pkg = s.pkg ∧ (ceMark k t u a s).tiles = s.tiles ∧ (ceMark k t u a s).fences = s.fences ∧
    (ceMark k t u a s).job = s.job ∧ (ceMark k t u a s).stepSet = s.stepSet ∧ (ceMark k t u a s).cond = s.cond ∧
    (ceMark k t u a s).fennel = s.fennel ∧ (ceMark k t u a s).fabric = s.fabric ∧ (ceMark k t u a s).host = s.host ∧
    (ceMark k t u a s).mgmt = s.mgmt ∧ (ceMark k t u a s).sec = s.sec ∧
    (ceMark k t u a s).integ.log1 = s.integ.log1 ∧ (ceMark k t u a s).integ.log3 = s.integ.log3 ∧
    (ceMark k t u a s).integ.lasting = s.integ.lasting ∧ (ceMark k t u a s).integ.health = s.integ.health ∧
    (ceMark k t u a s).integ.tests = s.integ.tests ∧ (ceMark k t u a s).integ.regions = s.integ.regions ∧
    (ceMark k t u a s).integ.reloading = s.integ.reloading ∧ (ceMark k t u a s).integ.records = s.integ.records ∧
    (ceMark k t u a s).integ.upsets = s.integ.upsets ∧ (ceMark k t u a s).integ.trips = s.integ.trips ∧
    (ceMark k t u a s).es.bits = s.es.bits ∧ (ceMark k t u a s).es.refused = s.es.refused ∧
    (ceMark k t u a s).es.discard = s.es.discard ∧ (ceMark k t u a s).es.auth = s.es.auth ∧
    (ceMark k t u a s).es.staleInc = s.es.staleInc ∧ (ceMark k t u a s).es.staleArr = s.es.staleArr ∧
    (ceMark k t u a s).es.lateFault = s.es.lateFault ∧ (ceMark k t u a s).es.refusal = s.es.refusal ∧
    (ceMark k t u a s).es.window = s.es.window ∧ (ceMark k t u a s).es.ringError = s.es.ringError ∧
    (ceMark k t u a s).es.jobFault = s.es.jobFault ∧ (ceMark k t u a s).es.ue = s.es.ue ∧
    (ceMark k t u a s).es.bar2 = s.es.bar2 ∧ (ceMark k t u a s).es.lastFault = s.es.lastFault ∧
    (ceMark k t u a s).es.lastTask = s.es.lastTask ∧ (ceMark k t u a s).evc = s.evc ∧
    (ceMark k t u a s).sens = s.sens ∧ (ceMark k t u a s).cfg = s.cfg ∧ (ceMark k t u a s).out = s.out ∧
    (ceMark k t u a s).freeUsed = s.freeUsed ∧ (ceMark k t u a s).pending = s.pending := by
  unfold ceMark; dsimp only; split
  · simp
  · split <;> simp

@[simp] theorem setModState_frame (m : ModState) (s : State) :
    (setModState m s).life.inputOn = s.life.inputOn ∧ (setModState m s).life.pos = s.life.pos ∧
    (setModState m s).life.released = s.life.released ∧ (setModState m s).life.ramped = s.life.ramped ∧
    (setModState m s).life.boot = s.life.boot ∧ (setModState m s).life.bootedPending = s.life.bootedPending ∧
    (setModState m s).life.filled = s.life.filled ∧ (setModState m s).life.hbCount = s.life.hbCount ∧
    (setModState m s).life.hbStage = s.life.hbStage ∧ (setModState m s).life.cardamomRuns = s.life.cardamomRuns ∧
    (setModState m s).life.aonNs = s.life.aonNs ∧ (setModState m s).life.rcLevel = s.life.rcLevel ∧
    (setModState m s).life.rcCause = s.life.rcCause ∧ (setModState m s).life.rcRecovering = s.life.rcRecovering ∧
    (setModState m s).life.rcDumpState = s.life.rcDumpState ∧ (setModState m s).life.rcCore = s.life.rcCore ∧
    (setModState m s).life.rcModule = s.life.rcModule ∧ (setModState m s).life.rcDumpSeq = s.life.rcDumpSeq ∧
    (setModState m s).life.rcTime = s.life.rcTime ∧ (setModState m s).life.rcDumpBy = s.life.rcDumpBy ∧
    (setModState m s).life.linkLost = s.life.linkLost ∧ (setModState m s).life.reportDue = s.life.reportDue ∧
    (setModState m s).cascade = s.cascade ∧ (setModState m s).slots = s.slots ∧ (setModState m s).pkg = s.pkg ∧
    (setModState m s).tiles = s.tiles ∧ (setModState m s).fences = s.fences ∧ (setModState m s).job = s.job ∧
    (setModState m s).stepSet = s.stepSet ∧ (setModState m s).cond = s.cond ∧ (setModState m s).fennel = s.fennel ∧
    (setModState m s).fabric = s.fabric ∧ (setModState m s).host = s.host ∧ (setModState m s).mgmt = s.mgmt ∧
    (setModState m s).sec = s.sec ∧ (setModState m s).integ = s.integ ∧ (setModState m s).es = s.es ∧
    (setModState m s).evc = s.evc ∧ (setModState m s).sens = s.sens ∧ (setModState m s).cfg = s.cfg ∧
    (setModState m s).freeUsed = s.freeUsed ∧ (setModState m s).pending = s.pending := by
  unfold setModState; split <;> simp

@[simp] theorem setModState_state (m : ModState) (s : State) : (setModState m s).life.state = m := by
  unfold setModState; split <;> simp_all

@[simp] theorem worsen_frame (h : Health) (s : State) :
    (worsen h s).life = s.life ∧ (worsen h s).cascade = s.cascade ∧ (worsen h s).slots = s.slots ∧
    (worsen h s).pkg = s.pkg ∧ (worsen h s).tiles = s.tiles ∧ (worsen h s).fences = s.fences ∧
    (worsen h s).job = s.job ∧ (worsen h s).stepSet = s.stepSet ∧ (worsen h s).cond = s.cond ∧
    (worsen h s).fennel = s.fennel ∧ (worsen h s).fabric = s.fabric ∧ (worsen h s).host.trained = s.host.trained ∧
    (worsen h s).host.narrow = s.host.narrow ∧ (worsen h s).host.space = s.host.space ∧
    (worsen h s).host.hdmUnits = s.host.hdmUnits ∧ (worsen h s).host.hdmBase = s.host.hdmBase ∧
    (worsen h s).host.hdmCommitted = s.host.hdmCommitted ∧ (worsen h s).host.hdmError = s.host.hdmError ∧
    (worsen h s).host.filter = s.host.filter ∧ (worsen h s).host.dirty = s.host.dirty ∧
    (worsen h s).host.answered = s.host.answered ∧ (worsen h s).host.ide = s.host.ide ∧
    (worsen h s).host.rings = s.host.rings ∧ (worsen h s).host.cqs = s.host.cqs ∧
    (worsen h s).host.d2h = s.host.d2h ∧ (worsen h s).host.nextD2h = s.host.nextD2h ∧
    (worsen h s).host.timeoutMs = s.host.timeoutMs ∧ (worsen h s).host.msix = s.host.msix ∧
    (worsen h s).host.wakes = s.host.wakes ∧ (worsen h s).host.stalled = s.host.stalled ∧
    (worsen h s).mgmt = s.mgmt ∧ (worsen h s).sec = s.sec ∧ (worsen h s).integ.log0 = s.integ.log0 ∧
    (worsen h s).integ.log0Over = s.integ.log0Over ∧ (worsen h s).integ.log1 = s.integ.log1 ∧
    (worsen h s).integ.log3 = s.integ.log3 ∧ (worsen h s).integ.lasting = s.integ.lasting ∧
    (worsen h s).integ.tests = s.integ.tests ∧ (worsen h s).integ.regions = s.integ.regions ∧
    (worsen h s).integ.reloading = s.integ.reloading ∧ (worsen h s).integ.records = s.integ.records ∧
    (worsen h s).integ.upsets = s.integ.upsets ∧ (worsen h s).integ.trips = s.integ.trips ∧
    (worsen h s).es.refused = s.es.refused ∧ (worsen h s).es.discard = s.es.discard ∧
    (worsen h s).es.auth = s.es.auth ∧ (worsen h s).es.staleInc = s.es.staleInc ∧
    (worsen h s).es.staleArr = s.es.staleArr ∧ (worsen h s).es.lateFault = s.es.lateFault ∧
    (worsen h s).es.refusal = s.es.refusal ∧ (worsen h s).es.window = s.es.window ∧
    (worsen h s).es.ringError = s.es.ringError ∧ (worsen h s).es.jobFault = s.es.jobFault ∧
    (worsen h s).es.ce = s.es.ce ∧ (worsen h s).es.ue = s.es.ue ∧ (worsen h s).es.bar2 = s.es.bar2 ∧
    (worsen h s).es.lastFault = s.es.lastFault ∧ (worsen h s).es.lastTask = s.es.lastTask ∧
    (worsen h s).sens = s.sens ∧ (worsen h s).cfg = s.cfg ∧ (worsen h s).freeUsed = s.freeUsed ∧
    (worsen h s).pending = s.pending := by
  unfold worsen; split <;> simp

@[simp] theorem d2hSend_frame (k a : Nat) (bs : List Byte) (u : D2hUse) (s : State) :
    (d2hSend k a bs u s).life = s.life ∧ (d2hSend k a bs u s).cascade = s.cascade ∧
    (d2hSend k a bs u s).slots = s.slots ∧ (d2hSend k a bs u s).pkg = s.pkg ∧ (d2hSend k a bs u s).tiles = s.tiles ∧
    (d2hSend k a bs u s).fences = s.fences ∧ (d2hSend k a bs u s).job = s.job ∧
    (d2hSend k a bs u s).stepSet = s.stepSet ∧ (d2hSend k a bs u s).cond = s.cond ∧
    (d2hSend k a bs u s).fennel = s.fennel ∧ (d2hSend k a bs u s).fabric = s.fabric ∧
    (d2hSend k a bs u s).host.trained = s.host.trained ∧ (d2hSend k a bs u s).host.narrow = s.host.narrow ∧
    (d2hSend k a bs u s).host.space = s.host.space ∧ (d2hSend k a bs u s).host.hdmUnits = s.host.hdmUnits ∧
    (d2hSend k a bs u s).host.hdmBase = s.host.hdmBase ∧
    (d2hSend k a bs u s).host.hdmCommitted = s.host.hdmCommitted ∧
    (d2hSend k a bs u s).host.hdmError = s.host.hdmError ∧ (d2hSend k a bs u s).host.filter = s.host.filter ∧
    (d2hSend k a bs u s).host.dirty = s.host.dirty ∧ (d2hSend k a bs u s).host.answered = s.host.answered ∧
    (d2hSend k a bs u s).host.ide = s.host.ide ∧ (d2hSend k a bs u s).host.rings = s.host.rings ∧
    (d2hSend k a bs u s).host.cqs = s.host.cqs ∧ (d2hSend k a bs u s).host.timeoutMs = s.host.timeoutMs ∧
    (d2hSend k a bs u s).host.msix = s.host.msix ∧ (d2hSend k a bs u s).host.msixPending = s.host.msixPending ∧
    (d2hSend k a bs u s).host.esHoldoff = s.host.esHoldoff ∧ (d2hSend k a bs u s).host.esPending = s.host.esPending ∧
    (d2hSend k a bs u s).host.wakes = s.host.wakes ∧ (d2hSend k a bs u s).host.stalled = s.host.stalled ∧
    (d2hSend k a bs u s).mgmt = s.mgmt ∧ (d2hSend k a bs u s).sec = s.sec ∧ (d2hSend k a bs u s).integ = s.integ ∧
    (d2hSend k a bs u s).es = s.es ∧ (d2hSend k a bs u s).sens = s.sens ∧ (d2hSend k a bs u s).cfg = s.cfg ∧
    (d2hSend k a bs u s).freeUsed = s.freeUsed ∧ (d2hSend k a bs u s).pending = s.pending := by
  unfold d2hSend; dsimp only; split <;> simp

@[simp] theorem modMb_frame (v : Via) (f : Mailbox → Mailbox) (s : State) :
    (modMb v f s).life = s.life ∧ (modMb v f s).cascade = s.cascade ∧ (modMb v f s).slots = s.slots ∧
    (modMb v f s).pkg = s.pkg ∧ (modMb v f s).tiles = s.tiles ∧ (modMb v f s).fences = s.fences ∧
    (modMb v f s).job = s.job ∧ (modMb v f s).stepSet = s.stepSet ∧ (modMb v f s).cond = s.cond ∧
    (modMb v f s).fennel = s.fennel ∧ (modMb v f s).fabric = s.fabric ∧ (modMb v f s).host = s.host ∧
    (modMb v f s).mgmt.mbmOut = s.mgmt.mbmOut ∧ (modMb v f s).mgmt.executing = s.mgmt.executing ∧
    (modMb v f s).mgmt.waiting = s.mgmt.waiting ∧ (modMb v f s).mgmt.resuming = s.mgmt.resuming ∧
    (modMb v f s).mgmt.bg = s.mgmt.bg ∧ (modMb v f s).mgmt.bgAborted = s.mgmt.bgAborted ∧
    (modMb v f s).mgmt.slotA = s.mgmt.slotA ∧ (modMb v f s).mgmt.slotB = s.mgmt.slotB ∧
    (modMb v f s).mgmt.minSvn = s.mgmt.minSvn ∧ (modMb v f s).mgmt.fiBoot = s.mgmt.fiBoot ∧
    (modMb v f s).mgmt.transfer = s.mgmt.transfer ∧ (modMb v f s).mgmt.nextTransfer = s.mgmt.nextTransfer ∧
    (modMb v f s).mgmt.fwVersion = s.mgmt.fwVersion ∧ (modMb v f s).mgmt.dynAddr = s.mgmt.dynAddr ∧
    (modMb v f s).mgmt.eid = s.mgmt.eid ∧ (modMb v f s).mgmt.eventReceiver = s.mgmt.eventReceiver ∧
    (modMb v f s).mgmt.flash = s.mgmt.flash ∧ (modMb v f s).sec = s.sec ∧ (modMb v f s).integ = s.integ ∧
    (modMb v f s).es = s.es ∧ (modMb v f s).evc = s.evc ∧ (modMb v f s).sens = s.sens ∧ (modMb v f s).cfg = s.cfg ∧
    (modMb v f s).out = s.out ∧ (modMb v f s).freeUsed = s.freeUsed ∧ (modMb v f s).pending = s.pending := by
  cases v <;> simp [modMb]

@[simp] theorem mbInterrupt_frame (v : Via) (s : State) :
    (mbInterrupt v s).life = s.life ∧ (mbInterrupt v s).cascade = s.cascade ∧ (mbInterrupt v s).slots = s.slots ∧
    (mbInterrupt v s).pkg = s.pkg ∧ (mbInterrupt v s).tiles = s.tiles ∧ (mbInterrupt v s).fences = s.fences ∧
    (mbInterrupt v s).job = s.job ∧ (mbInterrupt v s).stepSet = s.stepSet ∧ (mbInterrupt v s).cond = s.cond ∧
    (mbInterrupt v s).fennel = s.fennel ∧ (mbInterrupt v s).fabric = s.fabric ∧
    (mbInterrupt v s).host.trained = s.host.trained ∧ (mbInterrupt v s).host.narrow = s.host.narrow ∧
    (mbInterrupt v s).host.space = s.host.space ∧ (mbInterrupt v s).host.hdmUnits = s.host.hdmUnits ∧
    (mbInterrupt v s).host.hdmBase = s.host.hdmBase ∧ (mbInterrupt v s).host.hdmCommitted = s.host.hdmCommitted ∧
    (mbInterrupt v s).host.hdmError = s.host.hdmError ∧ (mbInterrupt v s).host.filter = s.host.filter ∧
    (mbInterrupt v s).host.dirty = s.host.dirty ∧ (mbInterrupt v s).host.answered = s.host.answered ∧
    (mbInterrupt v s).host.ide = s.host.ide ∧ (mbInterrupt v s).host.rings = s.host.rings ∧
    (mbInterrupt v s).host.cqs = s.host.cqs ∧ (mbInterrupt v s).host.d2h = s.host.d2h ∧
    (mbInterrupt v s).host.nextD2h = s.host.nextD2h ∧ (mbInterrupt v s).host.timeoutMs = s.host.timeoutMs ∧
    (mbInterrupt v s).host.msix = s.host.msix ∧ (mbInterrupt v s).host.esHoldoff = s.host.esHoldoff ∧
    (mbInterrupt v s).host.esPending = s.host.esPending ∧ (mbInterrupt v s).host.wakes = s.host.wakes ∧
    (mbInterrupt v s).host.stalled = s.host.stalled ∧ (mbInterrupt v s).mgmt = s.mgmt ∧
    (mbInterrupt v s).sec = s.sec ∧ (mbInterrupt v s).integ = s.integ ∧ (mbInterrupt v s).es = s.es ∧
    (mbInterrupt v s).sens = s.sens ∧ (mbInterrupt v s).cfg = s.cfg ∧ (mbInterrupt v s).freeUsed = s.freeUsed ∧
    (mbInterrupt v s).pending = s.pending := by
  cases v <;> unfold mbInterrupt <;> dsimp only <;> (try split) <;> simp

@[simp] theorem mbEvent_frame (v : Via) (s : State) :
    (mbEvent v s).life = s.life ∧ (mbEvent v s).cascade = s.cascade ∧ (mbEvent v s).slots = s.slots ∧
    (mbEvent v s).pkg = s.pkg ∧ (mbEvent v s).tiles = s.tiles ∧ (mbEvent v s).fences = s.fences ∧
    (mbEvent v s).job = s.job ∧ (mbEvent v s).stepSet = s.stepSet ∧ (mbEvent v s).cond = s.cond ∧
    (mbEvent v s).fennel = s.fennel ∧ (mbEvent v s).fabric = s.fabric ∧ (mbEvent v s).host.trained = s.host.trained ∧
    (mbEvent v s).host.narrow = s.host.narrow ∧ (mbEvent v s).host.space = s.host.space ∧
    (mbEvent v s).host.hdmUnits = s.host.hdmUnits ∧ (mbEvent v s).host.hdmBase = s.host.hdmBase ∧
    (mbEvent v s).host.hdmCommitted = s.host.hdmCommitted ∧ (mbEvent v s).host.hdmError = s.host.hdmError ∧
    (mbEvent v s).host.filter = s.host.filter ∧ (mbEvent v s).host.dirty = s.host.dirty ∧
    (mbEvent v s).host.answered = s.host.answered ∧ (mbEvent v s).host.ide = s.host.ide ∧
    (mbEvent v s).host.rings = s.host.rings ∧ (mbEvent v s).host.cqs = s.host.cqs ∧
    (mbEvent v s).host.d2h = s.host.d2h ∧ (mbEvent v s).host.nextD2h = s.host.nextD2h ∧
    (mbEvent v s).host.timeoutMs = s.host.timeoutMs ∧ (mbEvent v s).host.msix = s.host.msix ∧
    (mbEvent v s).host.esHoldoff = s.host.esHoldoff ∧ (mbEvent v s).host.esPending = s.host.esPending ∧
    (mbEvent v s).host.wakes = s.host.wakes ∧ (mbEvent v s).host.stalled = s.host.stalled ∧
    (mbEvent v s).mgmt.mbmOut = s.mgmt.mbmOut ∧ (mbEvent v s).mgmt.executing = s.mgmt.executing ∧
    (mbEvent v s).mgmt.waiting = s.mgmt.waiting ∧ (mbEvent v s).mgmt.resuming = s.mgmt.resuming ∧
    (mbEvent v s).mgmt.bg = s.mgmt.bg ∧ (mbEvent v s).mgmt.bgAborted = s.mgmt.bgAborted ∧
    (mbEvent v s).mgmt.slotA = s.mgmt.slotA ∧ (mbEvent v s).mgmt.slotB = s.mgmt.slotB ∧
    (mbEvent v s).mgmt.minSvn = s.mgmt.minSvn ∧ (mbEvent v s).mgmt.fiBoot = s.mgmt.fiBoot ∧
    (mbEvent v s).mgmt.transfer = s.mgmt.transfer ∧ (mbEvent v s).mgmt.nextTransfer = s.mgmt.nextTransfer ∧
    (mbEvent v s).mgmt.fwVersion = s.mgmt.fwVersion ∧ (mbEvent v s).mgmt.dynAddr = s.mgmt.dynAddr ∧
    (mbEvent v s).mgmt.eid = s.mgmt.eid ∧ (mbEvent v s).mgmt.eventReceiver = s.mgmt.eventReceiver ∧
    (mbEvent v s).mgmt.flash = s.mgmt.flash ∧ (mbEvent v s).sec = s.sec ∧ (mbEvent v s).integ = s.integ ∧
    (mbEvent v s).es = s.es ∧ (mbEvent v s).sens = s.sens ∧ (mbEvent v s).cfg = s.cfg ∧
    (mbEvent v s).freeUsed = s.freeUsed ∧ (mbEvent v s).pending = s.pending := by
  simp [mbEvent]

@[simp] theorem respond_frame (q : Req) (c st : Nat) (b : List Byte) (s : State) :
    (respond q c st b s).life = s.life ∧ (respond q c st b s).cascade = s.cascade ∧
    (respond q c st b s).slots = s.slots ∧ (respond q c st b s).pkg = s.pkg ∧ (respond q c st b s).tiles = s.tiles ∧
    (respond q c st b s).fences = s.fences ∧ (respond q c st b s).job = s.job ∧
    (respond q c st b s).stepSet = s.stepSet ∧ (respond q c st b s).cond = s.cond ∧
    (respond q c st b s).fennel = s.fennel ∧ (respond q c st b s).fabric = s.fabric ∧
    (respond q c st b s).host.trained = s.host.trained ∧ (respond q c st b s).host.narrow = s.host.narrow ∧
    (respond q c st b s).host.space = s.host.space ∧ (respond q c st b s).host.hdmUnits = s.host.hdmUnits ∧
    (respond q c st b s).host.hdmBase = s.host.hdmBase ∧
    (respond q c st b s).host.hdmCommitted = s.host.hdmCommitted ∧
    (respond q c st b s).host.hdmError = s.host.hdmError ∧ (respond q c st b s).host.filter = s.host.filter ∧
    (respond q c st b s).host.dirty = s.host.dirty ∧ (respond q c st b s).host.answered = s.host.answered ∧
    (respond q c st b s).host.ide = s.host.ide ∧ (respond q c st b s).host.rings = s.host.rings ∧
    (respond q c st b s).host.cqs = s.host.cqs ∧ (respond q c st b s).host.d2h = s.host.d2h ∧
    (respond q c st b s).host.nextD2h = s.host.nextD2h ∧ (respond q c st b s).host.timeoutMs = s.host.timeoutMs ∧
    (respond q c st b s).host.msix = s.host.msix ∧ (respond q c st b s).host.esHoldoff = s.host.esHoldoff ∧
    (respond q c st b s).host.esPending = s.host.esPending ∧ (respond q c st b s).host.wakes = s.host.wakes ∧
    (respond q c st b s).host.stalled = s.host.stalled ∧ (respond q c st b s).mgmt.executing = s.mgmt.executing ∧
    (respond q c st b s).mgmt.waiting = s.mgmt.waiting ∧ (respond q c st b s).mgmt.resuming = s.mgmt.resuming ∧
    (respond q c st b s).mgmt.bg = s.mgmt.bg ∧ (respond q c st b s).mgmt.bgAborted = s.mgmt.bgAborted ∧
    (respond q c st b s).mgmt.slotA = s.mgmt.slotA ∧ (respond q c st b s).mgmt.slotB = s.mgmt.slotB ∧
    (respond q c st b s).mgmt.minSvn = s.mgmt.minSvn ∧ (respond q c st b s).mgmt.fiBoot = s.mgmt.fiBoot ∧
    (respond q c st b s).mgmt.transfer = s.mgmt.transfer ∧
    (respond q c st b s).mgmt.nextTransfer = s.mgmt.nextTransfer ∧
    (respond q c st b s).mgmt.fwVersion = s.mgmt.fwVersion ∧ (respond q c st b s).mgmt.dynAddr = s.mgmt.dynAddr ∧
    (respond q c st b s).mgmt.eid = s.mgmt.eid ∧ (respond q c st b s).mgmt.eventReceiver = s.mgmt.eventReceiver ∧
    (respond q c st b s).mgmt.flash = s.mgmt.flash ∧ (respond q c st b s).sec = s.sec ∧
    (respond q c st b s).integ = s.integ ∧ (respond q c st b s).es = s.es ∧ (respond q c st b s).sens = s.sens ∧
    (respond q c st b s).cfg = s.cfg ∧ (respond q c st b s).freeUsed = s.freeUsed ∧
    (respond q c st b s).pending = s.pending := by
  unfold respond; dsimp only; split <;> simp

@[simp] theorem takeCounter_frame (q : Req) (s : State) :
    (takeCounter q s).life = s.life ∧ (takeCounter q s).cascade = s.cascade ∧ (takeCounter q s).slots = s.slots ∧
    (takeCounter q s).pkg = s.pkg ∧ (takeCounter q s).tiles = s.tiles ∧ (takeCounter q s).fences = s.fences ∧
    (takeCounter q s).job = s.job ∧ (takeCounter q s).stepSet = s.stepSet ∧ (takeCounter q s).cond = s.cond ∧
    (takeCounter q s).fennel = s.fennel ∧ (takeCounter q s).fabric = s.fabric ∧ (takeCounter q s).host = s.host ∧
    (takeCounter q s).mgmt = s.mgmt ∧ (takeCounter q s).sec.meas = s.sec.meas ∧
    (takeCounter q s).sec.offer = s.sec.offer ∧ (takeCounter q s).sec.m4Boot = s.sec.m4Boot ∧
    (takeCounter q s).sec.epoch = s.sec.epoch ∧ (takeCounter q s).sec.policy = s.sec.policy ∧
    (takeCounter q s).sec.allow = s.sec.allow ∧ (takeCounter q s).sec.debugScope = s.sec.debugScope ∧
    (takeCounter q s).sec.debugCounter = s.sec.debugCounter ∧ (takeCounter q s).sec.draws = s.sec.draws ∧
    (takeCounter q s).sec.claimed = s.sec.claimed ∧ (takeCounter q s).integ = s.integ ∧ (takeCounter q s).es = s.es ∧
    (takeCounter q s).evc = s.evc ∧ (takeCounter q s).sens = s.sens ∧ (takeCounter q s).cfg = s.cfg ∧
    (takeCounter q s).out = s.out ∧ (takeCounter q s).freeUsed = s.freeUsed ∧ (takeCounter q s).pending = s.pending := by
  unfold takeCounter; split
  · simp
  · split <;> simp

@[simp] theorem clearTouch_frame (s : State) :
    (clearTouch s).life = s.life ∧ (clearTouch s).cascade = s.cascade ∧ (clearTouch s).slots = s.slots ∧
    (clearTouch s).pkg.bytes = s.pkg.bytes ∧ (clearTouch s).pkg.poison = s.pkg.poison ∧
    (clearTouch s).pkg.errors = s.pkg.errors ∧ (clearTouch s).pkg.under = s.pkg.under ∧
    (clearTouch s).pkg.regions = s.pkg.regions ∧ (clearTouch s).pkg.cache = s.pkg.cache ∧
    (clearTouch s).pkg.chans = s.pkg.chans ∧ (clearTouch s).pkg.band = s.pkg.band ∧
    (clearTouch s).pkg.share = s.pkg.share ∧ (clearTouch s).pkg.threshold = s.pkg.threshold ∧
    (clearTouch s).pkg.verifying = s.pkg.verifying ∧ (clearTouch s).pkg.pkgOverdue = s.pkg.pkgOverdue ∧
    (clearTouch s).pkg.lapStart = s.pkg.lapStart ∧ (clearTouch s).pkg.lapLast = s.pkg.lapLast ∧
    (clearTouch s).pkg.lapHours = s.pkg.lapHours ∧ (clearTouch s).tiles = s.tiles ∧
    (clearTouch s).fences = s.fences ∧ (clearTouch s).job = s.job ∧ (clearTouch s).stepSet = s.stepSet ∧
    (clearTouch s).cond = s.cond ∧ (clearTouch s).fennel = s.fennel ∧ (clearTouch s).fabric = s.fabric ∧
    (clearTouch s).host = s.host ∧ (clearTouch s).mgmt = s.mgmt ∧ (clearTouch s).sec = s.sec ∧
    (clearTouch s).integ = s.integ ∧ (clearTouch s).es = s.es ∧ (clearTouch s).evc = s.evc ∧
    (clearTouch s).sens = s.sens ∧ (clearTouch s).cfg = s.cfg ∧ (clearTouch s).out = s.out ∧
    (clearTouch s).freeUsed = s.freeUsed ∧ (clearTouch s).pending = s.pending := by
  simp [clearTouch]

@[simp] theorem endTouch_frame (n : Nat) (s : State) :
    (endTouch n s).life = s.life ∧ (endTouch n s).cascade = s.cascade ∧ (endTouch n s).slots = s.slots ∧
    (endTouch n s).pkg.bytes = s.pkg.bytes ∧ (endTouch n s).pkg.poison = s.pkg.poison ∧
    (endTouch n s).pkg.errors = s.pkg.errors ∧ (endTouch n s).pkg.under = s.pkg.under ∧
    (endTouch n s).pkg.regions = s.pkg.regions ∧ (endTouch n s).pkg.cache = s.pkg.cache ∧
    (endTouch n s).pkg.chans = s.pkg.chans ∧ (endTouch n s).pkg.band = s.pkg.band ∧
    (endTouch n s).pkg.share = s.pkg.share ∧ (endTouch n s).pkg.threshold = s.pkg.threshold ∧
    (endTouch n s).pkg.verifying = s.pkg.verifying ∧ (endTouch n s).pkg.pkgOverdue = s.pkg.pkgOverdue ∧
    (endTouch n s).pkg.lapStart = s.pkg.lapStart ∧ (endTouch n s).pkg.lapLast = s.pkg.lapLast ∧
    (endTouch n s).pkg.lapHours = s.pkg.lapHours ∧ (endTouch n s).tiles = s.tiles ∧
    (endTouch n s).fences = s.fences ∧ (endTouch n s).job = s.job ∧ (endTouch n s).stepSet = s.stepSet ∧
    (endTouch n s).cond = s.cond ∧ (endTouch n s).fennel = s.fennel ∧ (endTouch n s).fabric = s.fabric ∧
    (endTouch n s).host.trained = s.host.trained ∧ (endTouch n s).host.narrow = s.host.narrow ∧
    (endTouch n s).host.space = s.host.space ∧ (endTouch n s).host.hdmUnits = s.host.hdmUnits ∧
    (endTouch n s).host.hdmBase = s.host.hdmBase ∧ (endTouch n s).host.hdmCommitted = s.host.hdmCommitted ∧
    (endTouch n s).host.hdmError = s.host.hdmError ∧ (endTouch n s).host.filter = s.host.filter ∧
    (endTouch n s).host.dirty = s.host.dirty ∧ (endTouch n s).host.ide = s.host.ide ∧
    (endTouch n s).host.rings = s.host.rings ∧ (endTouch n s).host.cqs = s.host.cqs ∧
    (endTouch n s).host.d2h = s.host.d2h ∧ (endTouch n s).host.nextD2h = s.host.nextD2h ∧
    (endTouch n s).host.timeoutMs = s.host.timeoutMs ∧ (endTouch n s).host.msix = s.host.msix ∧
    (endTouch n s).host.msixPending = s.host.msixPending ∧ (endTouch n s).host.esHoldoff = s.host.esHoldoff ∧
    (endTouch n s).host.esPending = s.host.esPending ∧ (endTouch n s).host.wakes = s.host.wakes ∧
    (endTouch n s).host.stalled = s.host.stalled ∧ (endTouch n s).mgmt = s.mgmt ∧ (endTouch n s).sec = s.sec ∧
    (endTouch n s).integ = s.integ ∧ (endTouch n s).es = s.es ∧ (endTouch n s).sens = s.sens ∧
    (endTouch n s).cfg = s.cfg ∧ (endTouch n s).out = s.out ∧ (endTouch n s).freeUsed = s.freeUsed ∧
    (endTouch n s).pending = s.pending := by
  simp [endTouch]

end Sys2Proof.Machine
end

