-- ==== Sys2Proof/Laws/Mail.lean ====
section
/-!
SUPPORT. Mailbox commands that run at once: what the mailbox does around the command's own effect.
-/
namespace Sys2Proof.Machine

/-- What a command's own answer becomes. -/
def mailAnswer (code : Nat) (q : Req) : Answer → State
  | .now st body s => endTouch 8 (respond q code st body (if acceptedStatus st then takeCounter q s else s))
  | .later s => endTouch 8 (takeCounter q s)

theorem hostLines_nil {s : State} (h : s.host.filter = []) (l : List (Nat × Bool)) : hostLines s l = [] := by
  simp [hostLines, hostHas, h]

theorem stateAccepts_ready (code : Nat) (q : Req) (s : State) (m : Nat) :
    stateAccepts (mailReady code q s) m = stateAccepts s m := by
  simp [stateAccepts, stateBit, mailReady]

theorem authorised_ready (code : Nat) (q : Req) (s : State) (a c : Bool) :
    authorised (mailReady code q s) q a c = authorised s q a c := by
  simp [authorised, trailerOk, trailerSession, mailReady]

/-- A command that runs at once leaves what its own effect answers. -/
theorem mailbox_runs {c : Instr} {code via states : Nat} {auth claim : Bool} {q : Req} {f : State → Answer} {s : State}
    (h : MailRuns s q via states auth claim) :
    mailbox c code via states auth claim q f s = mailAnswer code q (f (mailReady code q s)) := by
  obtain ⟨h1, h2, h3, h4, h5, h6, h7, h8, h9, h10⟩ := h
  have hm : endTouch 8 (runMail code via states auth claim q f (mailReady code q s)) =
      mailAnswer code q (f (mailReady code q s)) := by
    unfold runMail
    rw [stateAccepts_ready, authorised_ready]
    simp only [h5, h6, h7, h8, h9, Bool.not_true, Bool.false_eq_true, if_false]
    cases f (mailReady code q s) <;> rfl
  have hb : (q.via != .mbm && (getMb s q.via).busy) = false := by
    rcases h3 with h | h <;> simp [h]
  have he : (q.via != .mb1 && executorBusy s) = false := by
    rcases h4 with h | ⟨h, h'⟩
    · simp [h]
    · simp [h, h', executorBusy]
  unfold mailbox
  simp only [h1, h2, hb, he, Bool.not_true, Bool.false_eq_true, if_false]
  unfold runGuarded
  dsimp only
  rw [hostLines_nil (by simp [h10])]
  exact hm

@[simp] theorem getMb_endTouch (n : Nat) (v : Via) (s : State) : getMb (endTouch n s) v = getMb s v := by
  cases v <;> simp [getMb]

/-- A response stands in its mailbox. -/
theorem answered_respond (q : Req) (code st : Nat) (body : List Byte) (s : State) :
    Answered (respond q code st body s) q code st body := by
  unfold Answered respond
  dsimp only
  cases q.trailer with
  | none =>
    refine ⟨[], by simp, ?_⟩
    cases q.via <;> simp [getMb, modMb]
  | some t =>
    cases hs : s.sec.session with
    | some x =>
      refine ⟨responseTrailer x.secret code q.tag t.counter 3 body, by simp, ?_⟩
      cases q.via <;> simp [getMb, modMb]
    | none =>
      cases hp : s.sec.pendingSession with
      | some x =>
        refine ⟨responseTrailer x.secret code q.tag t.counter 3 body, by simp, ?_⟩
        cases q.via <;> simp [getMb, modMb]
      | none =>
        refine ⟨le 8 t.counter ++ List.replicate 24 0, by simp, ?_⟩
        cases q.via <;> simp [getMb, modMb]

/-- What keeps the mailboxes keeps an answer. -/
theorem Answered.keep {s t : State} {q : Req} {code st : Nat} {body : List Byte} (h : Answered s q code st body)
    (h0 : t.mgmt.mb0 = s.mgmt.mb0) (h1 : t.mgmt.mb1 = s.mgmt.mb1) (hm : t.mgmt.mbmOut = s.mgmt.mbmOut) :
    Answered t q code st body := by
  obtain ⟨r, hr, h⟩ := h
  refine ⟨r, hr, ?_⟩
  cases hv : q.via <;> simp_all [getMb]

/-- The answer to a command that answers now. -/
theorem answered_now (code : Nat) (q : Req) (st : Nat) (body : List Byte) (s : State) :
    Answered (mailAnswer code q (.now st body s)) q code st body :=
  (answered_respond q code st body (if acceptedStatus st then takeCounter q s else s)).keep
    (by simp [mailAnswer]) (by simp [mailAnswer]) (by simp [mailAnswer])

end Sys2Proof.Machine
end

