-- ==== Sys2Proof/WellFormed.lean ====
section
/-!
DEFINITION. Well-formed commands: every operand fits the field, index or list that the spec gives it. A value that a field can
hold and the module refuses is well formed: refusing it is the command's meaning.
-/
namespace Sys2Proof

/-! ### Widths and indices -/

def u8 (n : Nat) : Bool := decide (n < 2 ^ 8)
def u16 (n : Nat) : Bool := decide (n < 2 ^ 16)
def u32 (n : Nat) : Bool := decide (n < 2 ^ 32)
def u56 (n : Nat) : Bool := decide (n < 2 ^ 56)
def u64 (n : Nat) : Bool := decide (n < 2 ^ 64)
def u128 (n : Nat) : Bool := decide (n < 2 ^ 128)

/-- A 256-bit digest, nonce, secret or key. -/
def digestOk (n : Nat) : Bool := decide (n < 2 ^ 256)
/-- Eight tiles (R16). -/
def tileOk (n : Nat) : Bool := decide (n < 8)
/-- Ten ports (R373). -/
def portOk (n : Nat) : Bool := decide (n < 10)
def portMask (n : Nat) : Bool := decide (n < 2 ^ 10)
/-- Eight lanes of a port (R373). -/
def laneNo (n : Nat) : Bool := decide (n < 8)
/-- 64 memory channels of a tile (R348), and the module's 512. -/
def mcOk (n : Nat) : Bool := decide (n < 64)
def flatMc (n : Nat) : Bool := decide (n < 512)
/-- 64 work and 64 completion rings (R467). -/
def ringOk (n : Nat) : Bool := decide (n < 64)
/-- A fabric id or a window number (R394, R420). -/
def idOk (n : Nat) : Bool := decide (n < 256)
/-- A channel number (R404). -/
def numberOk (n : Nat) : Bool := decide (n < 4096)
/-- A board position (R502). -/
def posOk (n : Nat) : Bool := decide (n < 4)
/-- 32,768 granules of a tile (R71). -/
def granuleOk (n : Nat) : Bool := decide (n < 32768)
/-- Engine classes 0x0 to 0x8 (R43), and an instance number. -/
def classOk (n : Nat) : Bool := decide (n ≤ 8)
def instOk (n : Nat) : Bool := decide (n < 64)
/-- Nine counter banks (R621). -/
def bankOk (n : Nat) : Bool := decide (n ≤ 8)
/-- A link frame's sequence number (R377). -/
def seqOk (n : Nat) : Bool := decide (n < 4096)
/-- A one-bit field, and the three bits of a sub-stream (R570). -/
def bitOk (n : Nat) : Bool := decide (n < 2)
def subOk (n : Nat) : Bool := decide (n < 8)
/-- An I3C address has 7 bits. -/
def addr7 (n : Nat) : Bool := decide (n < 128)

/-! ### Data -/

/-- At most 64 KiB, the largest block that a command brings (R525). -/
def bytesOk (l : List Byte) : Bool := decide (l.length ≤ 65536)
/-- The data of a dirty line, or none. -/
def lineOrNone (l : List Byte) : Bool := l.isEmpty || l.length == 64

/-! ### Structured operands -/

/-- A request (R482, R567). -/
def reqOk (q : Req) : Bool :=
  u16 q.tag && match q.trailer with
    | none => true
    | some t => u64 t.counter

/-- A packet's header fields and payload (R404, R405). -/
def packetOk (p : Packet) : Bool :=
  idOk p.dst && idOk p.src && numberOk p.chan && u16 p.epoch && idOk p.window && decide (p.seq < 2 ^ 24) && u8 p.fmt
    && u64 p.offset && u64 p.aux && decide (p.payload.length ≤ 4096)

/-- The symbols in error of each codeword of a frame: different ones of its 544 (R376). -/
def errsOk (l : List (List Nat)) : Bool := l.all (fun e => decide e.Nodup && e.all (fun i => decide (i < 544)))

/-- Bytes of a frame's payload that belong to packets of VL0, VL1 and VL2, and payload of the messages that end in it, lane by
lane (R377, R403). -/
def lanesOk (l d : List Nat) : Bool := decide (l.length ≤ 3) && decide (l.sum ≤ 2040) && decide (d.length ≤ 4) && d.all u16

/-- An acknowledge or negative acknowledge frame (R377). -/
def ctlOk (f : LinkCtl) : Bool := seqOk f.seq && seqOk f.ack && errsOk f.errs

/-- A storage location (R71, R348). -/
def locOk : Loc → Bool
  | .pkg t c w => tileOk t && mcOk c && decide (w < 2 ^ 24)
  | .slot t l h => tileOk t && decide (l < 2 ^ 21) && bitOk h

/-- The outcomes of two reads (R520). -/
def readsOk (r : TestReads) : Bool := decide (r.first ≤ 2) && decide (r.second ≤ 2)

/-- A tile's sample, in °C. -/
def tempsOk (t : TileTemps) : Bool :=
  t.dram.length == 64 && t.dram.all u8 && t.junction.length == 8 && t.junction.all u8

/-- An identity record (R387). -/
def recordOk (r : IdRecord) : Bool :=
  u8 r.role && u8 r.port && u8 r.plane && u8 r.fabricId && u8 r.major && u8 r.minLo && u8 r.minHi && u128 r.serial

/-- A peer's report (R573). -/
def reportOk (r : PeerReport) : Bool :=
  digestOk r.m5 && digestOk r.m2 && digestOk r.digest && digestOk r.secret && u128 r.serial && u8 r.pos

def noticeOk (n : PageNotice) : Bool := (n.kind == 1 || n.kind == 2) && u32 n.prefixLen && numberOk n.slot && numberOk n.parent

/-- A token report (R321): at most 17 tokens and 16 drafts. -/
def tokReportOk (t : TokenReport) : Bool :=
  numberOk t.slot && decide (t.tokens.length ≤ 17) && decide (t.drafts.length ≤ 16) && decide (t.offered ≤ 16)
    && decide (t.accepted ≤ 16)

/-- A step header and its records (R120, R121). -/
def headerOk (h : StepHeader) : Bool :=
  u64 h.step && u32 h.job && u8 h.rerunCount && u32 h.tokenCount && u32 h.tokenBudget && u32 h.hdrBytes
    && h.recs.all (fun r => numberOk r.slot && u32 r.start && u32 r.new && u32 r.hostId)

/-- A region-table entry (R350). -/
def regionOk (e : RegionEntry) : Bool := u8 e.tile && u16 e.slice

/-- A plan entry (R389). -/
def planOk (e : PlanEntry) : Bool := u8 e.plane && u8 e.swport

/-- Ring parameters (R467). -/
def ringWf (r : RingParams) : Bool :=
  u8 r.ring && u64 r.base && u32 r.entries && u64 r.lineAddr && u8 r.cq && u16 r.vector && u32 r.moderation

/-- Pool fields (R244): one home, first page and so on per layer or per tile. -/
def poolWf (f : PoolParams) : Bool :=
  u32 f.job && u32 f.pageSize && u16 f.layers && f.home.length == f.layers && f.first.length == 8 && f.count.length == 8
    && f.base.length == 8 && u64 f.desc && u64 f.ptBase && u64 f.ptStride && u32 f.maxLen && u64 f.work && u64 f.listBytes

/-- Window parameters (R420). -/
def windowWf (w : WindowParams) : Bool :=
  u16 w.number && u8 w.kind && u8 w.tile && u64 w.base && u64 w.bound && u8 w.ops && w.peers.all idOk && u16 w.expected
    && u8 w.consumers

/-- Step-set fields (R110): 64-bit addresses and seed. -/
def setWf (f : StepSetParams) : Bool :=
  u32 f.job && (f.tasks ++ f.residency).all (fun t => u8 t.tile && u64 t.addr) && u32 f.tokenBudget && u32 f.seqsPerStep
    && u64 f.buffer && f.counters.all u16 && u64 f.seed && u8 f.abortLimit

def weightWf (w : WeightParams) : Bool :=
  u8 w.index && u8 w.source && u64 w.base && u64 w.length && u64 w.src && u64 w.digests && u32 w.job

def selWf (x : EngineSel) : Bool := u8 x.tiles && u8 x.sel && u8 x.classes && u32 x.job

def barrierWf (b : BarrierParams) : Bool :=
  u8 b.barrier && u8 b.root && u16 b.members && u16 b.localCount && u16 b.arrCh && u16 b.relCh

/-! ### Commands -/

/-- Is a command well formed? -/
def wellFormed : Instr → Bool
  | .powerInputInRange pos => posOk pos
  | .inputExcursion _ => true
  | .perstAssert _ => true
  | .perstRelease _ _ _ digests => digests.all digestOk
  | .cardamomStart m2digest fwVersion => digestOk m2digest && u32 fwVersion
  | .hardwareFill => true
  | .checkerTest failTiles fails => u8 failTiles && u32 fails
  | .cxlLinkTrained width rate _ => u8 width && u8 rate
  | .cxlLinkDown => true
  | .ideIntegrityFailure => true
  | .snpinv _ ring => ringOk ring
  | .task ring => ringOk ring
  | .seqNew ring => ringOk ring
  | .seqFinish ring => ringOk ring
  | .seqSample ring => ringOk ring
  | .completionRecordWrite cq => ringOk cq
  | .d2hReadData _ data => bytesOk data
  | .d2hWriteCompletion _ => true
  | .hostTimeout _ => true
  | .hdmDecoderCommit base => u64 base
  | .hdmRead offset _ => u64 offset
  | .hdmWrite offset data _ => u64 offset && bytesOk data
  | .bisnpResponse line dirty => u64 line && lineOrNone dirty
  | .keyProg stream dir sub keySet refresh key =>
     bitOk stream && bitOk dir && subOk sub && bitOk keySet && u64 refresh && digestOk key
  | .kSetGo stream keySet => bitOk stream && bitOk keySet
  | .cqModerationExpire cq => ringOk cq
  | .esMsixHoldoff => true
  | .taskAdmit tile => tileOk tile
  | .taskEligible tile _ => tileOk tile
  | .opWindowFill tile => tileOk tile
  | .opIssue tile cls => tileOk tile && classOk cls
  | .issueAgePromote tile _ => tileOk tile
  | .cuminGroupStart tile => tileOk tile
  | .engineClockStop tile cls inst => tileOk tile && classOk cls && instOk inst
  | .tilePllOff tile => tileOk tile
  | .noOp tile _ => tileOk tile
  | .cmMm tile _ _ => tileOk tile
  | .sfAttnFwd tile _ _ => tileOk tile
  | .sfAttnBwd tile _ _ => tileOk tile
  | .sfMerge tile _ _ => tileOk tile
  | .sfRope tile _ _ => tileOk tile
  | .fnAppend tile _ _ => tileOk tile
  | .fnGather tile _ _ => tileOk tile
  | .smAdd tile _ _ => tileOk tile
  | .smMul tile _ _ => tileOk tile
  | .smMax tile _ _ => tileOk tile
  | .smMin tile _ _ => tileOk tile
  | .smCmp tile _ _ => tileOk tile
  | .smSelect tile _ _ => tileOk tile
  | .smConvert tile _ _ => tileOk tile
  | .smFunc tile _ _ => tileOk tile
  | .smGate tile _ _ => tileOk tile
  | .smRowsum tile _ _ => tileOk tile
  | .smRowmax tile _ _ => tileOk tile
  | .smRowdot tile _ _ => tileOk tile
  | .smRmsnorm tile _ _ => tileOk tile
  | .smLayernorm tile _ _ => tileOk tile
  | .smSoftmax tile _ _ => tileOk tile
  | .tableBankSwap tile engine => tileOk tile && bitOk engine
  | .anSample tile _ _ => tileOk tile
  | .anVerify tile _ _ => tileOk tile
  | .clCopy tile _ _ => tileOk tile
  | .clGather tile _ _ => tileOk tile
  | .clScatter tile _ _ => tileOk tile
  | .clTranspose tile _ _ => tileOk tile
  | .clFill tile _ _ => tileOk tile
  | .clKvGather tile _ _ => tileOk tile
  | .clKvAppend tile _ _ => tileOk tile
  | .maAccum tile _ _ => tileOk tile
  | .ctlFenceWait tile _ => tileOk tile
  | .fenceWaitRelease tile _ => tileOk tile
  | .ctlFenceSignal tile _ => tileOk tile
  | .ctlFenceSignalRemote tile _ => tileOk tile
  | .ctlBarrierArrive tile _ => tileOk tile
  | .ctlBarrierWait tile _ => tileOk tile
  | .ctlStepLoop tile _ => tileOk tile
  | .ctlStepLoopEnd tile _ => tileOk tile
  | .stepForm => true
  | .msgStepHeader src hdr => idOk src && headerOk hdr
  | .msgTokenList src toks => idOk src && toks.all u32
  | .msgResult member step reports _ => idOk member && u64 step && reports.all tokReportOk
  | .msgFault member step code taskId tile => idOk member && u64 step && u16 code && u32 taskId && tileOk tile
  | .msgAbort step code => u64 step && u16 code
  | .abortPacketsSettled => true
  | .msgAbortDone member step => idOk member && u64 step
  | .stepRerun => true
  | .stepCommit => true
  | .msgCommit step notices => u64 step && notices.all noticeOk
  | .fennelBackground tile => tileOk tile
  | .write port p => portOk port && packetOk p
  | .read port p => portOk port && packetOk p
  | .readResp port p => portOk port && packetOk p
  | .accum port p => portOk port && packetOk p
  | .maceApply tile chan => tileOk tile && mcOk chan
  | .fenceInc port p => portOk port && packetOk p
  | .barArrive port p => portOk port && packetOk p
  | .barRelease port p => portOk port && packetOk p
  | .ack port p => portOk port && packetOk p
  | .nak port p => portOk port && packetOk p
  | .refuse port p => portOk port && packetOk p
  | .ackTimer peer chan => idOk peer && numberOk chan
  | .channelRetransmitTimer peer chan => idOk peer && numberOk chan
  | .busyResendTimer peer chan => idOk peer && numberOk chan
  | .busyCapRecover port dest => portOk port && idOk dest
  | .slotWindowClaim window granule => idOk window && granuleOk granule
  | .channelOpenRequest peer chan => idOk peer && numberOk chan
  | .windowNotice peer counter _ window epoch ops bound =>
     idOk peer && u64 counter && idOk window && u16 epoch && u32 ops && u64 bound
  | .releaseNotice peer counter _ => idOk peer && u64 counter
  | .pairRekey peer counter _ secret => idOk peer && u64 counter && digestOk secret
  | .paReq peer nonce _ => idOk peer && digestOk nonce
  | .paResp peer r => idOk peer && reportOk r
  | .fmMemberDown _ => true
  | .fmMemberUp _ => true
  | .fmMemberGone _ => true
  | .switchReachabilityReport port ids => portOk port && ids.all idOk
  | .linkDataFrame port seq ack _ errs lanes direct => portOk port && seqOk seq && seqOk ack && errsOk errs && lanesOk lanes direct
  | .linkAckFrame port f => portOk port && ctlOk f
  | .linkNakFrame port f => portOk port && ctlOk f
  | .portRetryLimit port => portOk port
  | .portTrainingStart port => portOk port
  | .portTrainingStepDone port loopNs => portOk port && u16 loopNs
  | .idRecord port r => portOk port && recordOk r
  | .trainingStepTimeout port => portOk port
  | .portRetrainTimer port => portOk port
  | .opticalPowerSample lasersOk _ => portMask lasersOk
  | .lightLoss _ index => u8 index
  | .laneFail port lane => portOk port && laneNo lane
  | .memRequestServe tile chan => tileOk tile && mcOk chan
  | .memRequestPromote tile chan => tileOk tile && mcOk chan
  | .refresh tile chan => tileOk tile && mcOk chan
  | .refreshBandRelax tile => tileOk tile
  | .pkgScrub tile chan => tileOk tile && mcOk chan
  | .slotScrub tile => tileOk tile
  | .scrubLapOverdue tile _ => tileOk tile
  | .targetedSelfTest loc reads => locOk loc && readsOk reads
  | .selfTestPromote loc => locOk loc
  | .weightBlockReload data _ _ reads => bytesOk data && reads.all readsOk
  | .temperatureSample tiles hub => tiles.all tempsOk && hub.length == 8 && hub.all u8
  | .powerSample millivolts milliamps => u32 millivolts && u32 milliamps
  | .issueBudgetGrant _ _ => true
  | .heartbeatTick => true
  | .sessionPendingExpire => true
  | .drainQuiesced tile => tileOk tile
  | .bistComplete bad elapsed => bad.all locOk && u32 elapsed
  | .loopbackComplete _ lostPos lostPlane elapsed => lostPos.all u32 && lostPlane.all u32 && u32 elapsed
  | .closeDrainComplete kind _ => u8 kind
  | .slotReleaseGranule granule => granuleOk granule
  | .cascadeMasterWait => true
  | .rampSlotExpire => true
  | .cascadeGrantTimeout => true
  | .cascadeSoloRamp => true
  | .cascadeRetry => true
  | .csHello pos serial _ => posOk pos && u128 serial
  | .csRampGrant slot => u8 slot
  | .csRampDone pos => posOk pos
  | .csBoardTable pos _ serial => posOk pos && u128 serial
  | .csLoop pos seq pattern => posOk pos && u16 seq && u56 pattern
  | .csReset level => u8 level
  | .csFault pos cause => posOk pos && u8 cause
  | .entdaa addr => addr7 addr
  | .setdasa staticAddr addr => addr7 staticAddr && addr7 addr
  | .setEndpointId eid => u8 eid
  | .pldmBaseRequest command => u8 command
  | .pldmSensorRequest sensor => u16 sensor
  | .setEventReceiver eid => u8 eid
  | .requestUpdate slot size => u8 slot && u32 size
  | .requestFirmwareData offset data verdict version svn =>
     u64 offset && bytesOk data && u8 verdict && u32 version && u32 svn
  | .activateFirmware _ => true
  | .cancelUpdate => true
  | .mbStatusW1c _ bits => u32 bits
  | .mbWriteWhileBusy _ => true
  | .esBitsW1c _ => true
  | .evcOvfW1c bank _ => bankOk bank
  | .evcSelWrite bank index size _ => bankOk bank && u8 index && u8 size
  | .evcClear => true
  | .evcFreeze _ => true
  | .bar2Access _ offset size data => u32 offset && u32 size && bytesOk data
  | .registerWrite _ offset size value => u32 offset && u8 size && u64 value
  | .identify q => reqOk q
  | .certRead q index offset => reqOk q && u16 index && u32 offset
  | .attest q nonce mask => reqOk q && digestOk nonce && u16 mask
  | .sessionOpen q part _ _ _ => reqOk q && u8 part
  | .tenantClaim q session policy nfw allow => reqOk q && u32 session && u32 policy && u8 nfw && allow.all digestOk
  | .tenantRelease q m2digest bad => reqOk q && digestOk m2digest && bad.all locOk
  | .debugUnlock q scope serial counter digest m2digest bad _ =>
     reqOk q && u32 scope && u128 serial && u64 counter && digestOk digest && digestOk m2digest && bad.all locOk
  | .fwInfo q => reqOk q
  | .fwBegin q slot size => reqOk q && u16 slot && u32 size
  | .fwTransfer q id offset data => reqOk q && u16 id && u32 offset && bytesOk data
  | .fwVerify q id verdict version svn => reqOk q && u16 id && u8 verdict && u32 version && u32 svn
  | .fwActivate q slot mode => reqOk q && u16 slot && u8 mode
  | .fwCancel q id => reqOk q && u16 id
  | .regionSet q entries => reqOk q && entries.all regionOk
  | .regionRead q => reqOk q
  | .hdmSizeSet q units => reqOk q && u32 units
  | .ringCreate q r => reqOk q && ringWf r
  | .ringDestroy q ring => reqOk q && u8 ring
  | .cqCreate q r => reqOk q && ringWf r
  | .cqDestroy q ring => reqOk q && u8 ring
  | .kvPoolConfig q f => reqOk q && poolWf f
  | .slotRelease q tile first count => reqOk q && u8 tile && u32 first && u32 count
  | .memArbSet q share threshold => reqOk q && u8 share && u8 threshold
  | .hostTimeoutSet q ms => reqOk q && u16 ms
  | .weightRegionSet q w => reqOk q && weightWf w
  | .fabricPlanSet q fabricId generation plan => reqOk q && u8 fabricId && u64 generation && plan.all planOk
  | .fabricMembersSet q ids => reqOk q && ids.all idOk
  | .peerAttest q peer => reqOk q && u8 peer
  | .fabricJobJoin q job members manager => reqOk q && u32 job && members.all idOk && u8 manager
  | .fabricJobLeave q job => reqOk q && u32 job
  | .channelOpen q number peer port low high => reqOk q && u16 number && u8 peer && u8 port && u16 low && u16 high
  | .channelClose q number peer => reqOk q && u16 number && u8 peer
  | .windowOpen q w => reqOk q && windowWf w
  | .windowClose q window => reqOk q && u8 window
  | .windowStatus q window => reqOk q && u8 window
  | .fabricOpenTrust q job => reqOk q && u32 job
  | .portStatus q => reqOk q
  | .portRetrain q mask => reqOk q && u16 mask
  | .portDisable q mask => reqOk q && u16 mask
  | .portEnable q mask => reqOk q && u16 mask
  | .engineCapsRead q cls => reqOk q && u8 cls
  | .stepSetRegister q f => reqOk q && setWf f
  | .stepSetRelease q job => reqOk q && u32 job
  | .jobResume q job => reqOk q && u32 job
  | .engineDrain q sel => reqOk q && selWf sel
  | .engineAbort q sel => reqOk q && selWf sel
  | .engineStatus q => reqOk q
  | .sfConfigLoad q index record => reqOk q && u16 index && bytesOk record
  | .smTableLoad q slot dpa => reqOk q && u16 slot && u64 dpa
  | .smTableRead q kind index => reqOk q && u8 kind && u16 index
  | .fenceSet q counter _ => reqOk q && u16 counter
  | .fenceRead q first count => reqOk q && u32 first && u32 count
  | .barrierConfig q b => reqOk q && barrierWf b
  | .healthStatus q => reqOk q
  | .logRead q log tile first => reqOk q && u8 log && u8 tile && u32 first
  | .logClear q log tile => reqOk q && u8 log && u8 tile
  | .counterConfig q bank index _ => reqOk q && u8 bank && u16 index
  | .counterRead q first count => reqOk q && u32 first && u32 count
  | .scrubStatus q => reqOk q
  | .scrubConfig q hours => reqOk q && u8 hours
  | .telemetryRead q => reqOk q
  | .recoveryCollect q => reqOk q
  | .resetCore q => reqOk q
  | .resetModule q => reqOk q
  | .standbyEnter q => reqOk q
  | .standbyExit q => reqOk q
  | .cascadeReset q pos level => reqOk q && u8 pos && u8 level
  | .testFlipmask q _ tile unit mask => reqOk q && u8 tile && u8 unit && bytesOk mask
  | .testBist q tiles memory patterns => reqOk q && u8 tiles && u8 memory && u8 patterns
  | .testLoopback q _ mask => reqOk q && u16 mask
  | .testResult q test => reqOk q && u8 test
  | .rampComplete => true
  | .bootFallback => true
  | .foldComplete window chan => idOk window && flatMc chan
  | .packageMemoryTrained _ => true

end Sys2Proof
end

