-- ==== Sys2Proof/Tests/Slice0.lean ====
section
/-!
SUPPORT. Tests: one ill-formed term for each well-formedness check, worked examples of the spec, and for each statement with
hypotheses a named theorem that a concrete state and operands meet them all.
-/
namespace Sys2Proof.Machine.Tests

/-- A request that passes every check of form. -/
def req (v : Via) : Req := { via := v, tag := 7, lenOk := true, rsvZero := true, trailer := none }

/-- The same with a session trailer that verifies. -/
def reqT (v : Via) : Req := { req v with trailer := some ⟨5, true⟩ }

/-- A module that has started, in a given state, its mailboxes served. -/
def live (m : ModState) : State :=
  { life := { state := m, inputOn := true, released := true, ramped := true, boot := .done, filled := true
              cardamomRuns := true, hbStage := 3 }
    mgmt := { mb0 := { ready := true }, mb1 := { ready := true } } }

/-- A claimed module with its session. -/
def liveC : State :=
  { live .claimed with sec := { claimed := true, epoch := 1, session := some ⟨1, 2, 3, 4⟩ } }

/-- Bytes filled with zeros to 64. -/
def line64 (l : List Byte) : List Byte := l ++ List.replicate (64 - l.length) 0

/-- Both IDE streams active. -/
def secureIde : SMap Ide := [(0, { secure := true }), (1, { secure := true })]

/-- A claimed module whose host link is secure, with completion ring 0. -/
def liveH : State :=
  { liveC with host := { trained := true, ide := secureIde, cqs := [(0, { state := .active, base := 4096, entries := 64, vector := 3 })] } }

/-- Work ring 1 with one descriptor read. -/
def oneRing (bs : List Byte) : WorkRing :=
  { state := .active, entries := 64, tail := 1, readCount := 1, asked := 1, watched := true
    slots := [⟨0, line64 bs, false, false⟩] }

/-- The same module with that ring. -/
def liveR (bs : List Byte) : State := { liveH with host := { liveH.host with rings := [(1, oneRing bs)] } }

/-- A job of this module alone. -/
def soloJob : Job := { id := 5, members := [255], manager := 255, openTrust := false }

/-- A step task set without tasks. -/
def soloSet : StepSetParams :=
  { job := 5, tasks := [], residency := [], tokenBudget := 4, seqsPerStep := 2, drafts := 0, reserve := 0, buffer := 0
    counters := [0], barLocal := 1, seed := 0, abortLimit := 3 }

/-- A page pool of one page and one layer. -/
def onePool : PoolParams :=
  { job := 5, pageSize := 0, layers := 1, home := [0], first := List.replicate 8 0, count := [1, 0, 0, 0, 0, 0, 0, 0]
    base := List.replicate 8 0, desc := 2 ^ 30, ptBase := 2 ^ 31, ptStride := 64, maxLen := 32, work := 2 ^ 32, listBytes := 1024 }

/-- The manager of that job with its step set and pool. -/
def liveM (bs : List Byte) : State :=
  { liveR bs with
    job := some soloJob, stepSet := some ⟨soloSet, 3⟩, fennel := { pool := some onePool }
    cond := { memberLimits := [(255, 4)], seqs := [(7, { state := .decode, admitted := true, limit := 32, committed := 3 })] } }

/-- A window of package memory at address 1,024 that permits the given operations to module 3. -/
def pkgWin (ops : Nat) : WindowParams := ⟨7, 1, 0, 1024, 4096, ops, [3], 0, 0, none, none, 0, 0⟩

/-- A slot window of one granule on tile 7. -/
def slotWin : WindowParams := ⟨7, 0, 7, 0, 4096, 1, [3], 9, 1, none, none, 0, 0⟩

/-- A claimed module with port 9 UP, a channel from module 3 that has received four packets, and an open window 7. -/
def pktS (w : WindowParams) : State :=
  { liveC with fabric := {
      ports := [(9, { state := .up, minor := 3, rxLane := [(0, 4096), (1, 4096), (2, 4096)] })]
      chans := [(chanKey 3 8, { state := .opened, epoch := 1, port := 9, rxSeq := 4 })]
      windows := [(7, { isOpen := true, params := some w, epoch := 1 })] } }

/-- The channel's next packet, for the start of window 7 under a window epoch. -/
def pktOf (epoch : Nat) (bs : List Byte) : Packet :=
  ⟨255, 3, 8, 1, 7, 4, 0, false, false, false, true, 0, epoch, bs, true⟩

/-- The same channel with a packet sent and not acknowledged. -/
def ackS : State :=
  { pktS (pkgWin 1) with
    fabric := { (pktS (pkgWin 1)).fabric with
      chans := [(chanKey 3 8, {
        state := .opened, epoch := 1, port := 9, rxSeq := 4, txSeq := 3
        retained := [⟨2, 1, 47, true, false, pktOf 1 [1], [], none⟩] })] } }

/-- That packet belongs to an op of tile 7 whose engine has ended. -/
def ackS1 : State :=
  { ackS with
    tiles := [(7, {
      tasks := [(1, { phase := .active })]
      window := [{ uid := 5, task := 1, state := .issued, ended := true, sent := 1 }] })] }

/-- The header of the first step of that job: sequence 7 decodes one token. -/
def soloHdr : StepHeader :=
  ⟨0, 5, false, false, 0, 1, 4, 0, 288, 2 ^ 64 - 1, [⟨7, 1, false, 0, 3, 1, 0, 0, 2 ^ 31 + 448, 0⟩], 1, true⟩

/-- That step, sent. -/
def soloRun : RetStep := ⟨0, 0, [⟨7, 1, false, 0, 3, 1, 0, 0, 2 ^ 31 + 448, 0⟩], [9], [], false, []⟩

/-- The job's manager while its first step runs. -/
def runS : State := { liveM [] with cond := { (liveM []).cond with current := some soloRun } }

/-- A module with an ACTIVE task 1 on tile 7, with two ops, one of them in the window. -/
def ctlS (e : Entry) : State :=
  { liveC with tiles := [(7, { tasks := [(1, { phase := .active, ops := [2, 2], pos := 1 })], window := [e] })] }

/-- An op word from class, opcode and its bytes 20 up. -/
def opW (cls code rest : Nat) : OpWord := BitVec.ofNat 256 (16 * cls + 2 + 2 ^ 8 * code + 2 ^ 160 * rest)

/-- A control op in the window: not issued. -/
def ctlE (code rest : Nat) : Entry := { uid := 5, task := 1, opIndex := 0, op := opW 8 code rest }

/-- A task that waits on tile 7: its descriptor at address 0 and its one no-op at 128, for a tenant epoch. -/
def admitS (epoch : Nat) : State :=
  { liveC with
    sec := { liveC.sec with epoch := epoch }
    tiles := [(7, { queue := [⟨0, .ring 1 0⟩] })]
    pkg := { bytes := [(0, 9), (4, 1), (7, 0x20), (12, 1), (32, 128), (40, 1), (128, 2)] } }

/-- That descriptor. -/
def admitD : DescWord := BitVec.ofNat 1024 (9 + 2 ^ 32 + 2 ^ 56 * 0x20 + 2 ^ 96 + 2 ^ 256 * 128 + 2 ^ 320)

/-- An SM_ADD of one FP32 row of 16 elements: A at line 0, B at line 64, OUT at line 128. -/
def addE : Entry :=
  { uid := 5, task := 1, op := BitVec.ofNat 256 (0x32 + 2 ^ 8 + 2 ^ 16 + 2 ^ 64 * 64 + 2 ^ 128 * 128 + 2 ^ 160 + 2 ^ 176 * 16) }

/-- Tile 7 with that op in the window, B FULL and A with this tag. -/
def issueS (tag : BitVec 8) : State := { ctlS addE with slots := [(7, { tags := [(0, tag), (1, 0x41)] })] }

/-- An op of class `cls` at entry 5 of tile 7 that engine 0 runs. -/
def engE (cls code rest : Nat) : Entry :=
  { uid := 5, task := 1, opIndex := 0, op := opW cls code rest, state := .issued }

/-- A module whose tile 7 runs that op. -/
def engS (e : Entry) : State :=
  { liveC with tiles := [(7, {
      tasks := [(1, { phase := .active, ops := [2, 2], pos := 1 })]
      window := [e]
      engines := [(64 * opClass e.op, { busy := true, running := true, uid := 5 })] })] }

/-- A row of 16 FP32 elements from line 0 of slot memory to window 3 of module 3. -/
def farE : Entry :=
  { engE 5 1 (12 + 2 ^ 16 + 2 ^ 32 * 16) with record := some ⟨1, 0, 0, 0, 0, 0, 8, 3, 0, true, []⟩ }

/-- The same module with an open channel to module 3. -/
def farS (e : Entry) : State := { engS e with fabric := (pktS (pkgWin 2)).fabric }

/-- A key-value op of list 0, and the module with its page pool. -/
def kvE (code : Nat) : Entry := engE 5 code (2 ^ 32 * 64 + 2 ^ 48)
def kvS (code : Nat) : State := { engS (kvE code) with fennel := { pool := some onePool } }

/-- An FN_APPEND of one position on tile 0, whose free list holds page 0. -/
def fnE : Entry := engE 6 1 (2 ^ 16 + 2 ^ 80)
def fnS : State :=
  { engS fnE with
    tiles := [(0, { tasks := [(1, { phase := .active, ops := [2, 2], pos := 1 })], window := [fnE] })]
    fennel := { pool := some onePool, freeHead := [(0, 1)] } }

/-- An MA_ACCUM of one row of 16 FP32 elements. -/
def accE (dest channel window : Nat) : Entry := engE 7 1 (dest + 2 ^ 8 * window + 2 ^ 16 * channel + 2 ^ 72 + 2 ^ 80)

/-- The state that a command leaves. -/
def after (c : Instr) (s : State) : State :=
  match exec c s with
  | .next t => t
  | _ => s

/-- The state that a step leaves. -/
def stepped (s : State) : State :=
  match step s with
  | .next t => t
  | _ => s

/-! ### Ill-formed terms: one for each check, which the check refuses -/

theorem test_wf_u8 : wellFormed (.csReset 256) = false := by decide
theorem test_wf_u16 : wellFormed (.pldmSensorRequest 65536) = false := by decide
theorem test_wf_u32 : wellFormed (.cardamomStart 0 (2 ^ 32)) = false := by decide
theorem test_wf_u56 : wellFormed (.csLoop 0 0 (2 ^ 56)) = false := by decide
theorem test_wf_u64 : wellFormed (.hdmRead (2 ^ 64) false) = false := by decide
theorem test_wf_u128 : wellFormed (.csHello 0 (2 ^ 128) false) = false := by decide
theorem test_wf_digest : wellFormed (.cardamomStart (2 ^ 256) 0) = false := by decide
theorem test_wf_tile : wellFormed (.taskAdmit 8) = false := by decide
theorem test_wf_port : wellFormed (.portRetryLimit 10) = false := by decide
theorem test_wf_port_mask : wellFormed (.opticalPowerSample (2 ^ 10) 0) = false := by decide
theorem test_wf_lane : wellFormed (.laneFail 0 8) = false := by decide
theorem test_wf_virtual_lane : wellFormed (.linkDataFrame 0 0 0 true [] [2041] []) = false := by decide
theorem test_wf_symbols : wellFormed (.linkAckFrame 0 ⟨0, 0, true, [[544]]⟩) = false := by decide
theorem test_wf_sequence : wellFormed (.linkNakFrame 0 ⟨4096, 0, true, []⟩) = false := by decide
theorem test_wf_controller : wellFormed (.refresh 0 64) = false := by decide
theorem test_wf_flat_channel : wellFormed (.foldComplete 0 512) = false := by decide
theorem test_wf_ring : wellFormed (.task 64) = false := by decide
theorem test_wf_member : wellFormed (.msgAbortDone 256 0) = false := by decide
theorem test_wf_channel : wellFormed (.ackTimer 0 4096) = false := by decide
theorem test_wf_position : wellFormed (.powerInputInRange 4) = false := by decide
theorem test_wf_granule : wellFormed (.slotReleaseGranule 32768) = false := by decide
theorem test_wf_engine_class : wellFormed (.opIssue 0 9) = false := by decide
theorem test_wf_engine : wellFormed (.engineClockStop 0 0 64) = false := by decide
theorem test_wf_bank : wellFormed (.evcOvfW1c 9 0) = false := by decide
theorem test_wf_bit : wellFormed (.kSetGo 2 0) = false := by decide
theorem test_wf_sub_stream : wellFormed (.keyProg 0 0 8 0 0 0) = false := by decide
theorem test_wf_i3c_address : wellFormed (.entdaa 128) = false := by decide
theorem test_wf_data : wellFormed (.d2hReadData 0 (List.replicate 65537 0)) = false := by
  simp only [wellFormed, bytesOk, List.length_replicate]
  decide
theorem test_wf_line : wellFormed (.bisnpResponse 0 [1]) = false := by decide
theorem test_wf_request_tag : wellFormed (.identify { req .mb0 with tag := 65536 }) = false := by decide
theorem test_wf_trailer_counter : wellFormed (.identify { req .mb0 with trailer := some ⟨2 ^ 64, true⟩ }) = false := by decide
theorem test_wf_packet : wellFormed (.write 0 { pktOf 1 [] with chan := 4096 }) = false := by decide
theorem test_wf_location : wellFormed (.selfTestPromote (.pkg 0 0 (2 ^ 24))) = false := by decide
theorem test_wf_location_half : wellFormed (.selfTestPromote (.slot 0 0 2)) = false := by decide
theorem test_wf_reads : wellFormed (.targetedSelfTest (.slot 0 0 0) ⟨3, 0⟩) = false := by decide
theorem test_wf_temperatures : wellFormed (.temperatureSample [⟨List.replicate 64 256, List.replicate 8 0⟩] (List.replicate 8 0)) = false := by decide
theorem test_wf_identity : wellFormed (.idRecord 0 ⟨256, 0, 0, 0, 0, 0, 0, 0, true⟩) = false := by decide
theorem test_wf_report : wellFormed (.paResp 0 ⟨true, true, true, 2 ^ 256, 0, 0, false, 0, 0, 0, 0⟩) = false := by decide
theorem test_wf_notice : wellFormed (.msgCommit 0 [⟨3, 0, 0, 0⟩]) = false := by decide
theorem test_wf_tokens : wellFormed (.msgResult 0 0 [⟨0, List.replicate 18 (0, 0), 0, 0, [], false⟩] {}) = false := by decide
theorem test_wf_header : wellFormed (.msgStepHeader 0 ⟨0, 0, false, false, 256, 0, 0, 0, 0, 0, [], 0, true⟩) = false := by decide
theorem test_wf_region : wellFormed (.regionSet (req .mb0) [⟨false, 256, 0, false⟩]) = false := by decide
theorem test_wf_plan : wellFormed (.fabricPlanSet (req .mb0) 0 0 [⟨256, 0⟩]) = false := by decide
theorem test_wf_ring_fields : wellFormed (.ringCreate (req .mb0) ⟨256, 0, 0, 0, 0, 0, 0⟩) = false := by decide
theorem test_wf_pool : wellFormed (.kvPoolConfig (req .mb0) ⟨0, 0, 1, [], [], [], [], 0, 0, 0, 0, 0, 0⟩) = false := by decide
theorem test_wf_window : wellFormed (.windowOpen (req .mb0) ⟨0, 256, 0, 0, 0, 0, [], 0, 0, none, none, 0, 0⟩) = false := by decide
theorem test_wf_step_set : wellFormed (.stepSetRegister (req .mb0) ⟨0, [], [], 0, 0, 0, 0, 0, [65536], 0, 0, 0⟩) = false := by decide
theorem test_wf_weights : wellFormed (.weightRegionSet (req .mb0) ⟨256, 0, 0, 0, 0, 0, 0, 0, 0⟩) = false := by decide
theorem test_wf_selection : wellFormed (.engineDrain (req .mb0) ⟨256, 0, 0, 0⟩) = false := by decide
theorem test_wf_barrier : wellFormed (.barrierConfig (req .mb0) ⟨256, 0, 0, 0, 0, 0⟩) = false := by decide

/-- Well-formed commands pass. -/
theorem test_wf_passes : wellFormed (.write 9 (pktOf 1 [])) = true ∧ wellFormed (.kvPoolConfig (req .mb0) onePool) = true
    ∧ wellFormed (.stepSetRegister (reqT .mb1) soloSet) = true := by decide

/-! ### The worked examples of the spec -/

/-- The decode projection of spec/07_cumin.md: M 64, N 128, K 8,192, FP8 E4M3 by FP4 E2M1 with 32-element scales, BF16 out. -/
def decodeOp : OpWord :=
  BitVec.ofNat 256 (0x12 + 2 ^ 8 + 2 ^ 160 * 64 + 2 ^ 176 * 128 + 2 ^ 192 * 8192 + 2 ^ 208 * 0x73 + 2 ^ 216 * 0x61)

/-- spec/07_cumin.md: its A, B and OUT have 8,448, 8,704 and 256 lines, and a tile's rows hold 256 indices. -/
theorem test_cumin_decode_projection :
    cmS decodeOp = 256 ∧ cmKt decodeOp = 128 ∧ cmLenA decodeOp 64 = 8448 ∧ cmLenB decodeOp = 8704 ∧ cmLenO decodeOp 64 = 256 := by
  decide

/-- The packed adapters of spec/07_cumin.md: mode 16, 8 rows a problem, K and N 32, BF16 operands, FP32 out. -/
def packedOp : OpWord :=
  BitVec.ofNat 256 (0x12 + 2 ^ 8 + 2 ^ 160 * 8 + 2 ^ 176 * 32 + 2 ^ 184 * 2 + 2 ^ 192 * 32 + 2 ^ 208 * 0x11)

/-- spec/07_cumin.md: each of its sixteen problems has 8 lines of A, 32 of B and 16 of OUT, rounded to 64. -/
theorem test_cumin_packed_adapters :
    cmProblems packedOp = 16 ∧ cmKt packedOp = 32 ∧ cmLenA packedOp 8 = 8 ∧ cmLenB packedOp = 32 ∧ cmLenO packedOp 8 = 16
      ∧ cmGap (cmLenA packedOp 8) = 64 := by decide

/-- spec/02_contract.md: references 0x0000_0400 and 0xD000_1000 of a task with SLOT_BASE 0x1_0000 on tile 0. -/
theorem test_references :
    0x10000 + refLine 0x400 = 66560 ∧ (0x10000 + refLine 0x400) / 64 = 1040 ∧ refTile 0 0xD0001000 = 5
      ∧ 0x10000 + refLine 0xD0001000 = 69632 ∧ extGranules ⟨0, 133120, 1024, 3⟩ = (List.range 16).map (· + 2080) := by decide

/-- spec/13_package_memory.md: DPA 0x12_3456_7880 lies in MC59 of CT1 at 0x08D1_5980 under the default table. -/
theorem test_placement_default :
    cwTile (cwOf State.reset 0x1234567880) = 1 ∧ cwChan (cwOf State.reset 0x1234567880) = 59
      ∧ cwAddr (cwOf State.reset 0x1234567880) = 0x08D15980 := by decide

/-- A module whose region 72 is module-wide on slice 200. -/
def wideS : State := { State.reset with pkg := { regions := [(72, ⟨true, 0, 200, false⟩)] } }

/-- spec/13_package_memory.md: there it lies in MC28 of CT3 at 0x191A_2B80. -/
theorem test_placement_wide :
    cwTile (cwOf wideS 0x1234567880) = 3 ∧ cwChan (cwOf wideS 0x1234567880) = 28
      ∧ cwAddr (cwOf wideS 0x1234567880) = 0x191A2B80 := by decide

/-- spec/06_formats.md: the sixteen FP32 values, which quantise to scale code 0x80 and these FP4 codes. -/
theorem test_quantise_block :
    (convBlock 7 {} ([0x41300000, 0x404ccccd, 0xbf333333, 0x3d4ccccd, 0xc039999a, 0x3f800000, 0x3e75c28f, 0xc0c33333, 0x408ccccd, 0x3f000000, 0xbfa66666, 0x40fccccd, 0x0, 0xbe851eb8, 0x400ccccd, 0xc1180000].map
      (fun c => ((fp32Val c, true), Rounding.nearest)))).1 = 0x80
    ∧ (convBlock 7 {} ([0x41300000, 0x404ccccd, 0xbf333333, 0x3d4ccccd, 0xc039999a, 0x3f800000, 0x3e75c28f, 0xc0c33333, 0x408ccccd, 0x3f000000, 0xbfa66666, 0x40fccccd, 0x0, 0xbe851eb8, 0x400ccccd, 0xc1180000].map
      (fun c => ((fp32Val c, true), Rounding.nearest)))).2.1 = [7, 3, 9, 0, 11, 1, 0, 13, 4, 0, 9, 6, 0, 8, 2, 14] := by decide

/-! ### Steps -/

/-- A step takes the front command and leaves the rest of the queue. -/
theorem test_step_takes_front : (stepped { ctlS (ctlE 0 0) with pending := [.evcClear, .heartbeatTick] }).pending = [.heartbeatTick] := by
  decide

/-- R508: a module without input power takes no other command than the input itself. -/
theorem test_power_latches_position : (after (.powerInputInRange 2) State.reset).life.inputOn = true := by decide

/-! ### Witnesses of the statements' hypotheses -/

theorem wit_StepRunsFrontCommand_w1 :
    ∃ (s : State), s.pending = [] ∧ nextWaiting s = none :=
  ⟨State.reset, by decide⟩

theorem wit_StepConsumesFrontOfQueue_w1 :
    ∃ (s t : State) (c : Instr) (cs : List Instr), s.pending = c :: cs ∧ step s = .next t :=
  ⟨{ ctlS (ctlE 0 0) with pending := [.noOp 7 5, .evcClear] }, stepped
      { ctlS (ctlE 0 0) with pending := [.noOp 7 5, .evcClear] }, .noOp 7 5, [.evcClear], ⟨rfl, rfl⟩⟩

theorem wit_StepConsumesFrontOfQueue_w2 :
    ∃ (s t : State), s.pending = [] ∧ step s = .next t :=
  ⟨liveC, stepped liveC, ⟨rfl, rfl⟩⟩

theorem wit_PowerCommandsComplete_1 :
    ∃ (s : State), s.life.inputOn = false :=
  ⟨State.reset, by decide⟩

theorem wit_PowerCommandsComplete_2 :
    ∃ (s : State) (us : Nat), s.life.inputOn = true ∧ 10 < us :=
  ⟨live .unclaimed, 11, by decide⟩

theorem wit_PowerCommandsComplete_3 :
    ∃ (s : State) (ns : Nat), 1000 ≤ ns ∧ s.sens.tripped = false ∧ s.life.inputOn = true ∧ hasBooted s = true :=
  ⟨liveC, 1000, by decide⟩

theorem wit_PowerCommandsComplete_4 :
    ∃ (s : State), s.life.inputOn = true ∧ s.life.boot = .waitRelease ∧ pendingSlot s = none :=
  ⟨{ life := { inputOn := true, boot := .waitRelease } }, by decide⟩

theorem wit_PowerCommandsComplete_5 :
    ∃ (s : State), s.life.boot = .verified :=
  ⟨{ life := { inputOn := true, boot := .verified } }, by decide⟩

theorem wit_StartupCommandsComplete_1 :
    ∃ (s : State), s.life.boot = .trainMemory :=
  ⟨{ life := { boot := .trainMemory } }, by decide⟩

theorem wit_StartupCommandsComplete_2 :
    ∃ (s : State), s.life.boot = .fill :=
  ⟨{ life := { boot := .fill } }, by decide⟩

theorem wit_StartupCommandsComplete_3 :
    ∃ (s : State) (tiles : Nat), s.life.boot = .checker ∧ tiles % 256 ≠ 0 :=
  ⟨{ life := { boot := .checker } }, 5, by decide⟩

theorem wit_StartupCommandsComplete_4 :
    ∃ (s : State) (tiles : Nat), s.life.boot = .checker ∧ tiles % 256 = 0 :=
  ⟨{ life := { state := .booting, boot := .checker } }, 0, by decide⟩

theorem wit_StartupCommandsComplete_5 :
    ∃ (s : State), s.life.inputOn = true ∧ s.life.ramped = false ∧ s.cascade.ramping = true :=
  ⟨{ life := { inputOn := true }, cascade := { ramping := true } }, by decide⟩

theorem wit_StartupCommandsComplete_6 :
    ∃ (s : State) (p : Nat), s.life.bootedPending = true ∧ pendingSlot s = some p :=
  ⟨{ (live .booting) with life := { (live .booting).life with bootedPending := true }, mgmt := { slotB := { state := 4 } } },
      1, by decide⟩

theorem wit_CascadeCommandsComplete_1 :
    ∃ (s : State), isMaster s = true ∧ s.life.inputOn = true ∧ s.cascade.masterWaited = false
      ∧ s.cascade.fault = false ∧ s.cascade.nextSlot = 0 :=
  ⟨{ life := { inputOn := true } }, by decide⟩

theorem wit_CascadeCommandsComplete_2 :
    ∃ (s : State) (p q : Nat), isMaster s = true ∧ s.cascade.granted = some p ∧ s.cascade.nextSlot = q ∧ 1 ≤ q
      ∧ q ≤ 3 ∧ saidHello s q = true :=
  ⟨{ life := { inputOn := true }, cascade := { granted := some 1, nextSlot := 2, hello := [(1, 5), (2, 9)] } }, 1, 2,
      by decide⟩

theorem wit_CascadeCommandsComplete_3 :
    ∃ (s : State), isMaster s = false ∧ s.cascade.ramping = true ∧ s.cascade.ownGrant.isSome = true
      ∧ s.cascade.absent.contains s.life.pos = false :=
  ⟨{ life := { inputOn := true, pos := 1 }, cascade := { ramping := true, ownGrant := some 1 } }, by decide⟩

theorem wit_CascadeCommandsComplete_4 :
    ∃ (s : State), s.life.inputOn = true ∧ isMaster s = false ∧ s.cascade.ownGrant = none ∧ s.life.ramped = false
      ∧ s.cascade.fault = false :=
  ⟨{ life := { inputOn := true, pos := 1 } }, by decide⟩

theorem wit_CascadeCommandsComplete_5 :
    ∃ (s : State), s.life.inputOn = true ∧ s.life.ramped = false ∧ s.cascade.fault = true :=
  ⟨{ life := { inputOn := true, pos := 1 }, cascade := { fault := true } }, by decide⟩

theorem wit_CascadeCommandsComplete_6 :
    ∃ (s : State) (code dst : Nat) (body : List Byte), s.life.inputOn = true
      ∧ s.out.getLast? = some (.cascade code dst body) :=
  ⟨{ life := { inputOn := true }, out := [.msix 1, .cascade 1 0 [5]] }, 1, 0, [5], by decide⟩

theorem wit_CascadeCommandsComplete_7 :
    ∃ (s : State) (pos : Nat), s.life.inputOn = true ∧ isMaster s = true ∧ 1 ≤ pos ∧ pos ≤ 3 :=
  ⟨{ life := { inputOn := true } }, 2, by decide⟩

theorem wit_CascadeCommandsComplete_8 :
    ∃ (s : State), s.life.inputOn = true ∧ isMaster s = false ∧ s.cascade.ownGrant = none ∧ s.cascade.fault = false
      ∧ s.life.ramped = false :=
  ⟨{ life := { inputOn := true, pos := 2 } }, by decide⟩

theorem wit_CascadeCommandsComplete_9 :
    ∃ (s : State), s.life.inputOn = true ∧ isMaster s = false :=
  ⟨{ life := { inputOn := true, pos := 2 } }, by decide⟩

theorem wit_CascadeCommandsComplete_10 :
    ∃ (s : State), s.life.inputOn = true ∧ isMaster s = false ∧ s.cascade.fault = false :=
  ⟨{ life := { inputOn := true, pos := 2 } }, by decide⟩

theorem wit_CascadeCommandsComplete_11 :
    ∃ (s : State) (seq : Nat), s.life.inputOn = true ∧ isMaster s = false ∧ s.life.pos ≤ 2 ∧ seq ≠ 63 :=
  ⟨{ life := { inputOn := true, pos := 1 } }, 3, by decide⟩

theorem wit_CascadeCommandsComplete_12 :
    ∃ (s : State), s.life.inputOn = true ∧ isMaster s = false ∧ s.cascade.fault = false ∧ hasBooted s = true
      ∧ resetsCore s.life.state = true :=
  ⟨{ (live .unclaimed) with life := { (live .unclaimed).life with pos := 1 } }, by decide⟩

theorem wit_CascadeCommandsComplete_13 :
    ∃ (s : State), s.life.inputOn = true ∧ isMaster s = true :=
  ⟨{ life := { inputOn := true } }, by decide⟩

theorem wit_CascadeFaultDropsTable_w1 :
    ∃ (s t : State), CascadeWf s ∧ step s = .next t :=
  ⟨{ life := { inputOn := true, pos := 2 }, pending := [.csFault 1 2] }, stepped
      { life := { inputOn := true, pos := 2 }, pending := [.csFault 1 2] }, ⟨(fun h => absurd h (by decide)), rfl⟩⟩

theorem wit_MemoriesStayCanonical_w1 :
    ∃ (s t : State), MemoriesWf s ∧ step s = .next t :=
  ⟨{ issueS 0x41 with pending := [.noOp 7 5] }, stepped { issueS 0x41 with pending := [.noOp 7 5] }, ⟨⟨rfl, by
      decide, rfl⟩, rfl⟩⟩

theorem wit_ChannelTableStaysCanonical_w1 :
    ∃ (s t : State), ChannelsWf s ∧ step s = .next t :=
  ⟨{ farS farE with pending := [.noOp 7 5] }, stepped { farS farE with pending := [.noOp 7 5] }, ⟨by decide, rfl⟩⟩

theorem wit_RegisterCommandsComplete_1 :
    ∃ (s : State), bar0Open s = true :=
  ⟨{ live .unclaimed with mgmt := { mb0 := { ready := true, done := true, overrun := true } } }, by decide⟩

theorem wit_RegisterCommandsComplete_2 :
    ∃ (s : State), bar0Open s = true :=
  ⟨{ live .unclaimed with es := { bits := 5 } }, by decide⟩

theorem wit_RegisterCommandsComplete_3 :
    ∃ (s : State) (bank : Nat), bar0Open s = true ∧ bank ≤ 8 :=
  ⟨{ live .unclaimed with evc := { ovf := [(8, 3)] } }, 8, by decide⟩

theorem wit_RegisterCommandsComplete_4 :
    ∃ (s : State) (bank index : Nat) (v : BitVec 64), bar0Open s = true ∧ bank ≤ 8 ∧ index < 16
      ∧ selOk bank v.toNat = true :=
  ⟨live .unclaimed, 8, 15, 0x8000000000000080, by decide⟩

theorem wit_RegisterCommandsComplete_5 :
    ∃ (s : State), bar0Open s = true :=
  ⟨live .unclaimed, by decide⟩

theorem wit_RegisterCommandsComplete_6 :
    ∃ (s : State), bar0Open s = true :=
  ⟨live .unclaimed, by decide⟩

theorem wit_RegisterCommandsComplete_7 :
    ∃ (s : State), bar0Open s = true ∧ bar2Open s = true ∧ s.host.filter = [] :=
  ⟨live .unclaimed, by decide⟩

theorem wit_RegisterCommandsComplete_8 :
    ∃ (s : State), bar0Open s = true ∧ bar2Open s = false ∧ s.host.filter = [] :=
  ⟨liveC, by decide⟩

theorem wit_RegisterCommandsComplete_9 :
    ∃ (s : State), bar0Open s = true ∧ bar2Open s = false ∧ s.host.filter = [] :=
  ⟨liveC, by decide⟩

theorem wit_RegisterCommandsComplete_10 :
    ∃ (s : State), bar0Open s = true :=
  ⟨{ live .unclaimed with es := { bits := 5 } }, by decide⟩

theorem wit_RegisterCommandsStop_w1 :
    ∃ (s : State) (off : Nat), bar0Open s = true ∧ 0xA000 ≤ off ∧ off < 0xB000 :=
  ⟨live .unclaimed, 0xA000, by decide⟩

theorem wit_RegisterCommandsStop_w2 :
    ∃ (s : State) (off : Nat), bar0Open s = true ∧ bar2Open s = true ∧ 0x10000 ≤ off ∧ s.sens.dgTarget = 3
      ∧ bit s.sec.debugScope 0 = true :=
  ⟨{ live .unclaimed with sens := { dgTarget := 3 }, sec := { debugScope := 1 } }, 0x10000, by decide⟩

theorem wit_RegisterCommandsStop_w3 :
    ∃ (off : Nat), (off < 0xA000 ∨ 0xB000 ≤ off) :=
  ⟨0x9FFF, by decide⟩

theorem wit_RegisterCommandsStop_w4 :
    ∃ (s : State) (off : Nat), (off < 0x10000 ∨ s.sens.dgTarget ≠ 3 ∨ bit s.sec.debugScope 0 = false) :=
  ⟨{ sens := { dgTarget := 3 } }, 0x10000, by decide⟩

theorem wit_BusyMailboxIgnoresWrites_w1 :
    ∃ (s : State) (mb1 : Bool) (v : Nat), bar0Open s = true ∧ (getMb s (mbVia mb1)).busy = true ∧ bit v 0 = true :=
  ⟨{ live .unclaimed with mgmt := { mb1 := { ready := true, busy := true } } }, true, 1, by decide⟩

theorem wit_BusyMailboxIgnoresWrites_w2 :
    ∃ (s : State) (off : Nat), bar0Open s = true ∧ s.mgmt.mb0.busy = true ∧ off % 4 = 0 ∧ ((0x1010 ≤ off
      ∧ off < 0x1020) ∨ (0x2000 ≤ off ∧ off < 0x3000)) :=
  ⟨{ live .unclaimed with mgmt := { mb0 := { ready := true, busy := true } } }, 0x101C, by decide⟩

theorem wit_BusyMailboxIgnoresWrites_w3 :
    ∃ (s : State) (off : Nat), bar0Open s = true ∧ s.mgmt.mb1.busy = true ∧ off % 4 = 0 ∧ ((0x3010 ≤ off
      ∧ off < 0x3020) ∨ (0x4000 ≤ off ∧ off < 0x5000)) :=
  ⟨{ live .unclaimed with mgmt := { mb1 := { ready := true, busy := true } } }, 0x4FFC, by decide⟩

theorem wit_BusyMailboxIgnoresWrites_w4 :
    ∃ (s : State) (q : Req), served s q.via = true ∧ s.mgmt.resuming = false ∧ q.via ≠ .mbm
      ∧ (getMb s q.via).busy = true :=
  ⟨{ live .unclaimed with mgmt := { mb0 := { ready := true, busy := true } } }, req .mb0, by decide⟩

theorem wit_IdentityCommandsComplete_1 :
    ∃ (s : State) (q : Req), MailRuns s q v0M1 (sAll + sS) false false :=
  ⟨live .unclaimed, req .mb1, by decide⟩

theorem wit_IdentityCommandsComplete_2 :
    ∃ (s : State) (q : Req) (i off : Nat), MailRuns s q v0M sAll false false ∧ i ≤ 3 ∧ off ≤ Config.certLength i :=
  ⟨live .unclaimed, req .mb0, 3, 0, ⟨by decide, by decide, Nat.zero_le _⟩⟩

theorem wit_IdentityCommandsComplete_3 :
    ∃ (s : State) (q : Req) (mask : Nat), MailRuns s q v0M sUCNRF false false ∧ mask < 256 :=
  ⟨live .unclaimed, req .mb0, 255, by decide⟩

theorem wit_IdentityCommandsComplete_4 :
    ∃ (s : State) (q : Req), MailRuns s q vMb0 sU false false :=
  ⟨live .unclaimed, req .mb0, by decide⟩

theorem wit_IdentityCommandsComplete_5 :
    ∃ (s : State) (q : Req) (pk ek : Nat), MailRuns s q vMb0 sU false false ∧ q.trailer = none
      ∧ s.sec.offer = some (pk, ek) :=
  ⟨{ live .unclaimed with sec := { offer := some (1, 2) } }, req .mb0, 1, 2, by decide⟩

theorem wit_IdentityCommandsComplete_6 :
    ∃ (s : State) (q : Req) (x : Session) (tr : Trailer) (policy nfw : Nat) (allow : List Nat), MailRuns s q vMb0 sU
        true true ∧ s.sec.pendingSession = some x ∧ q.trailer = some tr ∧ nfw ≤ 4 ∧ policy < 4
      ∧ (allow.drop nfw).all (· == 0) = true ∧ s.mgmt.bg.bist = none :=
  ⟨{ live .unclaimed with sec := { pendingSession := some ⟨9, 8, 3, 7⟩ } }, reqT .mb0, ⟨9, 8, 3, 7⟩, ⟨5, true⟩, 3, 1,
      [6, 0], by decide⟩

theorem wit_TenancyEndCompletes_1 :
    ∃ (s : State) (q : Req), MailRuns s q vMb0 (sC + sNp + sF) true false :=
  ⟨liveC, reqT .mb0, by decide⟩

theorem wit_TenancyEndCompletes_2 :
    ∃ (s : State) (q : Req) (scope : Nat), MailRuns s q vMb0 sU false false ∧ 1 ≤ scope ∧ scope ≤ 3 :=
  ⟨live .unclaimed, req .mb0, 1, by decide⟩

theorem wit_FirmwareMailboxCommandsComplete_1 :
    ∃ (s : State) (q : Req), MailRuns s q v0M sAll false false :=
  ⟨live .unclaimed, req .mb0, by decide⟩

theorem wit_FirmwareMailboxCommandsComplete_2 :
    ∃ (s : State) (q : Req) (slot size : Nat), MailRuns s q v0M sUCNF false false ∧ slot ≤ 1 ∧ 4096 ≤ size
      ∧ size ≤ 58720256 ∧ (fwSlotOf s slot).state ≠ fwActive ∧ s.mgmt.transfer = none :=
  ⟨live .unclaimed, req .mb0, 1, 4096, by decide⟩

theorem wit_FirmwareMailboxCommandsComplete_3 :
    ∃ (s : State) (q : Req) (x : Transfer) (bs : List Byte), MailRuns s q v0M sUCNF false false
      ∧ s.mgmt.transfer = some x ∧ (fwSlotOf s x.slot).state = fwReceiving ∧ (x.got = 0 ∨ x.lastOff ≠ x.got)
      ∧ 1 ≤ bs.length ∧ bs.length ≤ 4064 ∧ (bs.length = 4064 ∨ x.got + bs.length = x.size)
      ∧ x.got + bs.length ≤ x.size :=
  ⟨{ live .unclaimed with mgmt := { mb0 := { ready := true }, slotB := { state := 1, size := 5000 }, transfer := some ⟨0, 1, 1, 5000, 4998, 0, 4064⟩ } },
      req .mb0, ⟨0, 1, 1, 5000, 4998, 0, 4064⟩, [1, 2], by decide⟩

theorem wit_FirmwareMailboxCommandsComplete_4 :
    ∃ (s : State) (q : Req) (x : Transfer) (svn : Nat), MailRuns s q v0M sUCNF false false ∧ s.mgmt.transfer = some x
      ∧ (fwSlotOf s x.slot).state = fwReceived ∧ s.mgmt.minSvn ≤ svn :=
  ⟨{ live .unclaimed with mgmt := { mb0 := { ready := true }, slotB := { state := 2, size := 5000 }, transfer := some ⟨0, 1, 1, 5000, 5000, 0, 4064⟩ } },
      req .mb0, ⟨0, 1, 1, 5000, 5000, 0, 4064⟩, 0, by decide⟩

theorem wit_FirmwareMailboxCommandsComplete_5 :
    ∃ (s : State) (q : Req) (x : Transfer) (svn : Nat), MailRuns s q v0M sUCNF false false ∧ s.mgmt.transfer = some x
      ∧ (fwSlotOf s x.slot).state = fwReceived ∧ svn < s.mgmt.minSvn :=
  ⟨{ live .unclaimed with mgmt := { mb0 := { ready := true }, minSvn := 1, slotB := { state := 2, size := 5000 }, transfer := some ⟨0, 1, 1, 5000, 5000, 0, 4064⟩ } },
      req .mb0, ⟨0, 1, 1, 5000, 5000, 0, 4064⟩, 0, by decide⟩

theorem wit_FirmwareMailboxCommandsComplete_6 :
    ∃ (s : State) (q : Req) (slot : Nat), MailRuns s q v0M sUCNF false false ∧ slot ≤ 1
      ∧ ((fwSlotOf s slot).state = fwVerified ∨ (fwSlotOf s slot).state = fwPending) :=
  ⟨{ live .unclaimed with mgmt := { mb0 := { ready := true }, slotB := { state := 3 } } }, req .mb0, 1, by decide⟩

theorem wit_FirmwareMailboxCommandsComplete_7 :
    ∃ (s : State) (q : Req) (slot : Nat), MailRuns s q v0M (sU + sNm + sF) false false ∧ slot ≤ 1
      ∧ (fwSlotOf s slot).state = fwVerified :=
  ⟨{ live .unclaimed with mgmt := { mb0 := { ready := true }, slotB := { state := 3 } } }, req .mb0, 1, by decide⟩

theorem wit_FirmwareMailboxCommandsComplete_8 :
    ∃ (s : State) (q : Req) (x : Transfer), MailRuns s q v0M sUCNF false false ∧ s.mgmt.transfer = some x
      ∧ ((fwSlotOf s x.slot).state = fwReceiving ∨ (fwSlotOf s x.slot).state = fwReceived) :=
  ⟨{ live .unclaimed with mgmt := { mb0 := { ready := true }, slotB := { state := 2, size := 5000 }, transfer := some ⟨0, 1, 1, 5000, 5000, 0, 4064⟩ } },
      req .mb0, ⟨0, 1, 1, 5000, 5000, 0, 4064⟩, by decide⟩

theorem wit_SidebandCommandsComplete_1 :
    ∃ (s : State), s.life.state ≠ .off ∧ s.mgmt.dynAddr = 0 :=
  ⟨live .unclaimed, by decide⟩

theorem wit_SidebandCommandsComplete_2 :
    ∃ (s : State), s.life.state ≠ .off ∧ s.mgmt.dynAddr = 0 :=
  ⟨live .unclaimed, by decide⟩

theorem wit_SidebandCommandsComplete_3 :
    ∃ (s : State) (e : Nat), s.mgmt.dynAddr ≠ 0 ∧ s.mgmt.mb0.ready = true ∧ 8 ≤ e ∧ e < 255 :=
  ⟨{ live .unclaimed with mgmt := { mb0 := { ready := true }, dynAddr := 9 } }, 8, by decide⟩

theorem wit_SidebandCommandsComplete_4 :
    ∃ (s : State), pldmServed s = true :=
  ⟨{ live .unclaimed with mgmt := { mb0 := { ready := true }, eid := 9 } }, by decide⟩

theorem wit_SidebandCommandsComplete_5 :
    ∃ (s : State) (n : Nat), pldmServed s = true ∧ 1 ≤ n ∧ n ≤ 15 :=
  ⟨{ live .unclaimed with mgmt := { mb0 := { ready := true }, eid := 9 } }, 15, by decide⟩

theorem wit_SidebandCommandsComplete_6 :
    ∃ (s : State), pldmServed s = true :=
  ⟨{ live .unclaimed with mgmt := { mb0 := { ready := true }, eid := 9 } }, by decide⟩

theorem wit_SidebandCommandsComplete_7 :
    ∃ (s : State) (slot size : Nat), pldmServed s = true ∧ stateAccepts s sUCNF = true ∧ slot ≤ 1 ∧ 4096 ≤ size
      ∧ size ≤ 58720256 ∧ (fwSlotOf s slot).state ≠ fwActive ∧ s.mgmt.transfer = none :=
  ⟨{ live .unclaimed with mgmt := { mb0 := { ready := true }, eid := 9 } }, 1, 4096, by decide⟩

theorem wit_SidebandCommandsComplete_8 :
    ∃ (s : State) (x : Transfer) (bs : List Byte) (svn : Nat), pldmServed s = true ∧ stateAccepts s sUCNF = true
      ∧ s.mgmt.transfer = some x ∧ x.owner = 2 ∧ (fwSlotOf s x.slot).state = fwReceiving
      ∧ (x.got = 0 ∨ x.lastOff ≠ x.got) ∧ 1 ≤ bs.length ∧ bs.length ≤ 1024
      ∧ (bs.length = 1024 ∨ x.got + bs.length = x.size) ∧ x.got + bs.length ≤ x.size ∧ s.mgmt.minSvn ≤ svn :=
  ⟨{ live .unclaimed with mgmt := { mb0 := { ready := true }, eid := 9, slotB := { state := 1, size := 5000 }, transfer := some ⟨2, 1, 1, 5000, 4998, 0, 1024⟩ } },
      ⟨2, 1, 1, 5000, 4998, 0, 1024⟩, [1, 2], 0, by decide⟩

theorem wit_SidebandCommandsComplete_9 :
    ∃ (s : State) (x : Transfer), pldmServed s = true ∧ stateAccepts s sUCNF = true ∧ s.mgmt.transfer = some x
      ∧ x.owner = 2 ∧ (fwSlotOf s x.slot).state = fwVerified :=
  ⟨{ live .unclaimed with mgmt := { mb0 := { ready := true }, eid := 9, slotB := { state := 3, size := 5000 }, transfer := some ⟨2, 1, 1, 5000, 5000, 0, 1024⟩ } },
      ⟨2, 1, 1, 5000, 5000, 0, 1024⟩, by decide⟩

theorem wit_SidebandCommandsComplete_10 :
    ∃ (s : State) (x : Transfer), pldmServed s = true ∧ stateAccepts s sUCNF = true ∧ s.mgmt.transfer = some x
      ∧ x.owner = 2 ∧ (fwSlotOf s x.slot).state = fwReceiving :=
  ⟨{ live .unclaimed with mgmt := { mb0 := { ready := true }, eid := 9, slotB := { state := 1, size := 5000 }, transfer := some ⟨2, 1, 1, 5000, 4998, 0, 1024⟩ } },
      ⟨2, 1, 1, 5000, 4998, 0, 1024⟩, by decide⟩

theorem wit_StatusCommandsComplete_1 :
    ∃ (s : State) (q : Req), MailRuns s q v0M1 (sAll + sS) false false :=
  ⟨live .unclaimed, req .mb1, by decide⟩

theorem wit_StatusCommandsComplete_2 :
    ∃ (s : State) (q : Req), MailRuns s q v0M1 sAll false false :=
  ⟨{ live .unclaimed with integ := { log1 := [{ kind := 2 }, { kind := 3 }] } }, req .mb0, by decide⟩

theorem wit_StatusCommandsComplete_3 :
    ∃ (s : State) (q : Req), MailRuns s q v0M sUCNF false false :=
  ⟨{ live .unclaimed with integ := { log1 := [{ kind := 2 }, { kind := 3 }] } }, req .mb0, by decide⟩

theorem wit_StatusCommandsComplete_4 :
    ∃ (s : State) (q : Req) (bank index : Nat) (v : BitVec 64), MailRuns s q vMb0 (sU + sC + sN) false false
      ∧ bank ≤ 8 ∧ index < 16 ∧ selOk bank v.toNat = true :=
  ⟨live .unclaimed, req .mb0, 8, 15, 0x8000000000000080, by decide⟩

theorem wit_StatusCommandsComplete_5 :
    ∃ (s : State) (q : Req) (first n : Nat), MailRuns s q v0M sUCNRF false false ∧ 1 ≤ n ∧ first + n ≤ 144 :=
  ⟨live .unclaimed, req .mb0, 143, 1, by decide⟩

theorem wit_StatusCommandsComplete_6 :
    ∃ (s : State) (q : Req), MailRuns s q v0M sUCNRF false false :=
  ⟨live .unclaimed, req .mb0, by decide⟩

theorem wit_StatusCommandsComplete_7 :
    ∃ (s : State) (q : Req) (h : Nat), MailRuns s q vMb0 (sU + sC) false false ∧ 1 ≤ h ∧ h ≤ 168 :=
  ⟨live .unclaimed, req .mb0, 168, by decide⟩

theorem wit_StatusCommandsComplete_8 :
    ∃ (s : State) (q : Req), MailRuns s q v0M sAll false false :=
  ⟨live .unclaimed, req .mb0, by decide⟩

theorem wit_StatusCommandsComplete_9 :
    ∃ (s : State) (q : Req), MailRuns s q v01 sUCNRF false false ∧ (q.via = .mb1 ∨ opsInFlight s = false) :=
  ⟨live .unclaimed, req .mb1, by decide⟩

theorem wit_StatusCommandsComplete_10 :
    ∃ (s : State) (q : Req), MailRuns s q v01 sUCNRF false false ∧ q.via ≠ .mb1 ∧ opsInFlight s = true :=
  ⟨engS (engE 1 1 0), req .mb0, by decide⟩

theorem wit_ResetAndTestCommandsComplete_1 :
    ∃ (s : State) (q : Req), MailRuns s q v0M1 sUCNRF false false :=
  ⟨live .unclaimed, req .mb1, by decide⟩

theorem wit_ResetAndTestCommandsComplete_2 :
    ∃ (s : State) (q : Req), MailRuns s q v0M1 (sAll + sS) false false :=
  ⟨live .unclaimed, req .mb0, by decide⟩

theorem wit_ResetAndTestCommandsComplete_3 :
    ∃ (s : State) (q : Req), MailRuns s q v01 (sU + sF) false false :=
  ⟨live .unclaimed, req .mb0, by decide⟩

theorem wit_ResetAndTestCommandsComplete_4 :
    ∃ (s : State) (q : Req), MailRuns s q vMb1 sS false false ∧ s.sens.tripped = false :=
  ⟨live .standby, req .mb1, by decide⟩

theorem wit_ResetAndTestCommandsComplete_5 :
    ∃ (s : State) (q : Req) (pos level : Nat), MailRuns s q v0M sUCNF false false ∧ isMaster s = true ∧ 1 ≤ pos
      ∧ pos ≤ 3 ∧ level ≤ 1 :=
  ⟨live .unclaimed, req .mb0, 3, 1, by decide⟩

theorem wit_ResetAndTestCommandsComplete_6 :
    ∃ (s : State) (q : Req) (tile unit : Nat) (mask : List Byte), MailRuns s q vMb0 (sU + sNm + sF) false false
      ∧ tile < 8 ∧ unit < 256 ∧ mask.length = 33 :=
  ⟨live .unclaimed, req .mb0, 7, 255, List.replicate 33 1, by decide⟩

theorem wit_ResetAndTestCommandsComplete_7 :
    ∃ (s : State) (q : Req) (tile unit : Nat) (mask : List Byte), MailRuns s q vMb0 (sU + sNm + sF) false false
      ∧ tile < 8 ∧ unit < 64 ∧ mask.length = 72 :=
  ⟨live .unclaimed, req .mb0, 7, 63, List.replicate 72 1, by decide⟩

theorem wit_ResetAndTestCommandsComplete_8 :
    ∃ (s : State) (q : Req) (tiles memory patterns : Nat), MailRuns s q v0M (sU + sNm + sF) false false ∧ tiles ≠ 0
      ∧ tiles < 256 ∧ memory ≠ 0 ∧ memory < 4 ∧ patterns < 2 ∧ s.mgmt.bg.bist = none :=
  ⟨live .unclaimed, req .mb0, 255, 3, 1, by decide⟩

theorem wit_ResetAndTestCommandsComplete_9 :
    ∃ (s : State) (q : Req) (mask : Nat), MailRuns s q vMb0 (sU + sNm) false false ∧ mask ≠ 0 ∧ mask < 1024
      ∧ s.mgmt.bg.loopback = none :=
  ⟨live .unclaimed, req .mb0, 1023, by decide⟩

theorem wit_ResetAndTestCommandsComplete_10 :
    ∃ (s : State) (q : Req) (n : Nat), MailRuns s q v0M sAll false false ∧ 1 ≤ n ∧ n ≤ 4 :=
  ⟨live .unclaimed, req .mb0, 4, by decide⟩

theorem wit_IntegrityCommandsComplete_1 :
    ∃ (s : State) (tile chan : Nat), scrubs s = true ∧ tile < 8 ∧ chan < 64
      ∧ (getMc s tile chan).scrubPos + 1 < 2 ^ 24
      ∧ mapGet false s.pkg.poison (tile * 2 ^ 30 + chan * 2 ^ 24 + (getMc s tile chan).scrubPos) = false
      ∧ mapGet 0 s.pkg.errors (tile * 2 ^ 30 + chan * 2 ^ 24 + (getMc s tile chan).scrubPos) = 0
      ∧ mcFree s tile chan = true
      ∧ cached s (tile * 2 ^ 30 + chan * 2 ^ 24 + (getMc s tile chan).scrubPos) = false :=
  ⟨live .unclaimed, 7, 63, by decide⟩

theorem wit_IntegrityCommandsComplete_2 :
    ∃ (s : State) (tile chan c : Nat), scrubs s = true ∧ tile < 8 ∧ chan < 64
      ∧ (getMc s tile chan).scrubPos + 1 < 2 ^ 24 ∧ c = tile * 2 ^ 30 + chan * 2 ^ 24 + (getMc s tile chan).scrubPos
      ∧ mapGet false s.pkg.poison c = false ∧ mapGet 0 s.pkg.errors c = 0 ∧ mcFree s tile chan = true
      ∧ cached s c = true ∧ (∀ u ∈ s.pkg.under, u.1 ≠ c) :=
  ⟨{ live .unclaimed with pkg := { cache := [(7 * 8192 + 63 * 128, [⟨0, false, true, 0⟩])] } }, 7, 63, 7 * 2 ^ 30 +
      63 * 2 ^ 24, by decide⟩

theorem wit_IntegrityCommandsComplete_3 :
    ∃ (s : State) (tile : Nat), scrubs s = true ∧ tile < 8 ∧ (getSlot s tile).scrubPos + 1 < 2097152
      ∧ mapGet 0 (getSlot s tile).errors (2 * (getSlot s tile).scrubPos) = 0
      ∧ mapGet 0 (getSlot s tile).errors (2 * (getSlot s tile).scrubPos + 1) = 0
      ∧ mapGet 0 (getSlot s tile).tagErrors ((getSlot s tile).scrubPos / 64) = 0 :=
  ⟨live .unclaimed, 7, by decide⟩

theorem wit_IntegrityCommandsComplete_4 :
    ∃ (s : State) (tile : Nat), scrubs s = true ∧ tile < 8 ∧ (getSlot s tile).scrubOverdue = false :=
  ⟨live .unclaimed, 7, by decide⟩

theorem wit_IntegrityCommandsComplete_5 :
    ∃ (s : State) (loc : Loc) (x : SelfTest), s.integ.tests.find? (fun y => y.loc == loc) = some x
      ∧ mayTest s x = true :=
  ⟨{ live .unclaimed with integ := { tests := [⟨.pkg 1 2 3, 1, false⟩] } }, .pkg 1 2 3, ⟨.pkg 1 2 3, 1, false⟩, by
      decide⟩

theorem wit_IntegrityCommandsComplete_6 :
    ∃ (s : State) (loc : Loc) (x : SelfTest) (r : TestReads), s.integ.tests.find? (fun y => y.loc == loc) = some x
      ∧ mayTest s x = true ∧ r.second = 2 :=
  ⟨{ live .unclaimed with integ := { tests := [⟨.pkg 1 2 3, 1, false⟩] } }, .pkg 1 2 3, ⟨.pkg 1 2 3, 1, false⟩, ⟨0,
      2⟩, by decide⟩

theorem wit_IntegrityCommandsComplete_7 :
    ∃ (s : State) (loc : Loc) (x : SelfTest), s.integ.tests = [x] ∧ x.loc = loc :=
  ⟨{ live .unclaimed with integ := { tests := [⟨.pkg 1 2 3, 1, false⟩] } }, .pkg 1 2 3, ⟨.pkg 1 2 3, 1, false⟩, by
      decide⟩

theorem wit_IntegrityCommandsComplete_8 :
    ∃ (s : State) (w : WeightBlock) (p : WeightParams), s.life.cardamomRuns = true
      ∧ s.integ.reloading.find? (fun x => !x.lost) = some w ∧ weightRegion s w.region = some p ∧ p.source ≠ 2
      ∧ s.host.filter = [] :=
  ⟨{ live .unclaimed with integ := { reloading := [⟨0, 0, false, 0, []⟩], regions := [(0, some ⟨0, 0, 0, 0, 0, 65536, 0, 65536, 0⟩)] } },
      ⟨0, 0, false, 0, []⟩, ⟨0, 0, 0, 0, 0, 65536, 0, 65536, 0⟩, by decide⟩

theorem wit_IntegrityCommandsComplete_9 :
    ∃ (s : State) (w : WeightBlock) (p : WeightParams) (bs : List Byte), s.life.cardamomRuns = true
      ∧ s.integ.reloading.find? (fun x => !x.lost) = some w ∧ weightRegion s w.region = some p ∧ p.source ≠ 2
      ∧ s.host.filter = [] ∧ bs.length = 65536 :=
  ⟨{ live .unclaimed with integ := { reloading := [⟨0, 0, false, 0, []⟩], regions := [(0, some ⟨0, 0, 0, 0, 0, 65536, 0, 65536, 0⟩)] } },
      ⟨0, 0, false, 0, []⟩, ⟨0, 0, 0, 0, 0, 65536, 0, 65536, 0⟩, List.replicate 65536 0, ⟨rfl, rfl, rfl, by decide,
      rfl, List.length_replicate⟩⟩

theorem wit_IntegrityCommandsComplete_10 :
    ∃ (s : State) (via : Via) (tiles memory patterns : Nat), s.life.boot ≠ .bist
      ∧ s.mgmt.bg.bist = some (via, tiles, memory, patterns) :=
  ⟨{ live .unclaimed with mgmt := { bg := { bist := some (.mb0, 255, 3, 1) } } }, .mb0, 255, 3, 1, by decide⟩

theorem wit_IntegrityCommandsComplete_11 :
    ∃ (s : State) (via : Via) (board : Bool) (mask : Nat), s.mgmt.bg.loopback = some (via, board, mask) :=
  ⟨{ live .unclaimed with mgmt := { bg := { loopback := some (.mb0, true, 0) } } }, .mb0, true, 0, by decide⟩

theorem wit_StoreCommandsComplete_1 :
    ∃ (s : State) (q : Req) (l : List RegionEntry), MailRuns s q vMb0 sC false false ∧ tableStatus l = stSuccess
      ∧ placementBusy s = false :=
  ⟨liveC, req .mb0, (List.range 512).map regionDefault, by decide +kernel⟩

theorem wit_StoreCommandsComplete_2 :
    ∃ (s : State) (q : Req), MailRuns s q vMb0 (sC + sNp) false false :=
  ⟨liveC, req .mb0, by decide⟩

theorem wit_StoreCommandsComplete_3 :
    ∃ (s : State) (q : Req) (n : Nat), MailRuns s q vMb0 sC false false ∧ ideSecure s = true ∧ n ≤ 2048
      ∧ s.host.hdmCommitted = false :=
  ⟨liveH, req .mb0, 2048, by decide⟩

theorem wit_StoreCommandsComplete_4 :
    ∃ (s : State) (q : Req) (r : RingParams), MailRuns s q vMb0 sC false false ∧ ideSecure s = true
      ∧ ringShape r = true ∧ r.cq < 64 ∧ (getCq s r.cq).state = .active ∧ (getRing s r.ring).state = .none :=
  ⟨liveH, req .mb0, ⟨63, 4096, 64, 64, 0, 0, 0⟩, by decide⟩

theorem wit_StoreCommandsComplete_5 :
    ∃ (s : State) (q : Req) (n : Nat), MailRuns s q vMb0 (sC + sNp) false false ∧ n < 64
      ∧ (getRing s n).state ≠ .none ∧ ringIdle s n = true :=
  ⟨{ liveH with host := { liveH.host with rings := [(1, { state := .active, entries := 64, prog := 5 })] } }, req
      .mb0, 1, by decide⟩

theorem wit_StoreCommandsComplete_6 :
    ∃ (s : State) (q : Req) (r : RingParams), MailRuns s q vMb0 sC false false ∧ ideSecure s = true
      ∧ ringShape r = true ∧ 3 ≤ r.vector ∧ r.vector ≤ 63 ∧ r.moderation ≤ 1000 ∧ (getCq s r.ring).state = .none :=
  ⟨liveH, req .mb0, ⟨63, 4096, 64, 64, 0, 3, 1000⟩, by decide⟩

theorem wit_StoreCommandsComplete_7 :
    ∃ (s : State) (q : Req) (n : Nat), MailRuns s q vMb0 (sC + sNp) false false ∧ n < 64 ∧ (getCq s n).state ≠ .none
      ∧ cqNamed s n = false ∧ cqIdle s n = true :=
  ⟨liveH, req .mb0, 0, by decide⟩

theorem wit_StoreCommandsComplete_8 :
    ∃ (s : State) (q : Req) (p : PoolParams), MailRuns s q vMb0 sC false false ∧ namesJob s p.job = true
      ∧ poolOk p = true ∧ s.stepSet = none :=
  ⟨{ liveC with job := some soloJob }, req .mb0, onePool, by decide⟩

theorem wit_StoreCommandsComplete_9 :
    ∃ (s : State) (q : Req) (tile first n : Nat), MailRuns s q vMb0 (sC + sNp) false false ∧ tile < 8
      ∧ first + n ≤ 32768 ∧ (List.range n).all (fun i => !opClaims s tile (first + i)) = true :=
  ⟨{ liveC with slots := [(7, { tags := [(32767, 0x41)] })] }, req .mb0, 7, 32766, 2, by decide⟩

theorem wit_StoreCommandsComplete_10 :
    ∃ (s : State) (q : Req) (share th : Nat), MailRuns s q vMb0 (sU + sC) false false ∧ 32 ≤ share ∧ share ≤ 64
      ∧ 1 ≤ th ∧ th ≤ 16 :=
  ⟨live .unclaimed, req .mb0, 64, 16, by decide⟩

theorem wit_StoreCommandsComplete_11 :
    ∃ (s : State) (q : Req) (ms : Nat), MailRuns s q vMb0 (sU + sC) false false ∧ 1 ≤ ms ∧ ms ≤ 250 :=
  ⟨live .unclaimed, req .mb0, 250, by decide⟩

theorem wit_StoreCommandsComplete_12 :
    ∃ (s : State) (q : Req) (w : WeightParams), MailRuns s q vMb0 sC false false ∧ weightOk w s = true ∧ w.source ≠ 0
      ∧ s.integ.reloading = [] :=
  ⟨{ liveC with job := some soloJob }, req .mb0, ⟨15, 1, 0, 0, 65536, 65536, 64, 0, 5⟩, by decide⟩

theorem wit_HostLinkCommandsComplete_1 :
    ∃ (s : State), s.life.state ≠ .off ∧ s.life.boot ≠ .waitRamp ∧ s.life.boot ≠ .waitRelease :=
  ⟨live .unclaimed, by decide⟩

theorem wit_HostLinkCommandsComplete_2 :
    ∃ (s : State), s.host.trained = true :=
  ⟨liveH, by decide⟩

theorem wit_HostLinkCommandsComplete_3 :
    ∃ (s : State), ((mapGet {} s.host.ide 0).secure = true ∨ (mapGet {} s.host.ide 1).secure = true) :=
  ⟨liveH, by decide⟩

theorem wit_HostLinkCommandsComplete_4 :
    ∃ (s : State) (b : Nat), s.host.hdmCommitted = false ∧ s.host.hdmUnits ≠ 0 ∧ b % 2 ^ 28 = 0 :=
  ⟨{ liveH with host := { liveH.host with hdmUnits := 1 } }, 2 ^ 28, by decide⟩

theorem wit_HostLinkCommandsComplete_5 :
    ∃ (s : State) (off : Nat), hdmAnswers s (64 * (off / 64)) 64 = true ∧ foldHeld s (64 * (off / 64)) 64 = false
      ∧ s.host.filter = [] :=
  ⟨{ liveH with host := { liveH.host with hdmUnits := 1, hdmCommitted := true } }, 65, by decide⟩

theorem wit_HostLinkCommandsComplete_6 :
    ∃ (s : State) (off : Nat) (bs : List Byte), hdmAnswers s off 64 = true ∧ off % 64 = 0 ∧ bs.length = 64
      ∧ foldHeld s off 64 = false ∧ (∀ l ∈ cacheSet s (cwOf s off), l.err < 2) :=
  ⟨{ liveH with host := { liveH.host with hdmUnits := 1, hdmCommitted := true } }, 64, List.replicate 64 7, by decide⟩

theorem wit_HostLinkCommandsComplete_7 :
    ∃ (s : State) (line : Nat), mapGet 0 s.host.dirty line = 2 :=
  ⟨{ liveH with host := { liveH.host with filter := [5, 6], dirty := [(5, 2)] } }, 5, by decide⟩

theorem wit_HostLinkCommandsComplete_8 :
    ∃ (s : State) (x : Session) (st dir sub ks rf : Nat), s.sec.session = some x ∧ st < 2 ∧ dir < 2 ∧ sub < 8
      ∧ ks < 2 ∧ rf < 256 :=
  ⟨liveC, ⟨1, 2, 3, 4⟩, 1, 1, 7, 1, 255, by decide⟩

theorem wit_HostLinkCommandsComplete_9 :
    ∃ (s : State) (st ks : Nat), st < 2 ∧ ks < 2 ∧ keysReady (mapGet {} s.host.ide st) ks = true :=
  ⟨{ liveC with host := { ide := [(1, { keys := [(17, 3), (25, 4)] })] } }, 1, 1, by decide⟩

theorem wit_RingCommandsComplete_1 :
    ∃ (s : State) (n : Nat), (getRing s n).state ≠ .none ∧ (getRing s n).watched = true :=
  ⟨liveR [], 1, by decide⟩

theorem wit_RingCommandsComplete_2 :
    ∃ (s : State) (n : Nat) (d : DescSlot), nextDesc s n = some d ∧ wdKind d = 1 ∧ wdOk d = true
      ∧ s.life.state = .claimed :=
  ⟨liveR [1, 0, 7], 1, ⟨0, line64 [1, 0, 7], false, false⟩, by decide⟩

theorem wit_RingCommandsComplete_3 :
    ∃ (s : State) (n : Nat) (d : DescSlot), nextDesc s n = some d ∧ wdKind d = 1 ∧ s.life.state = .notReady
      ∧ (getCq s (getRing s n).cq).state = .active :=
  ⟨{ liveR [1, 0, 7] with life := { (live .notReady).life with state := .notReady } }, 1, ⟨0, line64 [1, 0, 7],
      false, false⟩, by decide⟩

theorem wit_RingCommandsComplete_4 :
    ∃ (s : State) (n : Nat) (d : DescSlot), nextDesc s n = some d ∧ wdKind d = 0x10 ∧ wdOk d = true
      ∧ s.life.state = .claimed ∧ newSeqStatus (newSeqOf n d) (learnMembers (takeDesc n d.index s)) = upAccepted :=
  ⟨liveM (0x10 :: List.replicate 15 0 ++ [2, 0, 0, 0, 9, 0, 0, 0]), 1, ⟨0, line64 (0x10 :: List.replicate 15 0 ++ [2,
      0, 0, 0, 9, 0, 0, 0]), false, false⟩, by decide⟩

theorem wit_RingCommandsComplete_5 :
    ∃ (s : State) (n : Nat) (d : DescSlot), nextDesc s n = some d ∧ wdKind d = 0x11 ∧ wdOk d = true
      ∧ s.life.state = .claimed ∧ takesUpdates s = true ∧ isLive (getSeq s (wdF d 20 2)) = true :=
  ⟨liveM (0x11 :: List.replicate 19 0 ++ [7]), 1, ⟨0, line64 (0x11 :: List.replicate 19 0 ++ [7]), false, false⟩, by
      decide⟩

theorem wit_RingCommandsComplete_6 :
    ∃ (s : State) (n : Nat) (d : DescSlot), nextDesc s n = some d ∧ wdKind d = 0x12 ∧ wdOk d = true
      ∧ s.life.state = .claimed ∧ takesUpdates s = true ∧ isLive (getSeq s (wdF d 20 2)) = true :=
  ⟨liveM (0x12 :: List.replicate 19 0 ++ [7, 0, 9]), 1, ⟨0, line64 (0x12 :: List.replicate 19 0 ++ [7, 0, 9]), false,
      false⟩, by decide⟩

theorem wit_RingCommandsComplete_7 :
    ∃ (s : State) (c : Nat) (r : Record) (rs : List Record), s.life.boot = .done ∧ s.life.linkLost = false
      ∧ (getCq s c).waiting = r :: rs ∧ (getCq s c).state = .active ∧ (getCq s c).writing = none
      ∧ cqKeep s c r.kind < cqFree (getCq s c) :=
  ⟨{ liveH with host := { liveH.host with cqs := [(0, { state := .active, base := 4096, entries := 64, waiting := [⟨1, 1, 0, List.replicate 256 3⟩] })] } },
      0, ⟨1, 1, 0, List.replicate 256 3⟩, [], by decide +kernel⟩

theorem wit_RingCommandsComplete_8 :
    ∃ (s : State) (id c : Nat), d2hUse s id = some (.headLine c) :=
  ⟨{ liveH with host := { liveH.host with d2h := [(4, .headLine 0)] } }, 4, 0, by decide⟩

theorem wit_RingCommandsComplete_9 :
    ∃ (s : State) (id n i : Nat), d2hUse s id = some (.descriptor n i) ∧ (getRing s n).state = .active :=
  ⟨{ liveR [] with host := { (liveR []).host with d2h := [(4, .descriptor 1 1)] } }, 4, 1, 1, by decide⟩

theorem wit_RingCommandsComplete_10 :
    ∃ (s : State) (id c : Nat) (r : Record) (k : Nat), d2hUse s id = some (.recordLine0 c)
      ∧ (getCq s c).writing = some (r, k) :=
  ⟨{ liveH with host := { liveH.host with d2h := [(4, .recordLine0 0)], cqs := [(0, { state := .active, entries := 64, writing := some (⟨1, 1, 0, []⟩, 0) })] } },
      4, 0, ⟨1, 1, 0, []⟩, 0, by decide⟩

theorem wit_RingCommandsComplete_11 :
    ∃ (s : State) (id c : Nat), d2hUse s id = some (.headLine c) :=
  ⟨{ liveH with host := { liveH.host with d2h := [(4, .headLine 0)] } }, 4, 0, by decide⟩

theorem wit_RingCommandsComplete_12 :
    ∃ (s : State) (c : Nat), (getCq s c).modHold = true :=
  ⟨{ liveH with host := { liveH.host with cqs := [(0, { state := .active, modHold := true, msgPending := true, vector := 3 })], msix := [(15, 1)] } },
      0, by decide⟩

theorem wit_RingCommandsComplete_13 :
    ∃ (s : State), s.host.esHoldoff = true :=
  ⟨{ liveH with host := { liveH.host with esHoldoff := true, esPending := true, msix := [(3, 1)] } }, by decide⟩

theorem wit_PortCommandsComplete_1 :
    ∃ (s : State) (port : Nat) (errs : List (List Nat)) (lanes : List Nat), (getPort s port).state = .up
      ∧ errs.all corrects = true ∧ ((getPort s port).badWords.filter (·.lost)).length ≤ 16
      ∧ rxRoom (getPort s port) lanes = true :=
  ⟨{ liveC with fabric := { ports := [(9, { state := .up, rxSeq := 4095 })] } }, 9, [[7, 9]], [48, 0, 0], by decide⟩

theorem wit_PortCommandsComplete_2 :
    ∃ (s : State) (port : Nat) (errs : List (List Nat)) (crcOk : Bool), linkUp s port = true
      ∧ (crcOk = false ∨ errs.all corrects = false)
      ∧ ((getPort s port).badWords.filter (·.lost)).length + (errs.filter (fun e => !corrects e)).length ≤ 16 :=
  ⟨{ liveC with fabric := { ports := [(9, { state := .quarantine, rxSeq := 4095 })] } }, 9, [List.range 16], true, by
      decide⟩

theorem wit_PortCommandsComplete_3 :
    ∃ (s : State) (port : Nat) (f : LinkCtl), linkUp s port = true ∧ f.crcOk = true ∧ f.errs.all corrects = true
      ∧ ((getPort s port).badWords.filter (·.lost)).length ≤ 16 :=
  ⟨{ liveC with fabric := { ports := [(9, { state := .up, replay := [⟨4095, [1]⟩, ⟨0, [2]⟩, ⟨1, [3]⟩], txWait := [4], txSeq := 2 })] } },
      9, ⟨0, 0, true, []⟩, by decide⟩

theorem wit_PortCommandsComplete_4 :
    ∃ (s : State) (port : Nat) (f : LinkCtl) (l : List LinkFrame), linkUp s port = true ∧ f.crcOk = true
      ∧ f.errs.all corrects = true ∧ ((getPort s port).badWords.filter (·.lost)).length ≤ 16 ∧ f.seq < 4096
      ∧ f.ack = (f.seq + 4095) % 4096 ∧ (getPort s port).replay = l ∧ l ≠ [] ∧ (getPort s port).txWait = []
      ∧ (∀ q ∈ l, q.seq < 4096 ∧ (q.seq + 4096 - f.seq) % 4096 < 2048) :=
  ⟨{ liveC with fabric := { ports := [(9, { state := .up, replay := [⟨4095, [1]⟩, ⟨0, [2]⟩] })] } }, 9, ⟨4095, 4094,
      true, []⟩, [⟨4095, [1]⟩, ⟨0, [2]⟩], by decide⟩

theorem wit_PortCommandsComplete_5 :
    ∃ (s : State) (port : Nat) (errs : List (List Nat)), linkUp s port = true ∧ (getPort s port).badWords = []
      ∧ 16 < (errs.filter (fun e => !corrects e)).length :=
  ⟨{ liveC with fabric := { ports := [(9, { state := .up })] } }, 9, List.replicate 17 (List.range 16), by decide⟩

theorem wit_PortCommandsComplete_6 :
    ∃ (s : State) (port : Nat), linkUp s port = true ∧ 8 ≤ (getPort s port).replayRun :=
  ⟨{ liveC with fabric := { ports := [(9, { state := .up, replayRun := 8 })] } }, 9, by decide⟩

theorem wit_PortCommandsComplete_7 :
    ∃ (s : State) (port : Nat), (getPort s port).state = .down ∧ (getPort s port).disabled = false
      ∧ portLight (getPort s port) = true ∧ portsRun s = true :=
  ⟨live .notReady, 9, by decide⟩

theorem wit_PortCommandsComplete_8 :
    ∃ (s : State) (port : Nat), (getPort s port).state = .down ∧ (getPort s port).disabled = false
      ∧ portLight (getPort s port) = true ∧ portsRun s = true :=
  ⟨live .notReady, 0, by decide⟩

theorem wit_PortCommandsComplete_9 :
    ∃ (s : State) (port : Nat), (getPort s port).state = .training ∧ (getPort s port).step = 1
      ∧ portLight (getPort s port) = true :=
  ⟨{ live .notReady with fabric := { ports := [(9, { state := .training, step := 1 })] } }, 9, by decide⟩

theorem wit_PortCommandsComplete_10 :
    ∃ (s : State) (port : Nat), (getPort s port).state = .training
      ∧ ((getPort s port).step = 2 ∨ (getPort s port).step = 3) :=
  ⟨{ live .notReady with fabric := { ports := [(9, { state := .training, step := 3 })] } }, 9, by decide⟩

theorem wit_PortCommandsComplete_11 :
    ∃ (s : State) (port loopNs : Nat) (r : IdRecord), (getPort s port).state = .training ∧ (getPort s port).step = 4
      ∧ (getPort s port).idRec = some r ∧ (getPort s port).idTwice = true
      ∧ ((getPort s port).useSaved = false ∨ (getPort s port).saved = some (r.serial, r.port)) ∧ loopNs ≤ 1500 :=
  ⟨{ live .notReady with fabric := { ports := [(9, { state := .training, step := 4, idRec := some ⟨1, 143, 9, 255, 2, 0, 3, 77, true⟩, idTwice := true })] } },
      9, 1500, ⟨1, 143, 9, 255, 2, 0, 3, 77, true⟩, by decide⟩

theorem wit_PortCommandsComplete_12 :
    ∃ (s : State) (port m : Nat) (r : IdRecord) (e : PlanEntry), (getPort s port).state = .training
      ∧ (getPort s port).step = 5 ∧ (getPort s port).idRec = some r ∧ negotiate r = some m
      ∧ s.fabric.plan[port]? = some e ∧ mapMatches e r = true :=
  ⟨{ live .notReady with fabric := { plan := [⟨9, 143⟩], ports := [(0, { state := .training, step := 5, idRec := some ⟨1, 143, 9, 255, 2, 0, 4, 77, true⟩ })] } },
      0, 3, ⟨1, 143, 9, 255, 2, 0, 4, 77, true⟩, ⟨9, 143⟩, by decide⟩

theorem wit_PortCommandsComplete_13 :
    ∃ (s : State) (port : Nat) (r : IdRecord), (getPort s port).state = .training ∧ (getPort s port).step = 5
      ∧ (getPort s port).idRec = some r ∧ (∀ e, negotiate r ≠ none → s.fabric.plan[port]? = some e →
      mapMatches e r = false) :=
  ⟨{ live .notReady with fabric := { ports := [(0, { state := .training, step := 5, idRec := some ⟨1, 143, 9, 255, 2, 4, 4, 77, true⟩ })] } },
      0, ⟨1, 143, 9, 255, 2, 4, 4, 77, true⟩, ⟨by decide, by decide, by decide, fun _ h => absurd rfl h⟩⟩

theorem wit_PortCommandsComplete_14 :
    ∃ (s : State) (port : Nat) (r : IdRecord), (getPort s port).state = .training ∧ (getPort s port).step = 4
      ∧ r.crcOk = true :=
  ⟨{ live .notReady with fabric := { ports := [(9, { state := .training, step := 4, idRec := some ⟨1, 143, 9, 255, 2, 0, 3, 77, true⟩ })] } },
      9, ⟨1, 143, 9, 255, 2, 0, 3, 77, true⟩, by decide⟩

theorem wit_PortCommandsComplete_15 :
    ∃ (s : State) (port : Nat), (getPort s port).state = .training ∧ 1 ≤ (getPort s port).step
      ∧ (getPort s port).step ≤ 4 :=
  ⟨{ live .notReady with fabric := { ports := [(9, { state := .training, step := 4 })] } }, 9, by decide⟩

theorem wit_PortCommandsComplete_17 :
    ∃ (s : State) (index p : Nat), p < 10 ∧ p / 5 = index ∧ 10 ≤ (getPort s p).laserBad
      ∧ (getPort s p).state ≠ .down :=
  ⟨{ liveC with fabric := { ports := [(5, { state := .up, laserBad := 9 }), (9, { state := .up, laserBad := 10 })] } },
      1, 9, by decide⟩

theorem wit_PortCommandsComplete_18 :
    ∃ (s : State) (index : Nat), 10 ≤ mapGet 0 (getPort s (index / 8)).laneRuns (index % 8)
      ∧ (getPort s (index / 8)).state ≠ .down :=
  ⟨{ liveC with fabric := { ports := [(9, { state := .training, laneRuns := [(7, 10)] })] } }, 79, by decide⟩

theorem wit_PortCommandsComplete_19 :
    ∃ (s : State) (port lane : Nat), (getPort s port).state ≠ .down ∧ lane < 8 :=
  ⟨{ liveC with fabric := { ports := [(9, { state := .up })] } }, 9, 7, by decide⟩

theorem wit_PortCommandsComplete_20 :
    ∃ (s : State) (port : Nat), port < 10 ∧ portUp s port = true ∧ mapped s port = true :=
  ⟨{ liveC with fabric := { plan := List.replicate 9 ⟨0, 0⟩ ++ [⟨5, 1⟩], ports := [(9, { state := .up, planeSeen := 5, swport := 1 })] } },
      9, by decide⟩

theorem wit_MemberCommandsComplete_1 :
    ∃ (s : State) (peer chan : Nat), attested s peer = true ∧ (getChan s (chanKey peer chan)).state = .opening :=
  ⟨{ liveC with fabric := { peers := [(3, { admitted := true, answered := true })], chans := [(chanKey 3 4095, { state := .opening, epoch := 1 })] } },
      3, 4095, by decide⟩

theorem wit_MemberCommandsComplete_2 :
    ∃ (s : State) (peer chan : Nat), attested s peer = true ∧ (getChan s (chanKey peer chan)).state = .closed :=
  ⟨{ liveC with fabric := { peers := [(3, { admitted := true, answered := true })] } }, 3, 0, by decide⟩

theorem wit_MemberCommandsComplete_3 :
    ∃ (s : State) (peer counter : Nat), (getPeer s peer).admitted = true ∧ (getPeer s peer).rxCounter < counter :=
  ⟨{ liveC with fabric := { peers := [(3, { admitted := true, rxCounter := 6 })] } }, 3, 7, by decide⟩

theorem wit_MemberCommandsComplete_4 :
    ∃ (s : State) (peer counter : Nat) (tagOk : Bool), (tagOk = false ∨ counter ≤ (getPeer s peer).rxCounter) :=
  ⟨{ liveC with fabric := { peers := [(3, { admitted := true, rxCounter := 7 })] } }, 3, 7, true, by decide⟩

theorem wit_MemberCommandsComplete_5 :
    ∃ (s : State) (peer counter : Nat), s.host.filter = [] ∧ (getPeer s peer).admitted = true
      ∧ (getPeer s peer).rxCounter < counter :=
  ⟨{ liveC with fabric := { peers := [(3, { admitted := true, rxCounter := 6 })] } }, 3, 7, by decide⟩

theorem wit_MemberCommandsComplete_6 :
    ∃ (s : State) (peer counter : Nat), (getPeer s peer).admitted = true ∧ (getPeer s peer).rxCounter < counter :=
  ⟨{ liveC with fabric := { peers := [(3, { admitted := true, rxCounter := 6, pairKey := 9 })] } }, 3, 7, by decide⟩

theorem wit_MemberCommandsComplete_7 :
    ∃ (s : State) (peer port : Nat), s.life.state = .claimed ∧ peer ∈ s.fabric.members
      ∧ mgmtPort s (portOfPlane s (hubPlane s peer)) = some port :=
  ⟨{ liveC with fabric := { members := [3], ports := [(9, { state := .up })] } }, 3, 9, by decide⟩

theorem wit_MemberCommandsComplete_8 :
    ∃ (s : State) (peer : Nat) (q : Req), s.mgmt.executing = .peerAttest q peer :=
  ⟨{ liveC with mgmt := { liveC.mgmt with executing := .peerAttest (req .mb0) 3 } }, 3, req .mb0, by decide⟩

theorem wit_MemberCommandsComplete_9 :
    ∃ (s : State) (id k : Nat), id ≠ ownId s ∧ keyPeer k = id ∧ (getChan s k).state ≠ .closed :=
  ⟨{ liveC with fabric := { chans := [(chanKey 3 5, { state := .opened, epoch := 1 })] } }, 3, chanKey 3 5, by decide⟩

theorem wit_MemberCommandsComplete_10 :
    ∃ (s : State) (id k : Nat), ChannelsWf s ∧ id ≠ ownId s ∧ keyPeer k = id ∧ (getChan s k).state = .reset
      ∧ attested s id = true ∧ (getPeer s id).gone = false ∧ portUp s (getChan s k).port = true :=
  ⟨{ liveC with fabric := { peers := [(3, { admitted := true, answered := true })], ports := [(9, { state := .up })], chans := [(chanKey 3 5, { state := .reset, epoch := 65535, port := 9 })] } },
      3, chanKey 3 5, by decide⟩

theorem wit_MemberCommandsComplete_11 :
    ∃ (s : State) (id : Nat), s.host.filter = [] ∧ id ≠ ownId s :=
  ⟨{ liveC with fabric := { peers := [(3, { admitted := true, answered := true })] } }, 3, by decide⟩

theorem wit_PowerCommandsServe_1 :
    ∃ (s : State) (tile chan : Nat) (r : MemReq), s.host.filter = [] ∧ nextReq s tile chan = some r :=
  ⟨{ liveC with pkg := { chans := [(511, { slotCount := 62, queue := [⟨3, 0, 7, 0, 0, false, 0, false⟩, ⟨0, 0, 7, 0, 64, false, 0, false⟩] })] } },
      7, 63, ⟨0, 0, 7, 0, 64, false, 0, false⟩, by decide⟩

theorem wit_PowerCommandsServe_2 :
    ∃ (s : State) (tile chan : Nat) (r : MemReq), (getMc s tile chan).queue = [r] ∧ (r.cls = 1 ∨ r.cls = 2)
      ∧ r.promoted = false :=
  ⟨{ liveC with pkg := { chans := [(511, { queue := [⟨2, 0, 7, 0, 0, false, 0, false⟩] })] } }, 7, 63, ⟨2, 0, 7, 0,
      0, false, 0, false⟩, by decide⟩

theorem wit_PowerCommandsServe_3 :
    ∃ (s : State) (tile chan : Nat), s.life.filled = true ∧ s.life.state ≠ .standby ∧ tile < 8 ∧ chan < 64
      ∧ refreshDue s tile chan = true :=
  ⟨liveC, 7, 63, by decide⟩

theorem wit_PowerCommandsServe_4 :
    ∃ (s : State) (tile : Nat), mapGet 0 s.pkg.band tile ≠ 0
      ∧ tileHot s tile + 2 ≤ bandLimit (mapGet 0 s.pkg.band tile - 1) :=
  ⟨{ liveC with pkg := { band := [(7, 1)] }, sens := { dram := [(7, [80, 83])] } }, 7, by decide⟩

theorem wit_PowerCommandsServe_5 :
    ∃ (s : State) (ts : List TileTemps) (hub : List Nat), s.life.inputOn = true
      ∧ fatalTemp (samplePairs 8 s.sens.hub hub) = false ∧ (∀ i, i < 8 →
      fatalTemp (tilePairs s i (ts.getD i ⟨[], []⟩)) = false) :=
  ⟨{ liveC with sens := { dram := [(7, [106])] } }, List.replicate 8 ⟨[106], [40]⟩, [115], by decide⟩

theorem wit_PowerCommandsServe_6 :
    ∃ (s : State) (hub : List Nat), s.life.inputOn = true ∧ s.life.state ≠ .off ∧ s.sens.tripped = false
      ∧ fatalTemp (samplePairs 8 s.sens.hub hub) = true :=
  ⟨{ liveC with sens := { hub := [115] } }, [115], by decide⟩

theorem wit_PowerCommandsServe_7 :
    ∃ (s : State), s.life.inputOn = true :=
  ⟨liveC, by decide⟩

theorem wit_PowerCommandsServe_9 :
    ∃ (s : State), s.life.cardamomRuns = true :=
  ⟨liveC, by decide⟩

theorem wit_ClosingCommandsComplete_1 :
    ∃ (s : State) (tile engine slot : Nat) (q : Req), s.mgmt.executing = .tableLoad q slot
      ∧ engineHasOp s tile 3 engine = false
      ∧ (mapGet {} s.cfg.tables (tableKey tile engine slot)).shadowReady = true :=
  ⟨{ liveC with mgmt := { liveC.mgmt with executing := .tableLoad (req .mb0) 15 }, cfg := { tables := [(tableKey 7 1 15, { shadow := [1], shadowReady := true })] } },
      7, 1, 15, req .mb0, by decide⟩

theorem wit_ClosingCommandsComplete_2 :
    ∃ (s : State) (tile : Nat) (v : Via) (x : EngineSel), s.mgmt.bg.drain = some (v, x) ∧ bit x.tiles tile = true
      ∧ tileQuiet s tile = true ∧ (getTile s tile).quiesced = false :=
  ⟨{ liveC with mgmt := { liveC.mgmt with bg := { drain := some (.mb1, ⟨128, 0, 0, 0⟩) } } }, 7, .mb1, ⟨128, 0, 0,
      0⟩, by decide⟩

theorem wit_ClosingCommandsComplete_3 :
    ∃ (s : State) (w : Nat) (q : Req) (p : WindowParams), s.mgmt.executing = .windowClose q w ∧ winIdle s w = true
      ∧ (getWin s w).params = some p :=
  ⟨{ liveC with mgmt := { liveC.mgmt with executing := .windowClose (req .mb0) 254 }, fabric := { windows := [(254, { isOpen := true, closing := true, params := some ⟨254, 1, 0, 0, 4096, 1, [], 0, 0, none, none, 0, 0⟩ })] } },
      254, req .mb0, ⟨254, 1, 0, 0, 4096, 1, [], 0, 0, none, none, 0, 0⟩, by decide⟩

theorem wit_ClosingCommandsComplete_4 :
    ∃ (s : State) (k : Nat) (q : Req), s.mgmt.executing = .chanClose q k ∧ (getChan s k).retained = [] :=
  ⟨{ liveC with mgmt := { liveC.mgmt with executing := .chanClose (req .mb0) 5 }, fabric := { chans := [(5, { state := .closing, epoch := 3 })] } },
      5, req .mb0, by decide⟩

theorem wit_ClosingCommandsComplete_5 :
    ∃ (s : State) (n : Nat) (q : Req), s.mgmt.executing = .ringDestroy q n ∧ ringIdle s n = true :=
  ⟨{ liveC with mgmt := { liveC.mgmt with executing := .ringDestroy (req .mb0) 63 }, host := { rings := [(63, { state := .destroying, entries := 64, prog := 9 })] } },
      63, req .mb0, by decide⟩

theorem wit_ClosingCommandsComplete_6 :
    ∃ (s : State) (n : Nat) (q : Req), s.mgmt.executing = .cqDestroy q n ∧ cqIdle s n = true :=
  ⟨{ liveC with mgmt := { liveC.mgmt with executing := .cqDestroy (req .mb0) 63 }, host := { cqs := [(63, { state := .destroying, entries := 64 })] } },
      63, req .mb0, by decide⟩

theorem wit_ClosingCommandsComplete_7 :
    ∃ (s : State) (g tile first n : Nat) (q : Req), s.mgmt.executing = .slotRelease q tile first n ∧ first ≤ g
      ∧ g < first + n ∧ opClaims s tile g = false :=
  ⟨{ liveC with mgmt := { liveC.mgmt with executing := .slotRelease (req .mb0) 7 32767 1 }, slots := [(7, { tags := [(32767, 0x41)] })] },
      32767, 7, 32767, 1, req .mb0, by decide⟩

theorem wit_PacketCommandsComplete_1 :
    ∃ (s : State) (port : Nat) (p : Packet) (w : WindowParams), PacketNext s port 0x01 p ∧ p.chan ≠ 2
      ∧ (p.window = 255 → openTrust s = false) ∧ (getWin s p.window).params = some w ∧ w.kind = 1
      ∧ writeReason (getWin s p.window) p = 0 ∧ foldHeld s (w.base + p.offset) p.payload.length = false :=
  ⟨pktS (pkgWin 1), 9, pktOf 1 [1, 2, 3], pkgWin 1, by decide⟩

theorem wit_PacketCommandsComplete_2 :
    ∃ (s : State) (port : Nat) (p : Packet) (w : WindowParams), PacketNext s port 0x01 p ∧ p.chan ≠ 2
      ∧ (p.window = 255 → openTrust s = false) ∧ (getWin s p.window).params = some w ∧ w.kind = 0
      ∧ writeReason (getWin s p.window) p = 0 ∧ (getSlot s w.tile).errors = [] ∧ (getSlot s w.tile).flips = [] :=
  ⟨{ pktS slotWin with fabric := { (pktS slotWin).fabric with windows := [(7, { isOpen := true, params := some slotWin, epoch := 1, claimed := [0] })] } },
      9, pktOf 1 [1, 2, 3], slotWin, by decide⟩

theorem wit_PacketCommandsComplete_3 :
    ∃ (s : State) (port : Nat) (p : Packet), PacketNext s port 0x01 p ∧ p.chan ≠ 2 ∧ (p.window = 255 →
      openTrust s = false) ∧ writeReason (getWin s p.window) p ≠ 0 ∧ writeReason (getWin s p.window) p ≠ 10 :=
  ⟨pktS (pkgWin 1), 9, { pktOf 1 [1, 2, 3] with aux := 2 }, by decide⟩

theorem wit_PacketCommandsComplete_4 :
    ∃ (s : State) (port : Nat) (p : Packet) (w : WindowParams), PacketNext s port 0x02 p ∧ p.chan ≠ 2
      ∧ (p.window = 255 → openTrust s = false) ∧ (getWin s p.window).params = some w
      ∧ readReason (getWin s p.window) p = 0 ∧ (w.base + p.offset) % 64 + readLen p ≤ 64
      ∧ foldHeld s (w.base + p.offset) (readLen p) = false
      ∧ (∀ l ∈ cacheSet s (cwOf s (w.base + p.offset)), l.err = 0)
      ∧ (cacheSet s (cwOf s (w.base + p.offset))).length < 16
      ∧ mapGet 0 s.pkg.errors (cwOf s (w.base + p.offset)) = 0 :=
  ⟨pktS (pkgWin 4), 9, { pktOf 1 [] with aux := 1 + 64 * 2 ^ 32 }, pkgWin 4, by decide⟩

theorem wit_PacketCommandsComplete_5 :
    ∃ (s : State) (port : Nat) (p : Packet) (r : Nat × Nat) (e : Entry), PacketNext s port 0x03 p
      ∧ (getChan s (chanKey p.src p.chan)).reads.find? (fun x => x.1 == p.aux % 2 ^ 24) = some r
      ∧ findEntry s (r.2 % 8) (r.2 / 8) = some e :=
  ⟨{ pktS (pkgWin 1) with tiles := [(7, { window := [{ uid := 5, gotData := [9] }] })], fabric := { (pktS (pkgWin 1)).fabric with chans := [(chanKey 3 8, { state := .opened, epoch := 1, port := 9, rxSeq := 4, reads := [(6, 47)] })] } },
      9, { pktOf 1 [1, 2] with aux := 6 }, (6, 47), { uid := 5, gotData := [9] }, by decide⟩

theorem wit_PacketCommandsComplete_6 :
    ∃ (s : State) (port : Nat) (p : Packet), PacketNext s port 0x04 p ∧ p.chan ≠ 2 ∧ (p.window = 255 →
      openTrust s = false)
      ∧ accumReason s (getWin s p.window) (inPeers (getWin s p.window) p.src) (p.aux % 65536) p.offset (contribSpan
        (winTarget (getWin s p.window)) p.fmt (accBlk16 p) p.payload) p.fmt (tagAt (getWin s p.window) (accTag p))
        (accRidx p) = 0 ∧ (stamped (getWin s p.window) = true →
      stampCase s (getWin s p.window) (tagAt (getWin s p.window) (accTag p)) (accRidx p) ≠ .discarded)
      ∧ contribVals p.fmt (accBlk16 p) p.payload ≠ [] :=
  ⟨pktS (pkgWin 2), 9, { pktOf 1 [0, 0, 128, 63] with fmt := 0 }, by decide⟩

theorem wit_PacketCommandsComplete_7 :
    ∃ (s : State) (port : Nat) (p : Packet), PacketNext s port 0x05 p
      ∧ (getChan s (chanKey p.src p.chan)).low ≤ p.aux % 4096
      ∧ p.aux % 4096 ≤ (getChan s (chanKey p.src p.chan)).high ∧ isStepCounter s (p.aux % 4096) = false :=
  ⟨{ pktS (pkgWin 1) with fences := { counters := [(4095, 2 ^ 64 - 1)] }, fabric := { (pktS (pkgWin 1)).fabric with chans := [(chanKey 3 8, { state := .opened, epoch := 1, port := 9, rxSeq := 4, low := 4095, high := 4095 })] } },
      9, { pktOf 1 [] with aux := 4095 + 7 * 2 ^ 32 }, by decide⟩

theorem wit_PacketCommandsComplete_8 :
    ∃ (s : State) (port : Nat) (p : Packet) (st rr : Nat), PacketNext s port 0x05 p
      ∧ (getChan s (chanKey p.src p.chan)).low ≤ p.aux % 4096
      ∧ p.aux % 4096 ≤ (getChan s (chanKey p.src p.chan)).high ∧ isStepCounter s (p.aux % 4096) = true
      ∧ incRun p = some (st, rr) ∧ runClass s st rr ≠ 0 ∧ s.fences.pendingInc.length < 256 :=
  ⟨{ pktS (pkgWin 1) with stepSet := some ⟨{ soloSet with counters := [9] }, 3⟩, fabric := { (pktS (pkgWin 1)).fabric with chans := [(chanKey 3 8, { state := .opened, epoch := 1, port := 9, rxSeq := 4, low := 0, high := 9 })] } },
      9, { pktOf 1 [5, 0, 0, 0, 0, 0, 0, 0, 1] with aux := 9 + 7 * 2 ^ 32 }, 5, 1, by decide⟩

theorem wit_PacketCommandsComplete_9 :
    ∃ (s : State) (port b : Nat) (p : Packet), PacketNext s port 0x06 p ∧ b = p.aux % 64 ∧ b ≠ 0
      ∧ (getBarrier s b).configured = true ∧ (getBarrier s b).root = ownId s
      ∧ barGenOf (getBarrier s b).done (bits p.aux 63 8) = (getBarrier s b).done :=
  ⟨{ pktS (pkgWin 1) with fences := { barriers := [(63, { configured := true, root := 255, members := 2, rootNow := [9] })] } },
      9, 63, { pktOf 1 [] with aux := 63 }, by decide⟩

theorem wit_PacketCommandsComplete_10 :
    ∃ (s : State) (port b : Nat) (p : Packet), PacketNext s port 0x07 p ∧ b = p.aux % 64 ∧ b ≠ 0
      ∧ (getBarrier s b).configured = true :=
  ⟨{ pktS (pkgWin 1) with fences := { barriers := [(63, { configured := true, root := 3, members := 2, done := 4 })] } },
      9, 63, { pktOf 1 [5, 0, 0, 0] with aux := 63 + 64 + 4 * 256 }, by decide⟩

theorem wit_ChannelCommandsComplete_1 :
    ∃ (s : State) (port : Nat) (p : Packet), PacketGood s port 0x10 p
      ∧ (∀ r ∈ (getChan s (chanKey p.src p.chan)).retained, r.sentOut = true) :=
  ⟨ackS, 9, { pktOf 1 [] with aux := 2 }, by decide⟩

theorem wit_ChannelCommandsComplete_2 :
    ∃ (s : State) (port : Nat) (p : Packet), PacketGood s port 0x11 p
      ∧ (getChan s (chanKey p.src p.chan)).busySeq ≠ some (p.aux % 2 ^ 24) :=
  ⟨ackS, 9, { pktOf 1 [] with aux := 2 }, by decide⟩

theorem wit_ChannelCommandsComplete_3 :
    ∃ (s : State) (port : Nat) (p : Packet) (r : Retained), PacketGood s port 0x12 p
      ∧ (getChan s (chanKey p.src p.chan)).retained.find? (fun x => x.sentOut && x.seq == p.aux % 2 ^ 24) = some r
      ∧ bits p.aux 31 24 = 10 :=
  ⟨ackS, 9, { pktOf 1 [] with aux := 2 + 10 * 2 ^ 24 }, ⟨2, 1, 47, true, false, pktOf 1 [1], [], none⟩, by decide⟩

theorem wit_ChannelCommandsComplete_4 :
    ∃ (s : State) (port : Nat) (p : Packet) (r : Retained) (e : Entry), PacketGood s port 0x12 p
      ∧ (getChan s (chanKey p.src p.chan)).retained = [r] ∧ r.sentOut = true ∧ r.seq = p.aux % 2 ^ 24
      ∧ bits p.aux 31 24 ≠ 10 ∧ r.owner ≠ 0 ∧ findEntry s (r.owner % 8) (r.owner / 8) = some e ∧ e.ended = true
      ∧ e.sent = 1 ∧ e.fault = 0 ∧ (getTask s (r.owner % 8) e.task).phase = .active :=
  ⟨ackS1, 9, { pktOf 1 [] with aux := 2 + 5 * 2 ^ 24 }, ⟨2, 1, 47, true, false, pktOf 1 [1], [], none⟩,
      { uid := 5, task := 1, state := .issued, ended := true, sent := 1 }, by decide⟩

theorem wit_ChannelCommandsComplete_5 :
    ∃ (s : State) (peer chan : Nat), ((getChan s (chanKey peer chan)).state = .opened ∨ (getChan s (chanKey peer
        chan)).state = .closing) ∧ (getChan s (chanKey peer chan)).rxUnacked ≠ 0
      ∧ (getChan s (chanKey peer chan)).rxSeq ≠ 0 ∧ (∀ a ∈ allAccums s, a.stream ≠ 2 * chanKey peer chan)
      ∧ (∀ i ∈ s.fences.pendingInc, chanKey i.peer i.chan ≠ chanKey peer chan) :=
  ⟨{ liveC with fabric := { chans := [(chanKey 3 4095, { state := .opened, epoch := 2, rxSeq := 5, rxUnacked := 3 })] } },
      3, 4095, by decide⟩

theorem wit_ChannelCommandsComplete_6 :
    ∃ (s : State) (peer chan : Nat), ((getChan s (chanKey peer chan)).state = .opened ∨ (getChan s (chanKey peer
        chan)).state = .closing) :=
  ⟨ackS, 3, 8, by decide⟩

theorem wit_ChannelCommandsComplete_7 :
    ∃ (s : State) (peer chan n : Nat), (getChan s (chanKey peer chan)).busySeq = some n :=
  ⟨{ ackS with fabric := { ackS.fabric with chans := [(chanKey 3 8, { state := .opened, epoch := 1, port := 9, retained := [⟨2, 1, 47, true, false, pktOf 1 [1], [], none⟩], busySeq := some 2 })] } },
      3, 8, 2, by decide⟩

theorem wit_ChannelCommandsComplete_8 :
    ∃ (s : State) (port dest : Nat), mapGet 0 s.fabric.caps (port * 256 + dest) ≠ 0 :=
  ⟨{ ackS with fabric := { ackS.fabric with caps := [(9 * 256 + 3, 4096)] } }, 9, 3, by decide⟩

theorem wit_ChannelCommandsComplete_9 :
    ∃ (s : State) (window granule : Nat) (w : WindowParams), (getWin s window).params = some w
      ∧ (getWin s window).isOpen = true ∧ (getWin s window).closing = false ∧ w.kind = 0 ∧ w.base / 4096 ≤ granule
      ∧ granule < (w.base + w.bound) / 4096 ∧ granule ∉ (getWin s window).claimed
      ∧ getTag s w.tile granule = tagEmpty ∧ outClaim s w.tile granule = 0 :=
  ⟨pktS slotWin, 7, 0, slotWin, by decide⟩

theorem wit_ChannelCommandsComplete_10 :
    ∃ (s : State) (tile chan : Nat) (a : Accum), s.host.filter = [] ∧ tile < 8 ∧ chan < 64
      ∧ nextAccum s tile chan = some a ∧ mcOf s a.addr = tile * 64 + chan ∧ a.isWindow = false ∧ a.stream % 2 = 0
      ∧ mapGet 0 s.pkg.errors (cwOf s (a.addr / 64 * 64)) = 0 ∧ cached s (cwOf s (a.addr / 64 * 64)) = false :=
  ⟨{ liveC with fabric := { accums := [(0, [⟨8, 0, 0, false, 4, 0, [0x3F800000], true, 0, 0⟩])] } }, 0, 0, ⟨8, 0, 0,
      false, 4, 0, [0x3F800000], true, 0, 0⟩, by decide +kernel⟩

theorem wit_FabricMailboxCommandsComplete_1 :
    ∃ (s : State) (q : Req) (f : Nat) (l : List PlanEntry), MailRuns s q vMb0 (sB + sU + sC + sN) false false
      ∧ planOk f l = true ∧ s.job = none :=
  ⟨live .unclaimed, req .mb0, 254, [⟨9, 143⟩], by decide⟩

theorem wit_FabricMailboxCommandsComplete_2 :
    ∃ (s : State) (q : Req) (ids : List Nat), MailRuns s q vMb0 (sU + sC + sN) false false ∧ (∀ i ∈ ids, i < 256)
      ∧ (∀ m ∈ s.fabric.members, m ∉ ids → jobMember s m = false) :=
  ⟨live .unclaimed, req .mb0, [255, 3], by decide⟩

theorem wit_FabricMailboxCommandsComplete_3 :
    ∃ (s : State) (q : Req) (peer : Nat), MailRuns s q vMb0 sC false false ∧ peer ≤ 254 ∧ peer ≠ ownId s
      ∧ peer ∈ s.fabric.members :=
  ⟨{ liveC with fabric := { members := [254] } }, req .mb0, 254, by decide⟩

theorem wit_FabricMailboxCommandsComplete_4 :
    ∃ (s : State) (q : Req) (peer : Nat), MailRuns s q vMb0 sC false false ∧ peer ≤ 254 ∧ peer ≠ ownId s
      ∧ peer ∉ s.fabric.members :=
  ⟨liveC, req .mb0, 254, by decide⟩

theorem wit_FabricMailboxCommandsComplete_5 :
    ∃ (s : State) (q : Req) (l : List Nat) (m : Nat), MailRuns s q vMb0 sC false false ∧ membersOk l m s = true
      ∧ (∀ p ∈ l, p ≠ ownId s → available s p = true) ∧ s.job = none
      ∧ contextsUsed s + (hubChannels s l m).length ≤ 4096 :=
  ⟨{ liveC with fabric := { members := [3], routes := [(3, 1023)], peers := [(3, { admitted := true, answered := true })] } },
      req .mb0, [3, 255], 3, by decide⟩

theorem wit_FabricMailboxCommandsComplete_6 :
    ∃ (s : State) (q : Req) (j : Job), MailRuns s q vMb0 (sC + sNp) false false ∧ s.job = some j
      ∧ uncommitted s = false ∧ s.stepSet = none :=
  ⟨{ liveC with job := some soloJob }, req .mb0, soloJob, by decide⟩

theorem wit_FabricMailboxCommandsComplete_7 :
    ∃ (s : State) (q : Req) (n p port low high : Nat), MailRuns s q vMb0 sC false false ∧ 8 ≤ n ∧ n ≤ 4095
      ∧ available s p = true ∧ attested s p = true ∧ port ≤ 9 ∧ portUp s port = true ∧ low < 4096 ∧ high < 4096
      ∧ generalKey s n = none ∧ contextsUsed s < 4096 :=
  ⟨{ liveC with fabric := { ports := [(9, { state := .up })], members := [3], routes := [(3, 1023)], peers := [(3, { admitted := true, answered := true })] } },
      req .mb0, 4095, 3, 9, 0, 4095, by decide⟩

theorem wit_FabricMailboxCommandsComplete_8 :
    ∃ (s : State) (q : Req) (n p : Nat), MailRuns s q vMb0 (sC + sNp) false false ∧ 8 ≤ n ∧ n ≤ 4095
      ∧ (getChan s (chanKey p n)).state ≠ .closed ∧ ((getChan s (chanKey p n)).state = .opened →
      (getChan s (chanKey p n)).retained = []) :=
  ⟨pktS (pkgWin 1), req .mb0, 8, 3, by decide⟩

theorem wit_FabricMailboxCommandsComplete_9 :
    ∃ (s : State) (q : Req) (n p : Nat), MailRuns s q vMb0 (sC + sNp) false false ∧ 8 ≤ n ∧ n ≤ 4095
      ∧ (getChan s (chanKey p n)).state = .opened ∧ (getChan s (chanKey p n)).retained ≠ [] :=
  ⟨ackS, req .mb0, 8, 3, by decide⟩

theorem wit_FabricMailboxCommandsComplete_10 :
    ∃ (s : State) (q : Req) (w : WindowParams), MailRuns s q vMb0 sC false false ∧ winParamsOk w s = true
      ∧ (getWin s w.number).isOpen = false ∧ (∀ kv ∈ touchWith w s, kv.2 ≤ 65536) :=
  ⟨liveC, req .mb0, ⟨255, 1, 0, 1024, 4096, 7, [], 0, 0, none, none, 0, 0⟩, by decide⟩

theorem wit_FabricMailboxCommandsComplete_11 :
    ∃ (s : State) (q : Req) (w : Nat) (p : WindowParams), MailRuns s q vMb0 (sC + sNp) false false ∧ w ≤ 255
      ∧ (getWin s w).isOpen = true ∧ (getWin s w).params = some p ∧ winIdle s w = true :=
  ⟨pktS (pkgWin 1), req .mb0, 7, pkgWin 1, by decide⟩

theorem wit_FabricMailboxCommandsComplete_12 :
    ∃ (s : State) (q : Req) (w : Nat), MailRuns s q vMb0 (sC + sNp) false false ∧ w ≤ 255
      ∧ (getWin s w).isOpen = true ∧ winIdle s w = false :=
  ⟨{ liveC with fabric := { windows := [(255, { isOpen := true, inflight := [(2, 2)] })] } }, req .mb0, 255, by
      decide⟩

theorem wit_FabricMailboxCommandsComplete_13 :
    ∃ (s : State) (q : Req) (w : Nat), MailRuns s q vMb0 (sC + sNp) false false ∧ w ≤ 255 :=
  ⟨liveC, req .mb0, 255, by decide⟩

theorem wit_FabricMailboxCommandsComplete_14 :
    ∃ (s : State) (q : Req) (j : Job), MailRuns s q vMb0 sC true false ∧ s.job = some j ∧ bit s.sec.policy 0 = true
      ∧ (∀ p ∈ j.members, p ≠ ownId s → attested s p = true) ∧ (getWin s 255).isOpen = false :=
  ⟨{ liveC with job := some soloJob, sec := { liveC.sec with policy := 1 } }, reqT .mb0, soloJob, by decide⟩

theorem wit_FabricMailboxCommandsComplete_15 :
    ∃ (s : State) (q : Req), MailRuns s q v0M sAll false false :=
  ⟨live .booting, req .mb0, by decide⟩

theorem wit_FabricMailboxCommandsComplete_16 :
    ∃ (s : State) (q : Req) (mask : Nat), MailRuns s q v0M sUCNF false false ∧ mask < 1024 :=
  ⟨{ liveC with fabric := { ports := [(9, { state := .up })] } }, req .mb0, 1023, by decide⟩

theorem wit_FabricMailboxCommandsComplete_17 :
    ∃ (s : State) (q : Req) (mask : Nat), MailRuns s q v0M sUCNF false false ∧ mask < 1024 :=
  ⟨{ liveC with fabric := { ports := [(9, { state := .up })] } }, req .mb0, 1023, by decide⟩

theorem wit_FabricMailboxCommandsComplete_18 :
    ∃ (s : State) (q : Req) (mask : Nat), MailRuns s q v0M sUCNF false false ∧ mask < 1024 :=
  ⟨{ liveC with fabric := { ports := [(9, { disabled := true })] } }, req .mb0, 1023, by decide⟩

theorem wit_EngineMailboxCommandsComplete_1 :
    ∃ (s : State) (q : Req) (c : Nat), MailRuns s q vMb0 sUCNRF false false ∧ 1 ≤ c ∧ c ≤ 8 :=
  ⟨live .failed, req .mb0, 8, by decide⟩

theorem wit_EngineMailboxCommandsComplete_2 :
    ∃ (s : State) (q : Req) (f : StepSetParams) (j : Job) (p : PoolParams), MailRuns s q vMb0 sC false false
      ∧ setOk f s = true ∧ s.job = some j ∧ s.fennel.pool = some p
      ∧ (judgeSteps f f.tasks (mailReady 0x0602 q s)).1.1 = none
      ∧ (judgeLoads f.residency (judgeSteps f f.tasks (mailReady 0x0602 q s)).2).1 = none ∧ s.stepSet = none
      ∧ placesFor f s = true :=
  ⟨{ liveC with job := some soloJob, fennel := { pool := some onePool } }, req .mb0,
      { soloSet with tokenBudget := 32768, seqsPerStep := 4096, abortLimit := 15, barLocal := 512 }, soloJob,
      onePool, by decide⟩

theorem wit_EngineMailboxCommandsComplete_3 :
    ∃ (s : State) (q : Req) (j : Job), MailRuns s q vMb0 (sC + sNp) false false ∧ s.job = some j ∧ s.stepSet ≠ none
      ∧ uncommitted s = false :=
  ⟨{ liveM [] with tiles := [(7, { tasks := [(1, { source := .stepSet, phase := .parked })] })] }, req .mb0, soloJob,
      by decide⟩

theorem wit_EngineMailboxCommandsComplete_4 :
    ∃ (s : State) (q : Req) (j : Job), MailRuns s q vMb0 sC false false ∧ s.job = some j ∧ j.manager = ownId s
      ∧ s.cond.held = true ∧ (∀ b ∈ s.integ.reloading, b.lost = false) :=
  ⟨{ liveM [] with cond := { held := true, aborts := 3 } }, req .mb0, soloJob, by decide⟩

theorem wit_EngineMailboxCommandsComplete_5 :
    ∃ (s : State) (q : Req) (x : EngineSel), MailRuns s q vMb0 (sC + sNp + sR) false false ∧ selOk' x = true
      ∧ s.mgmt.bg.drain = none :=
  ⟨liveC, req .mb0, ⟨255, 2, 15, 0⟩, by decide⟩

theorem wit_EngineMailboxCommandsComplete_6 :
    ∃ (s : State) (q : Req) (x : EngineSel), MailRuns s q vMb0 (sC + sNp + sR) false false ∧ selOk' x = true :=
  ⟨{ liveC with tiles := [(7, { tasks := [(1, { source := .ring 1 0, phase := .active })], queue := [⟨0, .ring 1 1⟩], drains := [⟨255, 0, 0, 0⟩] })] },
      req .mb0, ⟨255, 0, 0, 0⟩, by decide⟩

theorem wit_EngineMailboxCommandsComplete_7 :
    ∃ (s : State) (q : Req), MailRuns s q vMb0 sUCNRF false false :=
  ⟨live .recovering, req .mb0, by decide⟩

theorem wit_EngineMailboxCommandsComplete_8 :
    ∃ (s : State) (q : Req) (i : Nat) (c : List Byte), MailRuns s q vMb0 sC false false ∧ c.length = 64 ∧ i < 64
      ∧ configOk c = true ∧ configNamed s i = false :=
  ⟨liveC, req .mb0, 63, le 12 (6 + 2 ^ 8 * 16 + 2 ^ 16 * 1 + 2 ^ 24 * 7 + 2 ^ 64 * 0x3F800000) ++ le 4 0 ++ le 4
      524288 ++ le 44 0, by decide⟩

theorem wit_EngineMailboxCommandsComplete_9 :
    ∃ (s : State) (q : Req) (slot dpa : Nat) (img : List Byte), MailRuns s q vMb0 sC false false ∧ slot ≤ 15
      ∧ dpa % 64 = 0 ∧ dpa + 832 ≤ memEnd ∧ (pkgRead 1 0 dpa 832 (mailReady 0x0609 q s)).1 = (img, false)
      ∧ tableOk img = true :=
  ⟨liveC, req .mb0, 15, 2 ^ 39 - 832, List.replicate 832 0, by decide +kernel⟩

theorem wit_EngineMailboxCommandsComplete_10 :
    ∃ (s : State) (q : Req) (i : Nat), MailRuns s q vMb0 sC false false ∧ i ≤ 15
      ∧ (mapGet {} s.cfg.tables (tableKey 0 0 i)).loaded = true :=
  ⟨{ liveC with cfg := { tables := [(15, { active := List.replicate 832 1, loaded := true })] } }, req .mb0, 15, by
      decide⟩

theorem wit_EngineMailboxCommandsComplete_11 :
    ∃ (s : State) (q : Req) (i : Nat), MailRuns s q vMb0 sC false false ∧ i ≤ 15
      ∧ (mapGet {} s.cfg.tables (tableKey 0 0 i)).loaded = false :=
  ⟨liveC, req .mb0, 0, by decide⟩

theorem wit_EngineMailboxCommandsComplete_12 :
    ∃ (s : State) (q : Req), MailRuns s q vMb0 sC false false :=
  ⟨liveC, req .mb0, by decide⟩

theorem wit_EngineMailboxCommandsComplete_13 :
    ∃ (s : State) (q : Req), MailRuns s q vMb0 sC false false :=
  ⟨liveC, req .mb0, by decide⟩

theorem wit_EngineMailboxCommandsComplete_14 :
    ∃ (s : State) (q : Req) (c : Nat), MailRuns s q vMb0 (sC + sNp) false false ∧ c < 4096
      ∧ isStepCounter s c = false :=
  ⟨liveC, req .mb0, 4095, by decide⟩

theorem wit_EngineMailboxCommandsComplete_15 :
    ∃ (s : State) (q : Req) (a n : Nat), MailRuns s q vMb0 (sC + sNp + sR) false false ∧ 1 ≤ n ∧ n ≤ 512
      ∧ a + n ≤ 4096 :=
  ⟨liveC, req .mb0, 3584, 512, by decide⟩

theorem wit_EngineMailboxCommandsComplete_16 :
    ∃ (s : State) (q : Req) (b : BarrierParams), MailRuns s q vMb0 sC false false ∧ barrierOk b = true
      ∧ (b.barrier = 0 → s.stepSet = none) :=
  ⟨liveC, req .mb0, ⟨63, 254, 144, 512, 4095, 8⟩, by decide⟩

theorem wit_StepCommandsComplete_1 :
    ∃ (s : State) (p : StepSetParams) (pool : PoolParams) (l : List SeqPlace), mayForm (learnMembers s) = true
      ∧ limitsOf s = some p ∧ s.fennel.pool = some pool ∧ stages p (admitSeqs (learnMembers s)) = l ∧ l ≠ []
      ∧ (∀ x ∈ l, x.chunk = 0) ∧ ringsHaveRoom (admitSeqs (learnMembers s)) (placeRecs pool 0 l) = true :=
  ⟨liveM [], soloSet, onePool, [⟨7, { state := .decode, admitted := true, limit := 32, committed := 3 }, 0, 0⟩], ⟨by
      decide, rfl, rfl, rfl, by simp, by simp, by decide⟩⟩

theorem wit_StepCommandsComplete_2 :
    ∃ (s : State) (p : StepSetParams) (pool : PoolParams) (l : List SeqPlace), mayForm (learnMembers s) = true
      ∧ limitsOf s = some p ∧ s.fennel.pool = some pool ∧ stages p (admitSeqs (learnMembers s)) = l
      ∧ (∃ x ∈ l, x.chunk ≠ 0) ∧ ringsHaveRoom (admitSeqs (learnMembers s)) (placeRecs pool 0 l) = true :=
  ⟨{ liveM [] with cond := { memberLimits := [(255, 4)], seqs := [(7, { state := .prefill, admitted := true, limit := 32, remaining := 3 })] } },
      soloSet, onePool, [⟨7, { state := .prefill, admitted := true, limit := 32, remaining := 3 }, 0, 3⟩], ⟨by
      decide, rfl, rfl, rfl, ⟨_, List.mem_singleton_self _, by decide⟩, by decide⟩⟩

theorem wit_StepCommandsComplete_3 :
    ∃ (s : State) (m : Nat) (h : StepHeader), s.host.filter = [] ∧ fromManager s m = true ∧ s.stepSet ≠ none
      ∧ (m = ownId s ∨ (getChan s (chanKey m 0)).state = .opened ∨ (getChan s (chanKey m 0)).state = .closing)
      ∧ headerOk s h = true :=
  ⟨liveM [], 255, soloHdr, by decide⟩

theorem wit_StepCommandsComplete_4 :
    ∃ (s : State) (m : Nat) (h : StepHeader), s.host.filter = [] ∧ fromManager s m = true ∧ s.stepSet ≠ none
      ∧ (m = ownId s ∨ (getChan s (chanKey m 0)).state = .opened ∨ (getChan s (chanKey m 0)).state = .closing)
      ∧ headerOk s h = false :=
  ⟨liveM [], 255, { soloHdr with rsvZero := false }, by decide⟩

theorem wit_StepCommandsComplete_5 :
    ∃ (s : State) (m : Nat) (l : List Nat) (h : StepHeader), s.host.filter = [] ∧ fromManager s m = true
      ∧ s.stepSet ≠ none
      ∧ (m = ownId s ∨ (getChan s (chanKey m 0)).state = .opened ∨ (getChan s (chanKey m 0)).state = .closing)
      ∧ s.cond.hdrSeen = some h ∧ l.length = h.tokenCount :=
  ⟨{ liveM [] with cond := { hdrSeen := some soloHdr } }, 255, [9], soloHdr, by decide⟩

theorem wit_StepCommandsComplete_6 :
    ∃ (s : State) (m : Nat), s.host.filter = [] ∧ fromManager s m = true ∧ s.stepSet ≠ none
      ∧ (m = ownId s ∨ (getChan s (chanKey m 0)).state = .opened ∨ (getChan s (chanKey m 0)).state = .closing) :=
  ⟨liveM [], 255, by decide⟩

theorem wit_StepCommandsComplete_7 :
    ∃ (s : State) (m n : Nat) (r : RetStep), isManager s = true ∧ jobMember s m = true
      ∧ (m = ownId s ∨ (getChan s (chanKey m 1)).state = .opened ∨ (getChan s (chanKey m 1)).state = .closing)
      ∧ s.cond.current = some r ∧ r.step = n ∧ s.cond.abort = none :=
  ⟨runS, 255, 0, soloRun, by decide⟩

theorem wit_StepCommandsComplete_8 :
    ∃ (s : State) (m n : Nat) (r : RetStep) (j : Job), s.job = some j ∧ isManager s = true ∧ jobMember s m = true
      ∧ (m = ownId s ∨ (getChan s (chanKey m 1)).state = .opened ∨ (getChan s (chanKey m 1)).state = .closing)
      ∧ s.stepSet ≠ none ∧ s.cond.current = some r ∧ r.step = n ∧ s.cond.nextStep ≤ n ∧ s.cond.abort = none :=
  ⟨runS, 255, 0, soloRun, soloJob, by decide⟩

theorem wit_StepCommandsComplete_9 :
    ∃ (s : State) (m n : Nat), isManager s = true ∧ jobMember s m = true
      ∧ (m = ownId s ∨ (getChan s (chanKey m 1)).state = .opened ∨ (getChan s (chanKey m 1)).state = .closing)
      ∧ n < s.cond.nextStep :=
  ⟨{ runS with cond := { nextStep := 1 } }, 255, 0, by decide⟩

theorem wit_StepCommandsComplete_10 :
    ∃ (s : State) (n : Nat) (j : Job), s.job = some j
      ∧ (j.manager = ownId s ∨ (getChan s (chanKey j.manager 0)).state = .opened ∨ (getChan s (chanKey j.manager
        0)).state = .closing) ∧ n = s.cond.committed ∧ s.cond.abortedStep ≠ some n ∧ s.cond.abortingStep = none :=
  ⟨{ runS with tiles := [(7, { tasks := [(1, { source := .stepSet, phase := .active })] })] }, 0, soloJob, by decide⟩

theorem wit_StepCommandsComplete_11 :
    ∃ (s : State) (n code : Nat) (j : Job) (f : StepSetParams), s.host.filter = [] ∧ s.job = some j
      ∧ limitsOf s = some f ∧ s.cond.abortingStep = some (n, code) ∧ stepPackets s = false :=
  ⟨{ runS with cond := { runS.cond with abortingStep := some (0, 2), bound := some soloHdr }, fences := { counters := [(0, 9)], bases := [(0, 5)] } },
      0, 2, soloJob, soloSet, by decide⟩

theorem wit_StepCommandsComplete_12 :
    ∃ (s : State) (m n : Nat) (x : AbortState), isManager s = true ∧ jobMember s m = true
      ∧ (m = ownId s ∨ (getChan s (chanKey m 1)).state = .opened ∨ (getChan s (chanKey m 1)).state = .closing)
      ∧ s.cond.abort = some x ∧ x.step = n :=
  ⟨{ runS with cond := { runS.cond with abort := some ⟨0, 2, [255]⟩ } }, 255, 0, ⟨0, 2, [255]⟩, by decide⟩

theorem wit_StepCommandsComplete_13 :
    ∃ (s : State) (x : AbortState) (r : RetStep), s.cond.abort = some x ∧ s.cond.current = some r
      ∧ mayRerun s x = true :=
  ⟨{ runS with cond := { runS.cond with abort := some ⟨0, 2, []⟩ } }, ⟨0, 2, []⟩, soloRun, by decide⟩

theorem wit_StepCommandsComplete_14 :
    ∃ (s : State) (r : RetStep), s.host.filter = [] ∧ isManager s = true ∧ s.cond.current = some r
      ∧ s.cond.abort = none ∧ stepComplete s = true :=
  ⟨{ runS with fences := { barriers := [(0, { configured := true, root := 255, members := 1, localCount := 1, rootNow := [255] })] } },
      soloRun, by decide⟩

theorem wit_StepCommandsComplete_15 :
    ∃ (s : State) (n : Nat) (j : Job), s.host.filter = [] ∧ s.job = some j
      ∧ (j.manager = ownId s ∨ (getChan s (chanKey j.manager 0)).state = .opened ∨ (getChan s (chanKey j.manager
        0)).state = .closing) ∧ s.cond.committed ≤ n :=
  ⟨runS, 0, soloJob, by decide⟩

theorem wit_StepCommandsComplete_16 :
    ∃ (s : State) (n : Nat), s.host.filter = [] ∧ s.job ≠ none ∧ n < s.cond.committed :=
  ⟨{ runS with cond := { runS.cond with committed := 1 } }, 0, by decide⟩

theorem wit_StepCommandsComplete_17 :
    ∃ (s : State) (tile : Nat) (p : PoolParams) (a b c e : Nat) (ws : List FoldWork), s.host.filter = []
      ∧ s.fennel.pool = some p ∧ (getEngine s tile 6 0).busy = false ∧ workOf s tile = .entry a b c e :: ws
      ∧ ptAddr p a b c % 64 ≤ 60 :=
  ⟨{ liveM [] with fennel := { pool := some onePool, work := [(7, [.entry 7 0 0 (2 ^ 33)])] }, pkg := { bytes := memWrite [] (64 * cwOf (liveM []) (2 ^ 33)) (overlayEntry 7 0 0 (2 ^ 31 + 5) 0 0) } },
      7, onePool, 7, 0, 0, 2 ^ 33, [], by decide⟩

theorem wit_StepCommandsComplete_18 :
    ∃ (s : State) (tile g : Nat) (p : PoolParams) (gs : List Nat), s.host.filter = [] ∧ s.fennel.pool = some p
      ∧ (getEngine s tile 6 0).busy = false ∧ workOf s tile = [] ∧ deadOf s tile = g :: gs
      ∧ (fnWord (pdAddr p g + 8) 8 (clearTouch s)).1.1 < s.fennel.committed :=
  ⟨{ liveM [] with fennel := { pool := some onePool, dead := [(7, [5])], committed := 1 } }, 7, 5, onePool, [], by
      decide⟩

theorem wit_TaskCommandsComplete_1 :
    ∃ (s u : State) (tile : Nat) (w : Waiting) (d : DescWord) (ops : List OpWord) (compat : Bool), s.host.filter = []
      ∧ (getTile s tile).tasks.length < 64 ∧ nextAdmit (clearTouch s) tile = (some w, u)
      ∧ (admission tile w.addr none (modTile u tile (fun x => { x with queue := x.queue.erase w }))).1 = (d,
        .accepted ops compat) :=
  ⟨admitS 1, clearTouch (admitS 1), 7, ⟨0, .ring 1 0⟩, admitD, [2], false, ⟨by decide, by decide, by decide +kernel,
      by decide +kernel⟩⟩

theorem wit_TaskCommandsComplete_2 :
    ∃ (s u : State) (tile code ix : Nat) (w : Waiting) (d : DescWord), s.host.filter = []
      ∧ (getTile s tile).tasks.length < 64 ∧ nextAdmit (clearTouch s) tile = (some w, u)
      ∧ (admission tile w.addr none (modTile u tile (fun x => { x with queue := x.queue.erase w }))).1 = (d, .refuse
        code ix) :=
  ⟨admitS 2, clearTouch (admitS 2), 7, 3, 0xFFFFFFFF, ⟨0, .ring 1 0⟩, admitD, ⟨by decide, by decide, by
      decide +kernel, by decide +kernel⟩⟩

theorem wit_TaskCommandsComplete_3 :
    ∃ (s : State) (tile k : Nat), isResident s tile k = true ∧ (getTask s tile k).phase = .waiting
      ∧ allWaitsMet s (getTask s tile k) = true ∧ ((getTask s tile k).source = .stepSet → s.cond.bound ≠ none) :=
  ⟨{ liveC with tiles := [(7, { tasks := [(63, { addr := 64 })] })] }, 7, 63, by decide +kernel⟩

theorem wit_TaskCommandsComplete_4 :
    ∃ (s u : State) (tile k : Nat) (x : Task), s.host.filter = [] ∧ (getTile s tile).window.length < 256
      ∧ (fillTask s tile).map (·.1) = some k ∧ readBlock tile k (clearTouch s) = u ∧ getTask u tile k = x
      ∧ (rereadOp tile x x.pos u).2.1 = 0 ∧ ¬ (opClass (rereadOp tile x x.pos u).1 = 8
      ∧ opCode (rereadOp tile x x.pos u).1 = 0x20)
      ∧ (fillTask (fillOp tile k (clearTouch s)) tile = none ∨ (getTile s tile).window.length = 255) :=
  ⟨{ liveC with tiles := [(7, { tasks := [(1, { phase := .active, ops := [2, 2], pos := 1, compat := true })] })] },
      { liveC with tiles := [(7, { tasks := [(1, { phase := .active, ops := [2, 2], pos := 1, compat := true })] })] },
      7, 1, { phase := .active, ops := [2, 2], pos := 1, compat := true }, ⟨by decide, by decide, by decide +kernel,
      rfl, rfl, by decide, by decide, by decide +kernel⟩⟩

theorem wit_TaskCommandsComplete_5 :
    ∃ (s : State) (tile cls i : Nat) (e : Entry), s.host.filter = [] ∧ poisonedOp s tile cls = none ∧ (cls = 5 →
      recordPoisoned s tile = none ∧ recordOp s tile = none) ∧ pickOp s tile cls = some e ∧ opChanFault s tile e = 0
      ∧ freeInst s tile cls = some i :=
  ⟨issueS 0x41, 7, 3, 0, addE, ⟨by decide, by decide +kernel, by decide, by decide +kernel, by decide +kernel, by
      decide +kernel⟩⟩

theorem wit_TaskCommandsComplete_6 :
    ∃ (s : State) (tile cls : Nat) (e : Entry), s.host.filter = [] ∧ poisonedOp s tile cls = some e
      ∧ (getTask s tile e.task).phase = .active :=
  ⟨issueS 0x81, 7, 3, addE, ⟨by decide, by decide +kernel, by decide⟩⟩

theorem wit_TaskCommandsComplete_7 :
    ∃ (s : State) (tile uid : Nat) (e : Entry), findEntry s tile uid = some e ∧ e.state = .unissued
      ∧ (e.ready = true ∨ opReady s tile e = true) :=
  ⟨ctlS { addE with ready := true }, 7, 5, { addE with ready := true }, by decide⟩

theorem wit_TaskCommandsComplete_9 :
    ∃ (s : State) (tile cls inst : Nat), engineHasOp s tile cls inst = false :=
  ⟨{ liveC with tiles := [(7, { engines := [(64 + 11, { running := true })] })] }, 7, 1, 11, by decide⟩

theorem wit_TaskCommandsComplete_10 :
    ∃ (s : State) (tile : Nat), (getTile s tile).tasks = [] :=
  ⟨{ liveC with tiles := [(7, { pll := true, engines := [(75, { running := true })] })] }, 7, by decide⟩

theorem wit_ControlOpsComplete_1 :
    ∃ (s : State) (tile uid : Nat) (e : Entry), CtlStands s tile uid e 0 0 :=
  ⟨ctlS { ctlE 0 0 with op := 2 }, 7, 5, { ctlE 0 0 with op := 2 }, by decide⟩

theorem wit_ControlOpsComplete_2 :
    ∃ (s : State) (tile uid : Nat) (e : Entry), CtlStands s tile uid e 8 1 :=
  ⟨ctlS (ctlE 1 (2 ^ 32 * 9)), 7, 5, ctlE 1 (2 ^ 32 * 9), by decide⟩

theorem wit_ControlOpsComplete_3 :
    ∃ (s : State) (tile uid : Nat) (e : Entry), CtlStands s tile uid e 8 1 ∧ e.state = .issued
      ∧ opWaitMet s e = true :=
  ⟨ctlS { ctlE 1 0 with state := .issued }, 7, 5, { ctlE 1 0 with state := .issued }, by decide⟩

theorem wit_ControlOpsComplete_4 :
    ∃ (s : State) (tile uid : Nat) (e : Entry), CtlStands s tile uid e 8 2 ∧ earlierDone s tile e = true :=
  ⟨ctlS (ctlE 2 (4095 + 2 ^ 32 * 9)), 7, 5, ctlE 2 (4095 + 2 ^ 32 * 9), by decide⟩

theorem wit_ControlOpsComplete_5 :
    ∃ (s : State) (tile uid k : Nat) (e : Entry), findEntry s tile uid = some e ∧ opClass e.op = 8 ∧ opCode e.op = 3
      ∧ e.state = .unissued ∧ tileHeld s tile = false ∧ earlierDone s tile e = true
      ∧ generalKey s (oF e.op 22 2 % 4096) = some k ∧ (getChan s k).state = .opened :=
  ⟨{ ctlS (ctlE 3 (9 + 2 ^ 16 * 8 + 2 ^ 32 * 7)) with fabric := (pktS (pkgWin 1)).fabric }, 7, 5, chanKey 3 8, ctlE 3
      (9 + 2 ^ 16 * 8 + 2 ^ 32 * 7), by decide⟩

theorem wit_ControlOpsComplete_6 :
    ∃ (s : State) (tile uid : Nat) (e : Entry), CtlStands s tile uid e 8 4 ∧ arriveReady s (oF e.op 20 1) = true
      ∧ (oF e.op 20 1 ≠ 0 ∨ s.cond.current = none) :=
  ⟨{ ctlS (ctlE 4 63) with fences := { barriers := [(63, { configured := true, root := 255, members := 1, localCount := 1 })] } },
      7, 5, ctlE 4 63, by decide⟩

theorem wit_ControlOpsComplete_7 :
    ∃ (s : State) (tile uid : Nat) (e : Entry), CtlStands s tile uid e 8 5
      ∧ (getBarrier s (oF e.op 20 1)).configured = true ∧ arrivalOpen s tile e = false :=
  ⟨{ ctlS (ctlE 5 63) with fences := { barriers := [(63, { configured := true, root := 255, members := 1, localCount := 1, done := 1, fails := [(0, 5)] })] } },
      7, 5, ctlE 5 63, by decide⟩

theorem wit_ControlOpsComplete_8 :
    ∃ (s : State) (tile uid : Nat) (e : Entry), CtlStands s tile uid e 8 0x10 :=
  ⟨ctlS (ctlE 0x10 0), 7, 5, ctlE 0x10 0, by decide⟩

theorem wit_ControlOpsComplete_9 :
    ∃ (s : State) (tile uid : Nat) (e : Entry) (l : Loop) (ls : List Loop), CtlStands s tile uid e 8 0x11
      ∧ (getTask s tile e.task).loops = l :: ls :=
  ⟨{ ctlS (ctlE 0x11 0) with tiles := [(7, { tasks := [(1, { phase := .active, ops := [2, 2], pos := 2, loops := [⟨1, 0, 0, 0, 0, [{}, {}]⟩] })], window := [ctlE 0x11 0] })] },
      7, 5, ctlE 0x11 0, ⟨1, 0, 0, 0, 0, [{}, {}]⟩, [], by decide⟩

theorem wit_EngineOpsComplete_1 :
    ∃ (s : State) (tile uid cls code : Nat) (e : Entry) (c : Instr), (c, cls, code) ∈ [(.cmMm tile uid false, 1, 1),
        (.sfAttnFwd tile uid false, 2, 1), (.sfAttnBwd tile uid false, 2, 2), (.sfMerge tile uid false, 2, 3),
        (.sfRope tile uid false, 2, 4), (.anSample tile uid false, 4, 1), (.anVerify tile uid false, 4, 2)]
      ∧ running s tile uid cls code = some e ∧ (engineWork cls code tile e s).2.1 = false
      ∧ inputBad (engineWork cls code tile e s).2.2 tile e = false :=
  ⟨engS (engE 1 1 (1 + 2 ^ 16 + 2 ^ 32 * 16)), 7, 5, 1, 1, engE 1 1 (1 + 2 ^ 16 + 2 ^ 32 * 16), .cmMm 7 5 false, by
      decide +kernel⟩

theorem wit_EngineOpsComplete_2 :
    ∃ (s : State) (tile uid code : Nat) (e : Entry) (c : Instr), (c, code) ∈ [(.smAdd tile uid false, 1), (.smMul
        tile uid false, 2), (.smMax tile uid false, 3), (.smMin tile uid false, 4), (.smCmp tile uid false, 5),
        (.smSelect tile uid false, 6), (.smConvert tile uid false, 7), (.smFunc tile uid false, 8), (.smGate tile uid
        false, 9), (.smRowsum tile uid false, 10), (.smRowmax tile uid false, 11), (.smRowdot tile uid false, 12),
        (.smRmsnorm tile uid false, 13), (.smLayernorm tile uid false, 14), (.smSoftmax tile uid false, 15)]
      ∧ running s tile uid 3 code = some e ∧ (engineWork 3 code tile e s).2.1 = false
      ∧ inputBad (engineWork 3 code tile e s).2.2 tile e = false :=
  ⟨engS (engE 3 1 (1 + 2 ^ 16 * 16)), 7, 5, 1, engE 3 1 (1 + 2 ^ 16 * 16), .smAdd 7 5 false, by decide +kernel⟩

theorem wit_EngineOpsComplete_3 :
    ∃ (s : State) (tile uid cls code : Nat) (e : Entry) (c : Instr), (c, cls, code) ∈ [(.cmMm tile uid false, 1, 1),
        (.sfAttnFwd tile uid false, 2, 1), (.sfAttnBwd tile uid false, 2, 2), (.sfMerge tile uid false, 2, 3),
        (.sfRope tile uid false, 2, 4), (.smAdd tile uid false, 3, 1), (.smMul tile uid false, 3, 2), (.smMax tile
        uid false, 3, 3), (.smMin tile uid false, 3, 4), (.smCmp tile uid false, 3, 5), (.smSelect tile uid false, 3,
        6), (.smConvert tile uid false, 3, 7), (.smFunc tile uid false, 3, 8), (.smGate tile uid false, 3, 9),
        (.smRowsum tile uid false, 3, 10), (.smRowmax tile uid false, 3, 11), (.smRowdot tile uid false, 3, 12),
        (.smRmsnorm tile uid false, 3, 13), (.smLayernorm tile uid false, 3, 14), (.smSoftmax tile uid false, 3, 15),
        (.anSample tile uid false, 4, 1), (.anVerify tile uid false, 4, 2)] ∧ running s tile uid cls code = some e
      ∧ ((engineWork cls code tile e s).2.1 = true ∨ inputBad (engineWork cls code tile e s).2.2 tile e = true) :=
  ⟨{ engS (engE 3 1 (1 + 2 ^ 16 * 16)) with slots := [(7, { errors := [(1, 3)] })] }, 7, 5, 3, 1, engE 3 1 (1 + 2 ^
      16 * 16), .smAdd 7 5 false, by decide +kernel⟩

theorem wit_TransferOpsComplete_1 :
    ∃ (s : State) (tile uid code : Nat) (e : Entry) (c : Instr), (c, code) ∈ [(.clCopy tile uid false, 1), (.clGather
        tile uid false, 2), (.clScatter tile uid false, 3), (.clTranspose tile uid false, 4), (.clFill tile uid
        false, 5)] ∧ s.host.filter = [] ∧ running s tile uid 5 code = some e ∧ e.fault = 0
      ∧ clDataReady s tile e = true ∧ placeKey (clDstPlace s tile e) = none
      ∧ (clLocal tile e (clearTouch s)).1 = false ∧ inputBad (clLocal tile e (clearTouch s)).2 tile e = false :=
  ⟨engS (engE 5 1 (2 ^ 16 + 2 ^ 32 * 16)), 7, 5, 1, engE 5 1 (2 ^ 16 + 2 ^ 32 * 16), .clCopy 7 5 false, by
      decide +kernel⟩

theorem wit_TransferOpsComplete_2 :
    ∃ (s : State) (tile uid code k : Nat) (e : Entry) (c : Instr), (c, code) ∈ [(.clCopy tile uid false, 1),
        (.clGather tile uid false, 2), (.clScatter tile uid false, 3), (.clTranspose tile uid false, 4), (.clFill
        tile uid false, 5)] ∧ s.host.filter = [] ∧ running s tile uid 5 code = some e ∧ e.fault = 0
      ∧ clDataReady s tile e = true ∧ placeKey (clDstPlace s tile e) = some k
      ∧ (clRead tile e (clearTouch s)).1.any anyBad = false
      ∧ 0 < e.sent + (farPackets (clDstPlace s tile e) (clOuts tile e (clearTouch s))).length :=
  ⟨farS farE, 7, 5, 1, chanKey 3 8, farE, .clCopy 7 5 false, by decide +kernel⟩

theorem wit_TransferOpsComplete_3 :
    ∃ (s : State) (tile uid : Nat) (e : Entry) (p : PoolParams), s.host.filter = [] ∧ running s tile uid 5 6 = some e
      ∧ reqsPending s tile uid = false ∧ s.fennel.pool = some p ∧ kvFits p (entryOp s e) = true
      ∧ (kvPeek s p (kvListTile tile (entryOp s e)) (kvList (entryOp s e))).2 = false
      ∧ kvNeed (entryOp s e) 0 (kvPeek s p (kvListTile tile (entryOp s e)) (kvList (entryOp s e))).1 ≤ 64 * kvPstride
        (entryOp s e)
      ∧ (kvGather tile e p (kvPeek s p (kvListTile tile (entryOp s e)) (kvList (entryOp s e))).1 (clearTouch s)).2.1
        = false
      ∧ inputBad (kvGather tile e p (kvPeek s p (kvListTile tile (entryOp s e)) (kvList (entryOp s e))).1 (clearTouch
        s)).2.2 tile e = false :=
  ⟨kvS 6, 7, 5, kvE 6, onePool, by decide +kernel⟩

theorem wit_TransferOpsComplete_4 :
    ∃ (s : State) (tile uid : Nat) (e : Entry) (p : PoolParams), s.host.filter = [] ∧ running s tile uid 5 7 = some e
      ∧ reqsPending s tile uid = false ∧ s.fennel.pool = some p ∧ kvFits p (entryOp s e) = true
      ∧ (kvPeek s p (kvListTile tile (entryOp s e)) (kvList (entryOp s e))).2 = false
      ∧ kvNeed (entryOp s e) 1 (kvPeek s p (kvListTile tile (entryOp s e)) (kvList (entryOp s e))).1 ≤ 64 * kvPstride
        (entryOp s e)
      ∧ (kvAppend tile e p (kvPeek s p (kvListTile tile (entryOp s e)) (kvList (entryOp s e))).1 (clearTouch s)).2.1
        = false
      ∧ inputBad (kvAppend tile e p (kvPeek s p (kvListTile tile (entryOp s e)) (kvList (entryOp s e))).1 (clearTouch
        s)).2.2 tile e = false :=
  ⟨kvS 7, 7, 5, kvE 7, onePool, by decide +kernel⟩

theorem wit_TransferOpsComplete_5 :
    ∃ (s : State) (tile uid code : Nat) (e : Entry) (c : Instr) (p : PoolParams), (c, code) ∈ [(.fnAppend tile uid
        false, 1), (.fnGather tile uid false, 2)] ∧ s.host.filter = [] ∧ running s tile uid 6 code = some e
      ∧ s.fennel.pool = some p ∧ fnLayersFit p tile (entryOp s e) = true ∧ fnBeyond s tile e p = false
      ∧ (fnBlocks code tile e p (clearTouch s)).noPage = false ∧ (fnStamped code tile e p (clearTouch s)).bad = false
      ∧ inputBad (fnListed code tile e p (clearTouch s)) tile e = false :=
  ⟨fnS, 0, 5, 1, fnE, .fnAppend 0 5 false, onePool, by decide +kernel⟩

theorem wit_AccumulateOpsComplete_1 :
    ∃ (s : State) (tile uid key w first : Nat) (e : Entry), tile < 8 ∧ running s tile uid 7 1 = some e
      ∧ maTarget s tile e (entryOp s e) = some (.peer key w first) ∧ (maSend tile e key w first s).1 = 0 :=
  ⟨farS (accE 1 8 3), 7, 5, chanKey 3 8, 3, 0, accE 1 8 3, by decide +kernel⟩

theorem wit_AccumulateOpsComplete_2 :
    ∃ (s : State) (tile uid w first : Nat) (e : Entry), tile < 8 ∧ 0 < uid ∧ e.fault = 0
      ∧ running s tile uid 7 1 = some e ∧ maTarget s tile e (entryOp s e) = some (.window w first)
      ∧ maWaits s tile e w = false ∧ (maFold tile e w first s).1 = 0 :=
  ⟨farS (accE 0 0 7), 7, 5, 7, 0, accE 0 0 7, by decide +kernel⟩

theorem wit_AccumulateOpsComplete_3 :
    ∃ (s : State) (tile uid dpa : Nat) (e : Entry), tile < 8 ∧ 0 < uid ∧ e.fault = 0
      ∧ running s tile uid 7 1 = some e ∧ maTarget s tile e (entryOp s e) = some (.memory dpa)
      ∧ (maStore tile e dpa s).1 = 0 :=
  ⟨farS (accE 2 0 0), 7, 5, 0, accE 2 0 0, by decide +kernel⟩

theorem wit_HealthNeverReturns_w1 :
    ∃ (s t : State), step s = .next t :=
  ⟨{ live .claimed with pending := [.inputExcursion 60] }, stepped
      { live .claimed with pending := [.inputExcursion 60] }, rfl⟩

theorem wit_RetainedNumbersNeverFall_w1 :
    ∃ (s t : State), step s = .next t :=
  ⟨{ live .claimed with pending := [.inputExcursion 60] }, stepped
      { live .claimed with pending := [.inputExcursion 60] }, rfl⟩

theorem wit_ErrorCountsNeverFall_w1 :
    ∃ (s t : State) (c : Instr), CountsFit s ∧ exec c s = .next t ∧ (∀ us, c ≠ .inputExcursion us) :=
  ⟨{ liveC with es := { ue := 0xFFFFFFFF } }, after (.noOp 7 5) { liveC with es := { ue := 0xFFFFFFFF } }, .noOp 7 5,
      ⟨by decide, rfl, by simp⟩⟩

theorem wit_ErrorBitsStay_w1 :
    ∃ (s t : State) (c : Instr), s.pending.head? = some c ∧ (∀ us, c ≠ .inputExcursion us) ∧ (∀ b, c ≠ .esBitsW1c b)
      ∧ (∀ o n v, o ∈ [0x7000, 0x7004] → c ≠ .registerWrite false o n v) ∧ step s = .next t :=
  ⟨{ ctlS (ctlE 0 0) with pending := [.noOp 7 5] }, stepped { ctlS (ctlE 0 0) with pending := [.noOp 7 5] }, .noOp 7
      5, ⟨rfl, by simp, by simp, by simp, rfl⟩⟩

theorem wit_FenceIncrementsAdd_w1 :
    ∃ (l k : List Nat), l.Perm k :=
  ⟨[2 ^ 64 - 1, 1], [1, 2 ^ 64 - 1], by decide⟩

theorem wit_TileLocalPlacement_w1 :
    ∃ (s : State) (dpa : Nat), dpa < 2 ^ 39 ∧ (regionOf s (dpa / 2 ^ 30)).wide = false
      ∧ (regionOf s (dpa / 2 ^ 30)).tile < 8 ∧ (regionOf s (dpa / 2 ^ 30)).slice < 512 :=
  ⟨State.reset, 2 ^ 39 - 1, by decide⟩

theorem wit_DefaultPlacement_w1 :
    ∃ (s : State) (a b : Nat), s.pkg.regions = [] ∧ a < 2 ^ 39 ∧ b < 2 ^ 39 ∧ a / 64 ≠ b / 64 :=
  ⟨State.reset, 0, 2 ^ 39 - 1, by decide⟩

theorem wit_DefaultPlacement_w2 :
    ∃ (s : State) (i : Nat), s.pkg.regions = [] ∧ i < 512 :=
  ⟨State.reset, 511, by decide⟩

theorem wit_BankOfLine_w1 :
    ∃ (i : Nat), i < 8 :=
  ⟨7, by decide⟩

theorem wit_NanScaleReadsNan_w1 :
    ∃ (blk i : Nat) (scs cs : List Nat), i < cs.length ∧ scs.getD (i / blk) 0 = 0xFF :=
  ⟨16, 31, [0, 0xFF], List.replicate 32 1, by decide⟩

theorem wit_ZeroExponentsReadZero_w1 :
    ∃ (fmt e m c : Nat), (fmt, e, m) ∈ [(0, 8, 23), (1, 8, 7), (2, 5, 10), (3, 4, 3), (4, 5, 2)]
      ∧ c < 2 ^ (1 + e + m) ∧ c / 2 ^ m % 2 ^ e = 0 :=
  ⟨3, 4, 3, 0x87, by decide⟩

theorem wit_ZeroExponentsReadZero_w2 :
    ∃ (c : Nat), c < 2 ^ 32 ∧ c / 2 ^ 23 % 2 ^ 8 = 0 :=
  ⟨0x80000001, by decide⟩

theorem wit_ConversionKeepsExactValues_w1 :
    ∃ (fmt c : Nat), fmt < 10 ∧ c < 2 ^ fmtBits fmt ∧ isZero (decodeElem fmt c) = false
      ∧ isNan (decodeElem fmt c) = false :=
  ⟨5, 63, by decide⟩

theorem wit_PackingRoundTrips_w1 :
    ∃ (w : Nat) (cs : List Nat), w ∈ [4, 6, 8, 16, 32] ∧ cs.length % groupLen w = 0 ∧ (∀ c ∈ cs, c < 2 ^ w) :=
  ⟨6, [63, 0, 1, 32], by decide⟩

theorem wit_IntegerProductsSaturateOnce_w1 :
    ∃ (xs ys : List FVal), xs.Perm ys :=
  ⟨[.nan, .fin true 3 0], [.fin true 3 0, .nan], by decide⟩

theorem wit_SlotWritesTouchOnlyTheirBytes_w1 :
    ∃ (s : State) (p : SlotAt) (k a : Nat), SlotsClean s ∧ (k ≠ p.tile ∨ a < p.byte ∨ p.byte + 5 ≤ a) :=
  ⟨{ ({} : State) with slots := [(7, { bytes := [(3, 1)] })] }, ⟨7, 33⟩, 7, 32, by decide⟩

theorem wit_EngineOpsFrame_w1 :
    ∃ (s t : State) (tile uid cls code : Nat) (e : Entry) (c : Instr), (c, cls, code) ∈ [(.smAdd tile uid false, 3,
        1), (.smMul tile uid false, 3, 2)] ∧ running s tile uid cls code = some e
      ∧ (getTask s tile e.task).phase = .active ∧ inputBad s tile e = false ∧ SlotsClean s ∧ exec c s = .next t :=
  ⟨engS (engE 3 1 (1 + 2 ^ 16 * 16)), after (.smAdd 7 5 false) (engS (engE 3 1 (1 + 2 ^ 16 * 16))), 7, 5, 3, 1, engE
      3 1 (1 + 2 ^ 16 * 16), .smAdd 7 5 false, ⟨by decide, by decide, by decide, by decide +kernel, by decide, rfl⟩⟩

theorem wit_SlotMemoryFrame_w1 :
    ∃ (c : Instr) (s t : State), mayWriteSlotBytes c = false ∧ exec c s = .next t :=
  ⟨.csBoardTable 1 true 9, { life := { inputOn := true, pos := 2 } }, after (.csBoardTable 1 true 9)
      { life := { inputOn := true, pos := 2 } }, ⟨rfl, rfl⟩⟩

theorem wit_PackageMemoryFrame_w1 :
    ∃ (c : Instr) (s t : State), mayWritePackage c = false ∧ exec c s = .next t :=
  ⟨.csBoardTable 1 true 9, { life := { inputOn := true, pos := 2 } }, after (.csBoardTable 1 true 9)
      { life := { inputOn := true, pos := 2 } }, ⟨rfl, rfl⟩⟩

theorem wit_TasksFrame_w1 :
    ∃ (c : Instr) (s t : State), mayChangeTiles c = false ∧ exec c s = .next t :=
  ⟨.csBoardTable 1 true 9, { life := { inputOn := true, pos := 2 } }, after (.csBoardTable 1 true 9)
      { life := { inputOn := true, pos := 2 } }, ⟨rfl, rfl⟩⟩

theorem wit_FencesFrame_w1 :
    ∃ (c : Instr) (s t : State), mayChangeFences c = false ∧ exec c s = .next t :=
  ⟨.csBoardTable 1 true 9, { life := { inputOn := true, pos := 2 } }, after (.csBoardTable 1 true 9)
      { life := { inputOn := true, pos := 2 } }, ⟨rfl, rfl⟩⟩

theorem wit_JobTablesAndPoolFrame_w1 :
    ∃ (c : Instr) (s t : State), exec c s = .next t ∧ mayChangeJob c = false ∧ mayChangeEngineCfg c = false
      ∧ mayChangePool c = false ∧ mayChangeCascade c = false ∧ mayWriteFlash c = false :=
  ⟨.noOp 7 5, ctlS (ctlE 0 0), after (.noOp 7 5) (ctlS (ctlE 0 0)), ⟨rfl, by decide⟩⟩

theorem wit_CascadeSlotsComplete_1 :
    ∃ (s : State), isMaster s = true ∧ s.life.inputOn = true ∧ s.cascade.masterWaited = false
      ∧ s.cascade.fault = false ∧ s.cascade.nextSlot = 0 :=
  ⟨{ life := { inputOn := true } }, by decide⟩

theorem wit_CascadeSlotsComplete_2 :
    ∃ (s : State), (isMaster s = false ∨ s.life.inputOn = false ∨ s.cascade.masterWaited = true ∨ s.cascade.fault =
        true) :=
  ⟨{ life := { inputOn := true, pos := 1 } }, by decide⟩

theorem wit_CascadeSlotsComplete_3 :
    ∃ (s : State) (p q : Nat), isMaster s = true ∧ s.cascade.granted = some p ∧ s.cascade.nextSlot = q ∧ 1 ≤ q
      ∧ q ≤ 3 ∧ saidHello s q = true :=
  ⟨{ life := { inputOn := true }, cascade := { granted := some 0, nextSlot := 3, ramping := true, hello := [(3, 9)] } },
      0, 3, by decide⟩

theorem wit_CascadeSlotsComplete_4 :
    ∃ (s : State) (p : Nat), isMaster s = true ∧ s.cascade.granted = some p ∧ 4 ≤ s.cascade.nextSlot
      ∧ s.cascade.haveTable = false ∧ s.cascade.fault = false :=
  ⟨{ life := { inputOn := true }, cascade := { granted := some 3, nextSlot := 4, hello := [(1, 5), (3, 9)] } }, 3, by
      decide⟩

theorem wit_CascadeSlotsComplete_5 :
    ∃ (s : State), isMaster s = true ∧ s.cascade.granted = none :=
  ⟨{ life := { inputOn := true } }, by decide⟩

theorem wit_CascadeSlotsComplete_6 :
    ∃ (s : State), isMaster s = false ∧ s.cascade.ramping = true ∧ s.cascade.ownGrant.isSome = true
      ∧ s.cascade.absent.contains s.life.pos = false :=
  ⟨{ life := { inputOn := true, pos := 1 }, cascade := { ramping := true, ownGrant := some 1 } }, by decide⟩

theorem wit_CascadeSlotsComplete_7 :
    ∃ (s : State), isMaster s = false ∧ (s.cascade.ramping = false ∨ s.cascade.ownGrant = none) :=
  ⟨{ life := { inputOn := true, pos := 3 } }, by decide⟩

theorem wit_CascadeSlotsComplete_8 :
    ∃ (s : State), s.life.inputOn = true ∧ isMaster s = false ∧ s.cascade.ownGrant = none ∧ s.life.ramped = false
      ∧ s.cascade.fault = false :=
  ⟨{ life := { inputOn := true, pos := 1 } }, by decide⟩

theorem wit_CascadeSlotsComplete_9 :
    ∃ (s : State), (s.life.inputOn = false ∨ isMaster s = true ∨ s.cascade.ownGrant ≠ none ∨ s.life.ramped = true ∨
        s.cascade.fault = true) :=
  ⟨{ life := { inputOn := true, pos := 1 }, cascade := { ownGrant := some 0 } }, by decide⟩

theorem wit_CascadeSlotsComplete_10 :
    ∃ (s : State), s.life.inputOn = true ∧ s.life.ramped = false
      ∧ (s.cascade.fault = true ∨ s.life.pos ∈ s.cascade.absent) :=
  ⟨{ life := { inputOn := true, pos := 1 }, cascade := { absent := [1] } }, by decide⟩

theorem wit_CascadeSlotsComplete_11 :
    ∃ (s : State), (s.life.inputOn = false ∨ s.life.ramped = true ∨ (s.cascade.fault = false
      ∧ s.life.pos ∉ s.cascade.absent)) :=
  ⟨{ life := { inputOn := true, pos := 1 } }, by decide⟩

theorem wit_CascadeSlotsComplete_12 :
    ∃ (s : State) (code dst : Nat) (frame : List Byte), s.life.inputOn = true
      ∧ s.out.getLast? = some (.cascade code dst frame) :=
  ⟨{ life := { inputOn := true }, out := [.msix 1, .cascade 1 0 [5]] }, 1, 0, [5], by decide⟩

theorem wit_CascadeSlotsComplete_13 :
    ∃ (s : State), s.life.inputOn = false :=
  ⟨State.reset, by decide⟩

theorem wit_CascadeFramesComplete_1 :
    ∃ (s : State) (pos : Nat), s.life.inputOn = true ∧ isMaster s = true ∧ 1 ≤ pos ∧ pos ≤ 3 :=
  ⟨{ life := { inputOn := true } }, 3, by decide⟩

theorem wit_CascadeFramesComplete_2 :
    ∃ (s : State) (pos : Nat), s.life.inputOn = true ∧ s.cascade.fault = false
      ∧ (isMaster s = true ∨ pos + 1 ≠ s.life.pos) :=
  ⟨{ life := { inputOn := true, pos := 2 } }, 2, by decide⟩

theorem wit_CascadeFramesComplete_3 :
    ∃ (s : State) (pos : Nat), s.life.inputOn = true ∧ isMaster s = false ∧ pos + 1 = s.life.pos :=
  ⟨{ life := { inputOn := true, pos := 2 } }, 1, by decide⟩

theorem wit_CascadeFramesComplete_4 :
    ∃ (s : State), s.life.inputOn = true ∧ isMaster s = false :=
  ⟨{ life := { inputOn := true, pos := 1 } }, by decide⟩

theorem wit_CascadeFramesComplete_5 :
    ∃ (s : State), s.life.inputOn = true ∧ isMaster s = false ∧ s.cascade.ownGrant = none ∧ s.cascade.fault = false
      ∧ s.life.ramped = false :=
  ⟨{ life := { inputOn := true, pos := 2 } }, by decide⟩

theorem wit_CascadeFramesComplete_6 :
    ∃ (s : State), (s.life.inputOn = false ∨ isMaster s = true ∨ s.cascade.ownGrant ≠ none ∨ s.cascade.fault = true ∨
        s.life.ramped = true) :=
  ⟨{ life := { inputOn := true, pos := 2 }, cascade := { ownGrant := some 3 } }, by decide⟩

theorem wit_CascadeFramesComplete_7 :
    ∃ (s : State), s.life.inputOn = true ∧ isMaster s = false :=
  ⟨{ life := { inputOn := true, pos := 2 } }, by decide⟩

theorem wit_CascadeFramesComplete_8 :
    ∃ (s : State) (pos q : Nat), s.life.inputOn = true ∧ isMaster s = true ∧ s.cascade.granted = some pos ∧ pos ≠ 0
      ∧ s.cascade.nextSlot = q ∧ q ≤ 3 ∧ 1 ≤ q ∧ saidHello s q = true :=
  ⟨{ life := { inputOn := true }, cascade := { granted := some 1, nextSlot := 2, hello := [(1, 5), (2, 9)] } }, 1, 2,
      by decide⟩

theorem wit_CascadeFramesComplete_9 :
    ∃ (s : State), s.life.inputOn = true ∧ isMaster s = false ∧ s.cascade.fault = false :=
  ⟨{ life := { inputOn := true, pos := 3 } }, by decide⟩

theorem wit_CascadeFramesComplete_10 :
    ∃ (s : State) (seq : Nat), s.life.inputOn = true ∧ isMaster s = false ∧ s.cascade.fault = false ∧ seq ≠ 63 :=
  ⟨{ life := { inputOn := true, pos := 1 } }, 62, by decide⟩

theorem wit_CascadeFramesComplete_11 :
    ∃ (s : State) (pos seq : Nat), s.life.inputOn = true ∧ isMaster s = true ∧ s.cascade.haveTable = true ∧ pos ≠ 0
      ∧ seq ≠ 63 :=
  ⟨{ life := { inputOn := true }, cascade := { haveTable := true, lastPattern := 8 } }, 3, 0, by decide⟩

theorem wit_CascadeFramesComplete_12 :
    ∃ (s : State), s.life.inputOn = true ∧ isMaster s = false ∧ s.cascade.fault = false ∧ hasBooted s = true
      ∧ resetsCore s.life.state = true :=
  ⟨{ (live .unclaimed) with life := { (live .unclaimed).life with pos := 1 } }, by decide⟩

theorem wit_CascadeFramesComplete_13 :
    ∃ (s : State), s.life.inputOn = true ∧ isMaster s = false ∧ s.cascade.fault = false ∧ hasBooted s = true
      ∧ s.life.released = true :=
  ⟨{ liveC with life := { liveC.life with pos := 3 } }, by decide⟩

theorem wit_CascadeFramesComplete_14 :
    ∃ (s : State), (s.life.inputOn = false ∨ isMaster s = true ∨ s.cascade.fault = true) :=
  ⟨{ liveC with life := { liveC.life with pos := 3 }, cascade := { fault := true } }, by decide⟩

theorem wit_CascadeFramesComplete_15 :
    ∃ (s : State), s.life.inputOn = true ∧ isMaster s = true :=
  ⟨{ life := { inputOn := true } }, by decide⟩

theorem wit_CascadeFramesComplete_16 :
    ∃ (s : State), s.life.inputOn = true ∧ isMaster s = false :=
  ⟨{ life := { inputOn := true, pos := 1 } }, by decide⟩

theorem wit_ConfigurationSpaceStays_w1 :
    ∃ (s t : State), SpaceFixed s ∧ step s = .next t :=
  ⟨{ live .claimed with pending := [.inputExcursion 60] }, stepped
      { live .claimed with pending := [.inputExcursion 60] }, ⟨by decide, rfl⟩⟩

theorem wit_Bar0ReadsByAccess_8 :
    ∃ (s : State), bar0Open s = true :=
  ⟨{ live .unclaimed with es := { bits := 7 } }, by decide⟩

theorem wit_Bar0ReadsByAccess_9 :
    ∃ (s : State) (bank i v : Nat), bar0Open s = true ∧ bank < 9 ∧ i < 16 ∧ v < 2 ^ 64 ∧ selOk bank v = true :=
  ⟨live .unclaimed, 8, 15, 2 ^ 63 + 0xA0, by decide⟩

theorem wit_Bar0ReadsByAccess_w1 :
    ∃ (off size : Nat), isComponent off = false ∧ (¬ (size = 4 ∨ size = 8) ∨ off % size ≠ 0) :=
  ⟨0x7004, 8, by decide⟩

theorem wit_Bar0ReadsByAccess_w2 :
    ∃ (s : State), bar0Open s = true ∧ SpaceFixed s :=
  ⟨live .unclaimed, by decide⟩

theorem wit_Bar0ReadsByAccess_w3 :
    ∃ (s : State) (i : Nat), bar0Open s = true ∧ CountsFit s ∧ i < 13 :=
  ⟨live .unclaimed, 12, by decide⟩

theorem wit_Bar0ReadsByAccess_w4 :
    ∃ (s : State) (off : Nat), bar0Open s = true ∧ 0x300 ≤ off ∧ off < 0x1000 ∧ off % 4 = 0 :=
  ⟨live .unclaimed, 0xFFC, by decide⟩

theorem wit_Bar0ReadsByAccess_w5 :
    ∃ (s : State) (bank i : Nat), bar0Open s = true ∧ bank < 9 ∧ i < 16 ∧ s.sec.claimed = true
      ∧ bit s.sec.policy 1 = false :=
  ⟨liveC, 8, 15, by decide⟩

end Sys2Proof.Machine.Tests
end

section
/-!
# Reads of BAR0

The lemmas on little-endian fields, on the blocks of BAR0 and on a read of 4 or 8 bytes (R610 to R626), and the settlement
of O60. A register is found in three moves: the block's layout spells the field, the block stands at its place in BAR0, and
a read collects the bytes of a field.
-/
namespace Sys2Proof.Machine

/-! ### Little-endian fields -/

@[simp] theorem length_le_bytes (n v : Nat) : (le n v).length = n := by
  induction n generalizing v with
  | zero => rfl
  | succ n ih => simp [le, ih]

theorem getD_le {n i : Nat} (v : Nat) (hi : i < n) : (le n v).getD i 0 = BitVec.ofNat 8 (v / 256 ^ i) := by
  induction n generalizing v i with
  | zero => omega
  | succ n ih =>
    cases i with
    | zero => simp [le]
    | succ i =>
      rw [le, List.getD_cons_succ, ih _ (by omega), Nat.div_div_eq_div_mul, ← Nat.pow_succ']

/-- Reading back what `le` laid out keeps the bytes that fit. -/
theorem ofBytes_le (n v : Nat) : ofBytes (le n v) = v % 2 ^ (8 * n) := by
  rw [Nat.pow_mul, show 2 ^ 8 = 256 from rfl]
  induction n generalizing v with
  | zero => simp [le, ofBytes, Nat.mod_one]
  | succ n ih => rw [le, ofBytes, ih, BitVec.toNat_ofNat, show 2 ^ 8 = 256 from rfl, Nat.pow_succ', Nat.mod_mul (a := 256)]

/-- The bytes of `f` from `off` up spell the `n` bytes of `v`. -/
def Spells (f : Nat → Byte) (off n v : Nat) : Prop := ∀ i < n, f (off + i) = BitVec.ofNat 8 (v / 256 ^ i)

/-- A whole block is a run of bytes of another: its fields are that one's, at the block's place. -/
theorem Spells.place {f g : Nat → Byte} {base off n v : Nat} (h : Spells f off n v)
    (hg : ∀ i < n, g (base + off + i) = f (off + i)) : Spells g (base + off) n v :=
  fun i hi => (hg i hi).trans (h i hi)

/-- Bytes `k` to `k + m - 1` of a field spell the value without its `k` low bytes. -/
theorem Spells.part {f : Nat → Byte} {off n v k m : Nat} (h : Spells f off n v) (hk : k + m ≤ n) :
    Spells f (off + k) m (v / 256 ^ k) := by
  intro i hi
  rw [Nat.add_assoc, h (k + i) (by omega), Nat.div_div_eq_div_mul, ← Nat.pow_add]

theorem spells_zero {f : Nat → Byte} {off n : Nat} (h : ∀ i < n, f (off + i) = 0) : Spells f off n 0 := by
  intro i hi
  simp [h i hi]

/-- A field that stands at byte `off` of a block. -/
theorem spells_of_take_drop {block : List Byte} {off n v : Nat} (h : (block.drop off).take n = le n v) :
    Spells (fun o => block.getD o 0) off n v := by
  intro i hi
  rw [← getD_le v hi, ← h]
  simp only [List.getD_eq_getElem?_getD, List.getElem?_take_of_lt hi, List.getElem?_drop]

/-! ### A read -/

theorem isComponent_eq_false {off : Nat} (h : off < 0xA000) : isComponent off = false := by
  simp only [isComponent, Bool.and_eq_false_iff, decide_eq_false_iff_not]
  omega

/-- R610: another size or alignment reads zero. -/
theorem bar0Read_misaligned {off size : Nat} (s : State) (hc : isComponent off = false)
    (h : ¬ (size = 4 ∨ size = 8) ∨ off % size ≠ 0) : bar0Read off size s = some 0 := by
  rw [bar0Read, hc, if_neg Bool.false_ne_true, if_pos]
  simp only [Bool.or_eq_true, Bool.not_eq_true', bne_iff_ne, Bool.or_eq_false_iff, beq_eq_false_iff_ne]
  omega

/-- R610: an aligned read of 4 or 8 bytes returns the field that stands there, cut to the size of the read. -/
theorem bar0Read_of_spells {s : State} {off size v : Nat} (ho : bar0Open s = true) (hc : off < 0xA000)
    (hs : size = 4 ∨ size = 8) (ha : off % size = 0) (h : Spells (bar0Byte s) off size v) :
    bar0Read off size s = some (v % 2 ^ (8 * size)) := by
  have hbytes : (List.range size).map (fun i => bar0Byte s (off + i)) = le size v := by
    refine List.ext_getElem (by simp) fun i hi _ => ?_
    have hi' : i < size := by simpa using hi
    rw [List.getElem_map, List.getElem_range, h i hi', ← getD_le v hi', List.getD_eq_getElem]
  have hsize : (size == 4 || size == 8) = true := by simpa using hs
  rw [bar0Read, isComponent_eq_false hc, if_neg Bool.false_ne_true, ho, hsize, ha, if_neg (by simp), hbytes, ofBytes_le]

theorem bar0Read_of_spells_lt {s : State} {off size v : Nat} (ho : bar0Open s = true) (hc : off < 0xA000)
    (hs : size = 4 ∨ size = 8) (ha : off % size = 0) (h : Spells (bar0Byte s) off size v) (hv : v < 2 ^ (8 * size)) :
    bar0Read off size s = some v := by
  rw [bar0Read_of_spells ho hc hs ha h, Nat.mod_eq_of_lt hv]

/-! ### The blocks' places in BAR0 -/

theorem bar0Byte_identity (s : State) {o : Nat} (h : o < 0x100) : bar0Byte s o = (identityBlock s).getD o 0 := if_pos h

/-- R610: nothing is named between the recovery block and the mailboxes. -/
theorem bar0Byte_gap (s : State) {o : Nat} (h : 0x300 ≤ o) (h' : o < 0x1000) : bar0Byte s o = 0 := by
  unfold bar0Byte
  rw [if_neg (by omega), if_neg (by omega), if_neg (by omega), if_pos h']

theorem bar0Byte_mb0 (s : State) {o : Nat} (h : o < 0x10) :
    bar0Byte s (0x1000 + o) = (mailboxBlock s.mgmt.mb0).getD o 0 := by
  unfold bar0Byte
  rw [if_neg (by omega), if_neg (by omega), if_neg (by omega), if_neg (by omega), if_pos (by omega),
    Nat.add_sub_cancel_left]

/-- Past the rings, BAR0 is read through its last blocks alone. -/
theorem bar0Byte_high (s : State) {o : Nat} (h : 0x6000 ≤ o) :
    bar0Byte s o = if o < 0x7000 then counterByte s (o - 0x6000) else if o < 0x7100 then (errorBlock s).getD (o - 0x7000) 0
      else if o < 0x8000 then 0 else if o < 0xA000 then msixByte s o else 0 := by
  unfold bar0Byte
  iterate 14 rw [if_neg (by omega)]

theorem bar0Byte_counter (s : State) {o : Nat} (h : o < 0x1000) : bar0Byte s (0x6000 + o) = counterByte s o := by
  rw [bar0Byte_high s (by omega), if_pos (by omega), Nat.add_sub_cancel_left]

theorem bar0Byte_error (s : State) {o : Nat} (h : o < 0x100) : bar0Byte s (0x7000 + o) = (errorBlock s).getD o 0 := by
  rw [bar0Byte_high s (by omega), if_neg (by omega), if_pos (by omega), Nat.add_sub_cancel_left]

theorem spells_identity {s : State} {o n v : Nat} (ho : o + n ≤ 0x100)
    (h : ((identityBlock s).drop o).take n = le n v) : Spells (bar0Byte s) o n v := fun i hi =>
  (bar0Byte_identity s (by omega)).trans (spells_of_take_drop h i hi)

theorem spells_mb0 {s : State} {o n v : Nat} (ho : o + n ≤ 0x10)
    (h : ((mailboxBlock s.mgmt.mb0).drop o).take n = le n v) : Spells (bar0Byte s) (0x1000 + o) n v :=
  (spells_of_take_drop h).place fun i hi => by rw [Nat.add_assoc, bar0Byte_mb0 s (by omega)]

theorem spells_error {s : State} {o n v : Nat} (ho : o + n ≤ 0x100)
    (h : ((errorBlock s).drop o).take n = le n v) : Spells (bar0Byte s) (0x7000 + o) n v :=
  (spells_of_take_drop h).place fun i hi => by rw [Nat.add_assoc, bar0Byte_error s (by omega)]

theorem spells_counter {s : State} {o n v : Nat} (ho : o + n ≤ 0x1000) (h : Spells (counterByte s) o n v) :
    Spells (bar0Byte s) (0x6000 + o) n v :=
  h.place fun i hi => by rw [Nat.add_assoc, bar0Byte_counter s (by omega)]

/-! ### Identity (R612) -/

/-- `IS_VERSION` (R612) over the device id of R456. -/
theorem identityBlock_version {s : State} (h : SpaceFixed s) :
    ((identityBlock s).drop 4).take 4 = le 4 0x0A900001 := by
  obtain ⟨hid, -⟩ := h
  have hword : ((identityBlock s).drop 4).take 4 = le 2 1 ++ le 2 s.host.space.deviceId := rfl
  rw [hword, hid]
  decide

theorem bar0Read_identity {s : State} (ho : bar0Open s = true) (hs : SpaceFixed s) :
    bar0Read 0 4 s = some 0x39414D55 ∧ bar0Read 4 4 s = some 0x0A900001
      ∧ bar0Read 0x20 4 s = some (isStatus s % 2 ^ 32) := by
  refine ⟨?name, ?version, ?status⟩
  case name => exact bar0Read_of_spells_lt ho (by omega) (by omega) rfl (spells_identity (by omega) rfl) (by omega)
  case version =>
    exact bar0Read_of_spells_lt ho (by omega) (by omega) rfl (spells_identity (by omega) (identityBlock_version hs))
      (by omega)
  case status => exact bar0Read_of_spells ho (by omega) (by omega) rfl (spells_identity (by omega) rfl)

/-- `MB0_CTRL` (R479): `DOORBELL` reads zero. -/
theorem bar0Read_mb0Ctrl {s : State} (ho : bar0Open s = true) :
    bar0Read 0x1000 4 s = some (2 * s.mgmt.mb0.intEn.toNat) :=
  bar0Read_of_spells_lt ho (by omega) (by omega) rfl (spells_mb0 (o := 0) (by omega) rfl)
    (by have := s.mgmt.mb0.intEn.toNat_lt; omega)

theorem bar0Read_gap {s : State} {off : Nat} (ho : bar0Open s = true) (hlo : 0x300 ≤ off) (hhi : off < 0x1000)
    (ha : off % 4 = 0) : bar0Read off 4 s = some 0 :=
  bar0Read_of_spells_lt ho (by omega) (by omega) ha (spells_zero fun i hi => bar0Byte_gap s (by omega) (by omega))
    (by omega)

/-! ### Error summary (R618, R620) -/

theorem spells_esBits (s : State) : Spells (bar0Byte s) 0x7000 8 s.es.bits.toNat :=
  spells_error (o := 0) (by omega) rfl

theorem bar0Read_esBits {s : State} (ho : bar0Open s = true) : bar0Read 0x7000 8 s = some s.es.bits.toNat :=
  bar0Read_of_spells_lt ho (by omega) (by omega) rfl (spells_esBits s) s.es.bits.isLt

/-- R610: the halves of `ES_BITS`. -/
theorem bar0Read_esBits_halves {s : State} (ho : bar0Open s = true) :
    bar0Read 0x7000 4 s = some (s.es.bits.toNat % 2 ^ 32) ∧ bar0Read 0x7004 4 s = some (s.es.bits.toNat / 2 ^ 32) := by
  have hbits : s.es.bits.toNat < 2 ^ 64 := s.es.bits.isLt
  have hlow : Spells (bar0Byte s) 0x7000 4 s.es.bits.toNat := fun i hi => spells_esBits s i (by omega)
  have hhigh : Spells (bar0Byte s) 0x7004 4 (s.es.bits.toNat / 2 ^ 32) := (spells_esBits s).part (k := 4) (by omega)
  exact ⟨bar0Read_of_spells ho (by omega) (by omega) rfl hlow,
    bar0Read_of_spells_lt ho (by omega) (by omega) rfl hhigh (by omega)⟩

/-- R618: while BAR0 answers, a write of ones is the clearing of those bits. -/
theorem exec_esBitsW1c {s : State} (b : BitVec 64) (ho : bar0Open s = true) :
    exec (.esBitsW1c b) s = .next (esClear b s) := by
  change execEsBitsW1c b s = _
  rw [execEsBitsW1c, if_pos ho]

/-- The error counts stand in the order of `errorCounts`, but for the count of lasting errors before the last of them. -/
theorem spells_errorCount (s : State) {i : Nat} (hi : i < 13) :
    Spells (bar0Byte s) (0x7010 + 4 * (if i = 12 then 13 else i)) 4 ((errorCounts s).getD i 0) := by
  rw [show 0x7010 + 4 * (if i = 12 then 13 else i) = 0x7000 + (0x10 + 4 * (if i = 12 then 13 else i)) by omega]
  refine spells_error (by split <;> omega) ?_
  interval_cases i <;> rfl

theorem errorCounts_lt {s : State} (h : CountsFit s) {i : Nat} (hi : i < 13) : (errorCounts s).getD i 0 < 2 ^ 32 := by
  have hlen : i < (errorCounts s).length := hi
  rw [List.getD_eq_getElem _ _ hlen]
  exact Nat.lt_succ_of_le (h _ (List.getElem_mem hlen))

theorem bar0Read_errorCount {s : State} {i : Nat} (ho : bar0Open s = true) (hfit : CountsFit s) (hi : i < 13) :
    bar0Read (0x7010 + 4 * (if i = 12 then 13 else i)) 4 s = some ((errorCounts s).getD i 0) :=
  bar0Read_of_spells_lt ho (by split <;> omega) (by omega) (by omega) (spells_errorCount s hi) (errorCounts_lt hfit hi)

/-! ### Event counters (R621 to R626) -/

section
variable (s : State) {bank i : Nat} (hb : bank < 9) (hi : i < 16)
include hb hi

theorem spells_counterValue : Spells (counterByte s) (0x180 * bank + 8 * i) 8 (counterValue s (bank * 16 + i)) := by
  intro j hj
  have hbank : (0x180 * bank + 8 * i + j) / 0x180 = bank := by omega
  have hoff : (0x180 * bank + 8 * i + j) % 0x180 = 8 * i + j := by omega
  simp only [counterByte, hbank, hoff]
  rw [if_neg (by omega), if_neg (by omega), if_pos (by omega), show (8 * i + j) / 8 = i by omega,
    show (8 * i + j) % 8 = j by omega, getD_le _ hj]

theorem spells_selection :
    Spells (counterByte s) (0x80 + 0x180 * bank + 8 * i) 8 (mapGet 0 s.evc.sels (bank * 16 + i)).toNat := by
  intro j hj
  have hbank : (0x80 + 0x180 * bank + 8 * i + j) / 0x180 = bank := by omega
  have hoff : (0x80 + 0x180 * bank + 8 * i + j) % 0x180 = 0x80 + 8 * i + j := by omega
  simp only [counterByte, hbank, hoff]
  rw [if_neg (by omega), if_neg (by omega), if_neg (by omega), if_pos (by omega),
    show (0x80 + 8 * i + j - 0x80) / 8 = i by omega, show (0x80 + 8 * i + j) % 8 = j by omega, getD_le _ hj]

/-- The selection registers' offsets name their bank and index. -/
theorem selAt_selection : selAt (0x6080 + 0x180 * bank + 8 * i) = some (bank, i) := by
  have hsub : 0x6080 + 0x180 * bank + 8 * i - 0x6000 = 0x80 + 0x180 * bank + 8 * i := by omega
  have hbank : (0x80 + 0x180 * bank + 8 * i) / 0x180 = bank := by omega
  have hoff : (0x80 + 0x180 * bank + 8 * i) % 0x180 = 0x80 + 8 * i := by omega
  have hindex : (0x80 + 8 * i - 0x80) / 8 = i := by omega
  simp only [selAt, hsub, hbank, hoff, hindex]
  rw [if_pos]
  simp only [Bool.and_eq_true, decide_eq_true_eq]
  omega

end

theorem spells_overflow (s : State) {bank : Nat} (hb : bank < 9) :
    Spells (counterByte s) (0x100 + 0x180 * bank) 8 (overflowValue s bank) := by
  intro j hj
  have hbank : (0x100 + 0x180 * bank + j) / 0x180 = bank := by omega
  have hoff : (0x100 + 0x180 * bank + j) % 0x180 = 0x100 + j := by omega
  simp only [counterByte, hbank, hoff]
  rw [if_neg (by omega), if_neg (by omega), if_neg (by omega), if_neg (by omega), if_pos (by omega),
    show (0x100 + j) % 8 = j by omega, getD_le _ hj]

/-- `EVC_CTRL`: only `FREEZE` reads back. -/
theorem spells_evcCtrl (s : State) : Spells (counterByte s) 0xF00 8 s.evc.freeze.toNat := by
  intro j hj
  cases j with
  | zero => simp [counterByte]
  | succ j =>
    have hhigh : s.evc.freeze.toNat / 256 ^ (j + 1) = 0 :=
      Nat.div_eq_of_lt ((Bool.toNat_lt _).trans_le ((Nat.le_self_pow (by omega) 256).trans' (by omega)))
    rw [hhigh, counterByte, if_neg (by omega), if_pos (by omega)]
    rfl

theorem counterValue_of_closed {s : State} (hc : s.sec.claimed = true) (hp : bit s.sec.policy 1 = false) (k : Nat) :
    counterValue s k = 0 := by
  simp [counterValue, hc, hp]

theorem overflowValue_of_closed {s : State} (hc : s.sec.claimed = true) (hp : bit s.sec.policy 1 = false) (bank : Nat) :
    overflowValue s bank = 0 := by
  simp [overflowValue, hc, hp]

theorem bar0Read_evcCtrl {s : State} (ho : bar0Open s = true) : bar0Read 0x6F00 8 s = some s.evc.freeze.toNat :=
  bar0Read_of_spells_lt ho (by omega) (by omega) rfl (spells_counter (o := 0xF00) (by omega) (spells_evcCtrl s))
    (by have := s.evc.freeze.toNat_lt; omega)

/-- R626: no counter and no overflow bit reads back under a `COUNTERS` policy of 0. -/
theorem bar0Read_counters_closed {s : State} {bank i : Nat} (ho : bar0Open s = true) (hb : bank < 9) (hi : i < 16)
    (hc : s.sec.claimed = true) (hp : bit s.sec.policy 1 = false) :
    bar0Read (0x6000 + 0x180 * bank + 8 * i) 8 s = some 0 ∧ bar0Read (0x6100 + 0x180 * bank) 8 s = some 0 := by
  have hcount := spells_counter (by omega) (spells_counterValue s hb hi)
  have hover := spells_counter (by omega) (spells_overflow s hb)
  rw [counterValue_of_closed hc hp, ← Nat.add_assoc] at hcount
  rw [overflowValue_of_closed hc hp, ← Nat.add_assoc] at hover
  exact ⟨bar0Read_of_spells_lt ho (by omega) (by omega) (by omega) hcount (by omega),
    bar0Read_of_spells_lt ho (by omega) (by omega) (by omega) hover (by omega)⟩

theorem bar0Read_selection {s : State} {bank i : Nat} (ho : bar0Open s = true) (hb : bank < 9) (hi : i < 16) :
    bar0Read (0x6080 + 0x180 * bank + 8 * i) 8 s = some (mapGet 0 s.evc.sels (bank * 16 + i)).toNat := by
  have hsel := spells_counter (by omega) (spells_selection s hb hi)
  rw [← Nat.add_assoc, ← Nat.add_assoc] at hsel
  exact bar0Read_of_spells_lt ho (by omega) (by omega) (by omega) hsel (BitVec.isLt _)

@[simp] theorem mapGet_sels_selWrite (bank i : Nat) (v : BitVec 64) (s : State) :
    mapGet 0 (selWrite bank i v s).evc.sels (bank * 16 + i) = v := by
  simp [selWrite]

/-- R610, R623: an 8-byte write of an accepted value to a selection register sets that selection. -/
theorem exec_registerWrite_selection {s : State} {bank i v : Nat} (ho : bar0Open s = true) (hb : bank < 9) (hi : i < 16)
    (hv : v < 2 ^ 64) (hok : selOk bank v = true) :
    exec (.registerWrite false (0x6080 + 0x180 * bank + 8 * i) 8 v) s
      = .next (selWrite bank i (BitVec.ofNat 64 v) s) := by
  have hval : (BitVec.ofNat 64 v).toNat = v := by rw [BitVec.toNat_ofNat, Nat.mod_eq_of_lt hv]
  have halign : (0x6080 + 0x180 * bank + 8 * i) % 8 = 0 := by omega
  have hbus : selBusWrite bank i 8 (BitVec.ofNat 64 v) s = selWrite bank i (BitVec.ofNat 64 v) s := by
    simp [selBusWrite, hval, hok, hi, Nat.le_of_lt_succ hb]
  have hwrite : bar0Write (0x6080 + 0x180 * bank + 8 * i) 8 v s = selWrite bank i (BitVec.ofNat 64 v) s := by
    simp [bar0Write, ho, halign, selAt_selection hb hi, hbus]
  change execRegisterWrite false _ 8 v s = _
  rw [execRegisterWrite, isComponent_eq_false (by omega), hwrite]
  rfl

/-! ### O60 -/

/-- Settles O60: each register's bytes spell its value, and a read collects them. -/
theorem bar0ReadsByAccess : Obligations.Bar0ReadsByAccess := by
  unfold Obligations.Bar0ReadsByAccess
  refine ⟨fun s _ _ => bar0Read_misaligned s, fun _ => bar0Read_identity,
    fun _ ho => ⟨bar0Read_esBits ho, bar0Read_esBits_halves ho⟩, fun _ _ => bar0Read_errorCount,
    fun _ ho => ⟨bar0Read_evcCtrl ho, bar0Read_mb0Ctrl ho⟩, fun _ _ => bar0Read_gap, fun _ _ _ => bar0Read_counters_closed,
    fun s b ho => ?cleared, fun s bank i v ho hb hi hv hok => ?selected⟩
  case cleared => exact ⟨esClear b s, exec_esBitsW1c b ho, bar0Read_esBits (s := esClear b s) ho⟩
  case selected =>
    refine ⟨selWrite bank i (BitVec.ofNat 64 v) s, exec_registerWrite_selection ho hb hi hv hok, ?_⟩
    rw [bar0Read_selection (s := selWrite bank i (BitVec.ofNat 64 v) s) ho hb hi, mapGet_sels_selWrite,
      BitVec.toNat_ofNat, Nat.mod_eq_of_lt hv]

end Sys2Proof.Machine
end

section
/-!
The frame of the parts of the state that few commands change: the job with its step task set, the tables of the engines,
the page pool, the board cascade, the flash and the queue of waiting commands. One rule per operation of the model says
that the operation leaves what a part `π` holds, or, under hypotheses `π ≠ …`, all but the parts that it may change.
The rules stand in the order of the model's files and are `simp` lemmas, so the rule of an operation follows from the
rules of the operations that it calls; a rule of every command, and with it O56, comes at the end.
-/
namespace Sys2Proof.Machine

/-! ### Parts of the state -/

/-- A part of the state that few commands change; the queue is changed by none. -/
inductive StatePart where
  | job | cfg | pool | cascade | flash | queue

/-- What a part can hold. -/
inductive Held where
  | job (j : Option Job) (set : Option StepSet)
  | cfg (c : EngCfg)
  | pool (f : Fennel)
  | cascade (c : Cascade)
  | flash (m : Mem)
  | queue (l : List Instr)

/-- What part `π` of a state holds. -/
def held : StatePart → State → Held
  | .job, s => .job s.job s.stepSet
  | .cfg, s => .cfg s.cfg
  | .pool, s => .pool s.fennel
  | .cascade, s => .cascade s.cascade
  | .flash, s => .flash s.mgmt.flash
  | .queue, s => .queue s.pending

/-- May this command change the part, by the lists of `Safety`? -/
def StatePart.mayChange : StatePart → Instr → Bool
  | .job => mayChangeJob
  | .cfg => mayChangeEngineCfg
  | .pool => mayChangePool
  | .cascade => mayChangeCascade
  | .flash => mayWriteFlash
  | .queue => fun _ => false

/-! ### Updates of the state's fields -/

section
variable {π : StatePart} (t : State) (life : Life) (slots : SMap Slot) (pkg : Pkg) (tiles : SMap Tile)
  (fences : Fences) (cond : Conductor) (fabric : Fabric) (host : HostLink) {mgmt : Mgmt} (sec : Security)
  (integ : Integrity) (es : ErrSum) (evc : Evc) (sens : Sensors) (out : List Out) (freeUsed : Nat)

@[simp] theorem held_update (h : mgmt.flash = t.mgmt.flash) :
    held π { t with
      life, slots, pkg, tiles, fences, cond, fabric, host, mgmt, sec, integ, es, evc, sens, out
      freeUsed } = held π t := by
  cases π <;> simp [held, h]

@[simp] theorem held_update_flash (hflash : π ≠ .flash) :
    held π { t with
      life, slots, pkg, tiles, fences, cond, fabric, host, mgmt, sec, integ, es, evc, sens, out
      freeUsed } = held π t := by
  cases π <;> simp_all [held]

variable (h : mgmt.flash = t.mgmt.flash)
include h

@[simp] theorem held_update_job (hjob : π ≠ .job) (job : Option Job) (stepSet : Option StepSet) :
    held π { t with
      life, slots, pkg, tiles, fences, cond, fabric, host, mgmt, sec, integ, es, evc, sens, out, freeUsed
      job, stepSet } = held π t := by
  cases π <;> simp_all [held]

@[simp] theorem held_update_cfg (hcfg : π ≠ .cfg) (cfg : EngCfg) :
    held π { t with
      life, slots, pkg, tiles, fences, cond, fabric, host, mgmt, sec, integ, es, evc, sens, out, freeUsed
      cfg } = held π t := by
  cases π <;> simp_all [held]

@[simp] theorem held_update_pool (hpool : π ≠ .pool) (fennel : Fennel) :
    held π { t with
      life, slots, pkg, tiles, fences, cond, fabric, host, mgmt, sec, integ, es, evc, sens, out, freeUsed
      fennel } = held π t := by
  cases π <;> simp_all [held]

@[simp] theorem held_update_cascade (hcascade : π ≠ .cascade) (cascade : Cascade) :
    held π { t with
      life, slots, pkg, tiles, fences, cond, fabric, host, mgmt, sec, integ, es, evc, sens, out, freeUsed
      cascade } = held π t := by
  cases π <;> simp_all [held]

end

/-! ### Branches and folds -/

@[simp] theorem held_ite (π : StatePart) (c : Prop) [Decidable c] (s t : State) :
    held π (if c then s else t) = if c then held π s else held π t := apply_ite (held π) c s t

section
variable {α β γ : Type} {π : StatePart} {xs : List α}

@[simp] theorem held_forAll {f : State → α → State} (h : ∀ s x, held π (f s x) = held π s) {s : State} :
    held π (forAll xs f s) = held π s := forAll_keeps (held π) h s

@[simp] theorem held_foldl {f : State → α → State} (h : ∀ s x, held π (f s x) = held π s) {s : State} :
    held π (xs.foldl f s) = held π s := forAll_keeps (held π) h s

/-- The rule of a fold whose accumulator carries the state in its component `g`. -/
theorem held_foldl_of (g : β → State) {f : β → α → β} (h : ∀ a x, held π (g (f a x)) = held π (g a)) (a : β) :
    held π (g (xs.foldl f a)) = held π (g a) := by
  induction xs generalizing a with
  | nil => rfl
  | cons x xs ih => exact (ih (f a x)).trans (h a x)

@[simp] theorem held_foldl_snd {f : β × State → α → β × State} (h : ∀ a x, held π (f a x).2 = held π a.2)
    {a : β × State} : held π (xs.foldl f a).2 = held π a.2 := held_foldl_of (·.2) h a

@[simp] theorem held_foldl_snd_snd {f : β × γ × State → α → β × γ × State}
    (h : ∀ a x, held π (f a x).2.2 = held π a.2.2) {a : β × γ × State} :
    held π (xs.foldl f a).2.2 = held π a.2.2 := held_foldl_of (·.2.2) h a

@[simp] theorem held_foldl_run {f : FnRun → α → FnRun} (h : ∀ a x, held π (f a x).s = held π a.s) {a : FnRun} :
    held π (xs.foldl f a).s = held π a.s := held_foldl_of FnRun.s h a

end

/-! ### The state that an answer or a packet's outcome carries

The rules are proved by `rw`, so that `simp` does not take them for definitional: the kernel would then compare the two
states by running them. -/

/-- The state that a command's answer leaves. -/
def Answer.state : Answer → State
  | .now _ _ s => s
  | .later s => s

@[simp] theorem Answer.state_now (status : Nat) (body : List Byte) (s : State) :
    (Answer.now status body s).state = s := by
  rw [Answer.state]

@[simp] theorem Answer.state_later (s : State) : (Answer.later s).state = s := by rw [Answer.state]

@[simp] theorem Answer.state_ite (c : Prop) [Decidable c] (a b : Answer) :
    (if c then a else b).state = if c then a.state else b.state := apply_ite Answer.state c a b

/-- The state that a packet's operation leaves. -/
def Took.state : Took → State
  | .done s => s
  | .refuse _ s => s
  | .hold s => s

@[simp] theorem Took.state_done (s : State) : (Took.done s).state = s := by rw [Took.state]
@[simp] theorem Took.state_refuse (reason : Nat) (s : State) : (Took.refuse reason s).state = s := by rw [Took.state]
@[simp] theorem Took.state_hold (s : State) : (Took.hold s).state = s := by rw [Took.state]

@[simp] theorem Took.state_ite (c : Prop) [Decidable c] (a b : Took) :
    (if c then a else b).state = if c then a.state else b.state := apply_ite Took.state c a b

section
variable {π : StatePart} {s : State} {r : Bool × State} {e : Entry} {q : Req}
  {tile uid cls code k n w c t b a m g who port ring slot index dpa addr off hint id cq stream first
   kind seq cause peer : Nat}

/-! ### Outputs, event counters, interrupts, logs, module state -/

@[simp] theorem held_modTile (f : Tile → Tile) : held π (modTile s t f) = held π s := by simp [modTile]
@[simp] theorem held_modSlot (f : Slot → Slot) : held π (modSlot s t f) = held π s := by simp [modSlot]
@[simp] theorem held_modPort (p : Nat) (f : Port → Port) : held π (modPort s p f) = held π s := by simp [modPort]
@[simp] theorem held_modChan (f : Chan → Chan) : held π (modChan s k f) = held π s := by simp [modChan]
@[simp] theorem held_modWin (f : Window → Window) : held π (modWin s w f) = held π s := by simp [modWin]
@[simp] theorem held_modPeer (p : Nat) (f : Peer → Peer) : held π (modPeer s p f) = held π s := by simp [modPeer]
@[simp] theorem held_modMc (f : Channel → Channel) : held π (modMc s t c f) = held π s := by simp [modMc]

@[simp] theorem held_modRing (r : Nat) (f : WorkRing → WorkRing) : held π (modRing s r f) = held π s := by
  simp [modRing]

@[simp] theorem held_modCq (r : Nat) (f : CompRing → CompRing) : held π (modCq s r f) = held π s := by simp [modCq]
@[simp] theorem held_modSeq (q : Nat) (f : SeqEntry → SeqEntry) : held π (modSeq s q f) = held π s := by simp [modSeq]
@[simp] theorem held_modTask (f : Task → Task) : held π (modTask s t k f) = held π s := by simp [modTask]

@[simp] theorem held_modEngine (inst : Nat) (f : Engine → Engine) : held π (modEngine s t cls inst f) = held π s := by
  simp [modEngine]

@[simp] theorem held_modBarrier (f : Barrier → Barrier) : held π (modBarrier s b f) = held π s := by simp [modBarrier]

@[simp] theorem held_emit (o : Out) : held π (emit s o) = held π s := by simp [emit]
@[simp] theorem held_pldmSend (sensor value : Nat) : held π (pldmSend sensor value s) = held π s := by simp [pldmSend]
@[simp] theorem held_takeFree : held π (takeFree w s).2 = held π s := by simp [takeFree]
@[simp] theorem held_evCount (bank inst : Nat) : held π (evCount bank code inst cls n s) = held π s := by simp [evCount]
@[simp] theorem held_evHub (inst : Nat) : held π (evHub code inst n s) = held π s := by simp [evHub]
@[simp] theorem held_moveLines : held π (moveLines a b n s) = held π s := by simp [moveLines]
@[simp] theorem held_sendMsix (v : Nat) : held π (sendMsix v s) = held π s := by simp [sendMsix]
@[simp] theorem held_vector0 : held π (vector0 s) = held π s := by simp [vector0]
@[simp] theorem held_esRaise (i : Nat) : held π (esRaise i s) = held π s := by simp [esRaise]
@[simp] theorem held_esTaskRefused : held π (esTaskRefused s) = held π s := by simp [esTaskRefused]
@[simp] theorem held_esRingError : held π (esRingError s) = held π s := by simp [esRingError]
@[simp] theorem held_esJobFault : held π (esJobFault s) = held π s := by simp [esJobFault]
@[simp] theorem held_esStaleInc : held π (esStaleInc s) = held π s := by simp [esStaleInc]
@[simp] theorem held_esStaleArr : held π (esStaleArr s) = held π s := by simp [esStaleArr]
@[simp] theorem held_esLateFault : held π (esLateFault s) = held π s := by simp [esLateFault]
@[simp] theorem held_esRefusal : held π (esRefusal s) = held π s := by simp [esRefusal]
@[simp] theorem held_esWindow : held π (esWindow s) = held π s := by simp [esWindow]
@[simp] theorem held_esDiscard : held π (esDiscard s) = held π s := by simp [esDiscard]
@[simp] theorem held_esAuth : held π (esAuth s) = held π s := by simp [esAuth]
@[simp] theorem held_esFault (task : Nat) : held π (esFault code task s) = held π s := by simp [esFault]
@[simp] theorem held_logOver (key : Nat) (full : Bool) : held π (logOver s key full) = held π s := by simp [logOver]

@[simp] theorem held_log1Add (unit pattern : Nat) : held π (log1Add kind cls tile unit addr pattern s) = held π s := by
  simp [log1Add]

@[simp] theorem held_log3Add (unit : Nat) : held π (log3Add kind tile unit s) = held π s := by simp [log3Add]

@[simp] theorem held_log4Add (window src chan offset reason : Nat) :
    held π (log4Add window src chan offset reason s) = held π s := by
  simp [log4Add]

@[simp] theorem held_ueLog (loc : Loc) (pattern : Nat) : held π (ueLog loc pattern s) = held π s := by simp [ueLog]
@[simp] theorem held_ceLog (loc : Loc) (pattern : Nat) : held π (ceLog loc pattern s) = held π s := by simp [ceLog]

@[simp] theorem held_ceMark (unit : Nat) : held π (ceMark kind tile unit addr s) = held π s := by
  simp only [ceMark]
  repeat' split
  all_goals simp

@[simp] theorem held_d2hSend (data : List Byte) (use : D2hUse) : held π (d2hSend kind addr data use s) = held π s := by
  simp [d2hSend]

@[simp] theorem held_askDescs : held π (askDescs s ring) = held π s := by simp [askDescs]
@[simp] theorem held_askAll : held π (askAll s) = held π s := by simp [askAll]
@[simp] theorem held_setModState (m : ModState) : held π (setModState m s) = held π s := by simp [setModState]
@[simp] theorem held_settleReady : held π (settleReady s) = held π s := by simp only [settleReady]; split <;> simp
@[simp] theorem held_worsen (h : Health) : held π (worsen h s) = held π s := by simp [worsen]

/-! ### Package memory, slot memory, tags and claims -/

@[simp] theorem held_noteBad : held π (noteBad dpa s) = held π s := by simp only [noteBad]; split <;> simp
@[simp] theorem held_pkgPoison (b : Bool) : held π (pkgPoison c b s) = held π s := by simp [pkgPoison]
@[simp] theorem held_pkgError (e : Nat) : held π (pkgError c e s) = held π s := by simp [pkgError]
@[simp] theorem held_pkgBytes (bs : List Byte) : held π (pkgBytes a bs s) = held π s := by simp [pkgBytes]
@[simp] theorem held_dramWrite : held π (dramWrite cls c s) = held π s := by simp [dramWrite]

@[simp] theorem held_dramRead : held π (dramRead cls c dpa s).2 = held π s := by
  simp only [dramRead]
  repeat' split
  all_goals simp

@[simp] theorem held_putCache (l : List CacheLine) : held π (putCache c l s) = held π s := by simp [putCache]
@[simp] theorem held_bare : held π (bare c s) = held π s := by simp only [bare]; split <;> simp
@[simp] theorem held_cover : held π (cover c s) = held π s := by simp [cover]
@[simp] theorem held_cacheUe : held π (cacheUe c s) = held π s := by simp [cacheUe]

@[simp] theorem held_writeBack (key : Nat) (l : CacheLine) : held π (writeBack key l s) = held π s := by
  simp [writeBack]

@[simp] theorem held_scrubUnder {dirty : Bool} {read : State → Bool × State} (h : ∀ s, held π (read s).2 = held π s) :
    held π (scrubUnder c dirty read s) = held π s := by
  simp [scrubUnder, h]

@[simp] theorem held_cacheAlloc (keep dirty : Bool) : held π (cacheAlloc c keep dirty s) = held π s := by
  simp only [cacheAlloc]
  repeat' split
  all_goals simp

@[simp] theorem held_cacheHit (write : Bool) : held π (cacheHit c hint write s) = held π s := by
  simp only [cacheHit]
  split <;> simp

@[simp] theorem held_checkLine : held π (checkLine c s) = held π s := by simp only [checkLine]; split <;> simp

@[simp] theorem held_cacheAccess (write whole : Bool) : held π (cacheAccess cls c hint write whole s) = held π s := by
  simp [cacheAccess]

@[simp] theorem held_cacheEvict : held π (cacheEvict c s) = held π s := by simp only [cacheEvict]; split <;> simp
@[simp] theorem held_cacheFlush : held π (cacheFlush s) = held π s := by simp [cacheFlush]
@[simp] theorem held_noteTouch (write : Bool) : held π (noteTouch dpa write s) = held π s := by simp [noteTouch]

@[simp] theorem held_readCw : held π (readCw cls hint dpa s).2 = held π s := by
  simp only [readCw]
  repeat' split
  all_goals simp

@[simp] theorem held_readCws : held π (readCws cls hint w n s).2 = held π s := by
  induction n generalizing w s with
  | zero => rfl
  | succ n ih => simp [readCws, ih]

@[simp] theorem held_pkgRead : held π (pkgRead cls hint dpa n s).2 = held π s := by simp [pkgRead]

@[simp] theorem held_writeCw (bs : List Byte) (bad inLine : Bool) :
    held π (writeCw cls dpa bs bad inLine s) = held π s := by
  simp [writeCw]

@[simp] theorem held_writeLine (bs : List Byte) (bad : Bool) : held π (writeLine cls hint dpa bs bad s) = held π s := by
  simp [writeLine]

@[simp] theorem held_writeLines {bs : List Byte} {bad : Bool} :
    held π (writeLines cls hint dpa bs bad n s) = held π s := by
  induction n generalizing dpa bs s with
  | zero => rfl
  | succ n ih => simp [writeLines, ih]

@[simp] theorem held_pkgWrite (bs : List Byte) (bad : Bool) : held π (pkgWrite cls hint dpa bs bad s) = held π s := by
  simp [pkgWrite]

@[simp] theorem held_poisonCw : held π (poisonCw dpa s) = held π s := by simp [poisonCw]
@[simp] theorem held_pkgWord : held π (pkgWord cls dpa n s).2 = held π s := by simp [pkgWord]
@[simp] theorem held_pkgFill : held π (pkgFill s) = held π s := by simp [pkgFill]
@[simp] theorem held_slotFill : held π (slotFill s) = held π s := by simp [slotFill]
@[simp] theorem held_clearFlips : held π (clearFlips s) = held π s := by simp [clearFlips]
@[simp] theorem held_setTag (t : BitVec 8) : held π (setTag tile g t s) = held π s := by simp [setTag]
@[simp] theorem held_tagRead : held π (tagRead tile g s) = held π s := by simp [tagRead]
@[simp] theorem held_slotError (h e : Nat) : held π (slotError tile h e s) = held π s := by simp [slotError]
@[simp] theorem held_slotPut (bs : List Byte) : held π (slotPut tile a bs s) = held π s := by simp [slotPut]
@[simp] theorem held_halfWrite (h : Nat) : held π (halfWrite tile h s) = held π s := by simp [halfWrite]

@[simp] theorem held_halfFind (h : Nat) : held π (halfFind tile h s).2 = held π s := by
  simp only [halfFind]
  repeat' split
  all_goals simp

@[simp] theorem held_halfRead (h : Nat) : held π (halfRead tile h s).2 = held π s := by simp [halfRead]

@[simp] theorem held_halfReads {h : Nat} : held π (halfReads tile h n s).2 = held π s := by
  induction n generalizing h s with
  | zero => rfl
  | succ n ih => simp [halfReads, ih]

@[simp] theorem held_slotRead : held π (slotRead who tile a n s).2 = held π s := by simp [slotRead]

@[simp] theorem held_mergeHalf (h : Nat) (bs : List Byte) (bad : Bool) :
    held π (mergeHalf tile h a bs bad s) = held π s := by
  simp [mergeHalf]

@[simp] theorem held_slotLine (bs : List Byte) : held π (slotLine who tile a bs s).2 = held π s := by
  simp only [slotLine]
  repeat' split
  all_goals simp

@[simp] theorem held_slotLines {bs : List Byte} : held π (slotLines who tile a bs n s).2 = held π s := by
  induction n generalizing a bs s with
  | zero => rfl
  | succ n ih => simp only [slotLines]; split <;> simp [ih]

@[simp] theorem held_slotWrite (bs : List Byte) : held π (slotWrite who tile a bs s).2 = held π s := by simp [slotWrite]
@[simp] theorem held_claimOut (owner : Nat) : held π (claimOut owner tile g s) = held π s := by simp [claimOut]
@[simp] theorem held_claimIn : held π (claimIn tile g s) = held π s := by simp [claimIn]
@[simp] theorem held_unclaimOut (owner : Nat) : held π (unclaimOut owner tile g s) = held π s := by simp [unclaimOut]
@[simp] theorem held_unclaimIn : held π (unclaimIn tile g s) = held π s := by simp [unclaimIn]

/-! ### Op lists and descriptors, as PEPPER reads them -/

@[simp] theorem held_readOps : held π (readOps dpa n s).2 = held π s := by simp [readOps]
@[simp] theorem held_readDesc : held π (readDesc addr s).2 = held π s := by simp [readDesc]

@[simp] theorem held_admission (own : Nat) (set : Option StepSetParams) :
    held π (admission own addr set s).2 = held π s := by
  simp only [admission]
  repeat' split
  all_goals simp

/-! ### Frames, packets and messages that go out -/

@[simp] theorem held_sendFrame (payload : List Byte) : held π (sendFrame port kind seq payload s) = held π s := by
  simp [sendFrame]

@[simp] theorem held_pumpFrames : held π (pumpFrames port n s) = held π s := by
  induction n generalizing s with
  | zero => rfl
  | succ n ih => simp [pumpFrames, ih]

@[simp] theorem held_handOver (bytes : List Byte) : held π (handOver port bytes s) = held π s := by simp [handOver]

@[simp] theorem held_putOut (op : Nat) (p : Packet) (wire : List Byte) :
    held π (putOut port op p wire s) = held π s := by
  simp [putOut]

@[simp] theorem held_mgmtVia (counter : Nat) (body : List Nat) :
    held π (mgmtVia port peer counter code body s) = held π s := by
  simp [mgmtVia]

@[simp] theorem held_mgmtSend (body : List Nat) : held π (mgmtSend peer code body s) = held π s := by
  simp only [mgmtSend]
  split <;> simp

@[simp] theorem held_reportSend (o : Nat → Out) : held π (reportSend o s) = held π s := by
  simp only [reportSend]
  split <;> simp

@[simp] theorem held_askRekey : held π (askRekey k s) = held π s := by simp [askRekey]
@[simp] theorem held_nextSeq : held π (nextSeq k s) = held π s := by simp [nextSeq]
@[simp] theorem held_beginRoll : held π (beginRoll k s) = held π s := by simp [beginRoll]

@[simp] theorem held_pumpOne : held π (pumpOne k s) = held π s := by
  simp only [pumpOne]
  repeat' split
  all_goals simp

@[simp] theorem held_pumpMany : held π (pumpMany k n s) = held π s := by
  induction n generalizing s with
  | zero => rfl
  | succ n ih => simp [pumpMany, ih]

@[simp] theorem held_pump : held π (pump k s) = held π s := by simp [pump]
@[simp] theorem held_pumpPort : held π (pumpPort port s) = held π s := by simp [pumpPort]

@[simp] theorem held_sendPacket (owner : Nat) (b : PktBody) : held π (sendPacket k owner b s) = held π s := by
  simp [sendPacket]

@[simp] theorem held_sendReply (b : PktBody) : held π (sendReply k b s) = held π s := by simp [sendReply]

@[simp] theorem held_stepSendOut (member : Nat) (o : Out) : held π (stepSendOut member code o s) = held π s := by
  simp [stepSendOut]

@[simp] theorem held_stepSend (member : Nat) (body : List Nat) : held π (stepSend member code body s) = held π s := by
  simp [stepSend]

@[simp] theorem held_stepSendAll (body : List Nat) : held π (stepSendAll code body s) = held π s := by
  simp only [stepSendAll]
  split <;> simp

/-! ### Fences and barriers -/

@[simp] theorem held_fencePut (v : Nat) : held π (fencePut c v s) = held π s := by simp [fencePut]
@[simp] theorem held_noteWaits : held π (noteWaits s) = held π s := by simp [noteWaits]
@[simp] theorem held_fenceAdd : held π (fenceAdd c n s) = held π s := by simp [fenceAdd]
@[simp] theorem held_fenceLocal : held π (fenceLocal c n s) = held π s := by simp [fenceLocal]
@[simp] theorem held_drainPending : held π (drainPending s) = held π s := by simp [drainPending]

@[simp] theorem held_barReleased (failed : Bool) : held π (barReleased b g failed code s) = held π s := by
  simp [barReleased]

@[simp] theorem held_barFinish (failed : Bool) (members : List Nat) :
    held π (barFinish b g failed code members s) = held π s := by
  simp [barFinish]

@[simp] theorem held_rootArrive (member : Nat) : held π (rootArrive b member g s) = held π s := by simp [rootArrive]
@[simp] theorem held_arriveLocal : held π (arriveLocal b s) = held π s := by simp [arriveLocal]
@[simp] theorem held_barSetup (p : BarrierParams) : held π (barSetup p s) = held π s := by simp [barSetup]
@[simp] theorem held_barPeerLost : held π (barPeerLost m s) = held π s := by simp [barPeerLost]

/-! ### Completion records -/

@[simp] theorem held_d2hDone : held π (d2hDone id s) = held π s := by simp [d2hDone]

@[simp] theorem held_queueRecord (r : RecFields) : held π (queueRecord cq index r s) = held π s := by
  simp only [queueRecord]
  split <;> simp

@[simp] theorem held_taskRecord (fault taskId opIx : Nat) (st : EngStatus) :
    held π (taskRecord ring index fault taskId opIx tile st s) = held π s := by
  simp [taskRecord]

@[simp] theorem held_updateRecord (status : Nat) : held π (updateRecord ring index slot status s) = held π s := by
  simp [updateRecord]

@[simp] theorem held_jobFaultRecord (step aborts : Nat) : held π (jobFaultRecord step code aborts s) = held π s := by
  simp [jobFaultRecord]

@[simp] theorem held_ringError (tail : Nat) : held π (ringError ring cause tail s) = held π s := by
  simp only [ringError]
  split <;> simp

@[simp] theorem held_cqError : held π (cqError cq s) = held π s := by simp [cqError]
@[simp] theorem held_retire : held π (retire ring index s) = held π s := by simp [retire]
@[simp] theorem held_announce (fault : Nat) : held π (announce cq fault s) = held π s := by simp [announce]
@[simp] theorem held_startRecord : held π (startRecord cq s) = held π s := by simp only [startRecord]; split <;> simp

@[simp] theorem held_recordLineDone : held π (recordLineDone cq s) = held π s := by
  simp only [recordLineDone]
  repeat' split
  all_goals simp

@[simp] theorem held_recordDone : held π (recordDone cq s) = held π s := by simp only [recordDone]; split <;> simp

/-! ### Window entries, tasks, faults, the ends of ops, the edges of a step -/

@[simp] theorem held_modEntry (f : Entry → Entry) : held π (modEntry tile uid f s) = held π s := by simp [modEntry]
@[simp] theorem held_dropEntry : held π (dropEntry tile uid s) = held π s := by simp [dropEntry]
@[simp] theorem held_freeTask : held π (freeTask tile k s) = held π s := by simp [freeTask]
@[simp] theorem held_startTask : held π (startTask tile k s) = held π s := by simp [startTask]
@[simp] theorem held_headWord : held π (headWord addr s).2 = held π s := by simp [headWord]
@[simp] theorem held_bindTask : held π (bindTask tile k s) = held π s := by simp [bindTask]
@[simp] theorem held_parkTask : held π (parkTask tile k s) = held π s := by simp [parkTask]
@[simp] theorem held_signalTask (d : DescWord) : held π (signalTask d s) = held π s := by simp [signalTask]

@[simp] theorem held_completeTask : held π (completeTask tile k s) = held π s := by
  simp only [completeTask]
  split <;> simp

@[simp] theorem held_endFaulted : held π (endFaulted tile k s) = held π s := by simp only [endFaulted]; split <;> simp

@[simp] theorem held_settleTask : held π (settleTask tile k s) = held π s := by
  simp only [settleTask]
  repeat' split
  all_goals simp

@[simp] theorem held_mgrAbort (weights : Bool) : held π (mgrAbort code weights s) = held π s := by
  simp only [mgrAbort]
  split <;> simp

@[simp] theorem held_stepFault (taskId : Nat) (weights : Bool) :
    held π (stepFault code taskId tile weights s) = held π s := by
  simp only [stepFault]
  repeat' split
  all_goals simp

@[simp] theorem held_faultTask (opIx : Nat) : held π (faultTask tile k code opIx s) = held π s := by simp [faultTask]
@[simp] theorem held_releaseClaims : held π (releaseClaims tile e s) = held π s := by simp [releaseClaims]
@[simp] theorem held_freeInstance : held π (freeInstance tile e s) = held π s := by simp [freeInstance]
@[simp] theorem held_completeTags : held π (completeTags tile e s) = held π s := by simp [completeTags]
@[simp] theorem held_countCross : held π (countCross tile e s) = held π s := by simp [countCross]
@[simp] theorem held_failOp : held π (failOp tile uid code s) = held π s := by simp only [failOp]; split <;> simp

@[simp] theorem held_completeOp (st : EngStatus) : held π (completeOp tile uid st s) = held π s := by
  simp only [completeOp]
  split <;> simp

@[simp] theorem held_cancelOps : held π (cancelOps tile k s) = held π s := by simp [cancelOps]
@[simp] theorem held_sendForOp (b : PktBody) : held π (sendForOp k tile uid b s) = held π s := by simp [sendForOp]

@[simp] theorem held_settlePacket (own : Nat) : held π (settlePacket own code s) = held π s := by
  simp only [settlePacket]
  repeat' split
  all_goals simp

@[simp] theorem held_winClaim : held π (winClaim w s) = held π s := by simp only [winClaim]; split <;> simp
@[simp] theorem held_winBegin : held π (winBegin w s) = held π s := by simp [winBegin]
@[simp] theorem held_winDiscard : held π (winDiscard w s) = held π s := by simp [winDiscard]
@[simp] theorem held_windowsBind (tag : Nat) : held π (windowsBind tag s) = held π s := by simp [windowsBind]

@[simp] theorem held_bindStep (h : StepHeader) (toks : List Nat) : held π (bindStep h toks s) = held π s := by
  simp only [bindStep]
  split <;> simp

@[simp] theorem held_tryBind : held π (tryBind s) = held π s := by
  simp only [tryBind]
  repeat' split
  all_goals simp

@[simp] theorem held_cancelTask (acc : List Ended × State) : held π (cancelTask tile k acc).2 = held π acc.2 := by
  simp only [cancelTask]
  split <;> simp

@[simp] theorem held_cancelTile {sel : EngineSel} {acc : List Ended × State} :
    held π (cancelTile sel tile acc).2 = held π acc.2 := by
  simp only [cancelTile]
  rw [held_foldl_snd]
  · simp
  · intro a w; split; split <;> simp
    simp

@[simp] theorem held_cancelTasks (q : EngineSel) : held π (cancelTasks q s).2 = held π s := by simp [cancelTasks]

@[simp] theorem held_enterFailed : held π (enterFailed s) = held π s := by
  simp only [enterFailed]
  repeat' split
  all_goals simp

@[simp] theorem held_cannotHold : held π (cannotHold s) = held π s := by simp [cannotHold]

/-! ### Operands in memory, with poison -/

@[simp] theorem held_halfFlags {h : Nat} : held π (halfFlags tile h n s).2 = held π s := by
  induction n generalizing h s with
  | zero => rfl
  | succ n ih => simp [halfFlags, ih]

@[simp] theorem held_slotReadP : held π (slotReadP who tile a n s).2 = held π s := by
  simp only [slotReadP]
  split <;> simp

@[simp] theorem held_pkgReadP : held π (pkgReadP cls hint dpa n s).2 = held π s := by simp [pkgReadP]

@[simp] theorem held_writeLineP (bs : List PByte) : held π (writeLineP cls hint dpa bs s) = held π s := by
  simp [writeLineP]

@[simp] theorem held_writeLinesP {bs : List PByte} : held π (writeLinesP cls hint dpa bs n s) = held π s := by
  induction n generalizing dpa bs s with
  | zero => rfl
  | succ n ih => simp [writeLinesP, ih]

@[simp] theorem held_pkgWriteP (bs : List PByte) : held π (pkgWriteP cls hint dpa bs s) = held π s := by
  simp [pkgWriteP]

@[simp] theorem held_rd (p : SlotAt) : held π (rd who p n r).2.2 = held π r.2 := by simp only [rd]; split <;> simp

@[simp] theorem held_rdRows {fmt rowPitch rows : Nat} {p : SlotAt} :
    held π (rdRows who fmt n rowPitch p rows r).2.2 = held π r.2 := by
  induction rows generalizing p r with
  | zero => rfl
  | succ rows ih => simp [rdRows, ih]

@[simp] theorem held_rdScales (p : SlotAt) (rows per : Nat) : held π (rdScales who p rows per r).2.2 = held π r.2 := by
  simp [rdScales]

@[simp] theorem held_wr (p : SlotAt) (bs : List Byte) : held π (wr who p bs r).2 = held π r.2 := by
  simp only [wr]
  split <;> simp

@[simp] theorem held_wrRows {fmt rowPitch : Nat} {p : SlotAt} {rows : List (List Nat)} :
    held π (wrRows who fmt rowPitch p rows r).2 = held π r.2 := by
  induction rows generalizing p r with
  | nil => rfl
  | cons row rows ih => simp [wrRows, ih]

@[simp] theorem held_internalKind : held π (internalKind cls s).2 = held π s := by
  simp only [internalKind]
  split <;> simp

@[simp] theorem held_engineError : held π (engineError tile uid e s) = held π s := by simp [engineError]

@[simp] theorem held_withParity {parity : Bool} {f : State → State} (h : ∀ s, held π (f s) = held π s) :
    held π (withParity tile uid cls code parity f s) = held π s := by
  simp only [withParity]
  split
  · split <;> simp
  · exact h s

@[simp] theorem held_endOp (bad : Bool) (st : EngStatus) : held π (endOp tile uid bad st s) = held π s := by
  simp [endOp]

@[simp] theorem held_endRun (r : EngRun) : held π (endRun tile uid r) = held π r.2.2 := by simp [endRun]

/-! ### CLOVE -/

@[simp] theorem held_queueReq (owner : Nat) (write : Bool) :
    held π (queueReq cls tile hint owner write dpa s) = held π s := by
  simp [queueReq]

@[simp] theorem held_queueClove : held π (queueClove tile e s) = held π s := by simp [queueClove]
@[simp] theorem held_sendReads : held π (sendReads tile e s) = held π s := by simp only [sendReads]; split <;> simp

@[simp] theorem held_readPieces (pl : Place) (ps : List (Nat × Nat)) : held π (readPieces pl ps s).2 = held π s := by
  simp only [readPieces]
  split <;> simp

@[simp] theorem held_writeLocal (pl : Place) (ws : List (Nat × Data)) :
    held π (writeLocal cls hint pl ws r).2 = held π r.2 := by
  simp only [writeLocal]
  split <;> simp

@[simp] theorem held_sendFar (pl : Place) (ws : List (Nat × Data)) : held π (sendFar tile uid pl ws s) = held π s := by
  simp only [sendFar]
  split <;> simp

@[simp] theorem held_awaitPackets : held π (awaitPackets tile uid s) = held π s := by
  simp only [awaitPackets]
  split <;> simp

@[simp] theorem held_clCount (rdn wrn : Nat) : held π (clCount tile e rdn wrn s) = held π s := by simp [clCount]
@[simp] theorem held_addStatus (st : EngStatus) : held π (addStatus tile k st s) = held π s := by simp [addStatus]
@[simp] theorem held_clRead : held π (clRead tile e s).2 = held π s := by simp only [clRead]; split <;> simp
@[simp] theorem held_clReady : held π (clReady tile e s) = held π s := by simp [clReady]
@[simp] theorem held_clLocal : held π (clLocal tile e s).2 = held π s := by simp [clLocal]
@[simp] theorem held_clTransfer : held π (clTransfer tile e s) = held π s := by simp only [clTransfer]; split <;> simp
@[simp] theorem held_clFinish : held π (clFinish tile uid code s) = held π s := by simp only [clFinish]; split <;> simp

@[simp] theorem held_kvGather (p : PoolParams) (es : List KvEntry) :
    held π (kvGather tile e p es s).2.2 = held π s := by
  simp [kvGather]

@[simp] theorem held_kvAppend (p : PoolParams) (es : List KvEntry) :
    held π (kvAppend tile e p es s).2.2 = held π s := by
  simp [kvAppend]

@[simp] theorem held_kvFinish : held π (kvFinish tile uid code s) = held π s := by
  simp only [kvFinish]
  repeat' split
  all_goals simp

/-! ### PEPPER: admission, filling, issue -/

@[simp] theorem held_pllOn : held π (pllOn tile s) = held π s := by simp [pllOn]
@[simp] theorem held_addTask (k : Task) : held π (addTask tile k s) = held π s := by simp [addTask]
@[simp] theorem held_waitingPrio (w : Waiting) : held π (waitingPrio w s).2 = held π s := by simp [waitingPrio]

@[simp] theorem held_nextAdmit : held π (nextAdmit s tile).2 = held π s := by
  simp only [nextAdmit]
  split
  · rfl
  · split
    · rfl
    · refine held_foldl_snd (fun a w => ?_)
      split <;> simp

@[simp] theorem held_refuseTask (src : TaskSource) (d : DescWord) :
    held π (refuseTask tile src d code index s) = held π s := by
  simp only [refuseTask]
  split <;> simp

@[simp] theorem held_admitNext : held π (admitNext tile s) = held π s := by
  have hnext := held_nextAdmit (π := π) (s := s) (tile := tile)
  simp only [admitNext]
  split
  · rfl
  · split <;> rename_i heq <;> rw [heq] at hnext
    · exact hnext
    · split <;> simp [hnext]

@[simp] theorem held_advanceTask : held π (advanceTask tile k s) = held π s := by simp [advanceTask]
@[simp] theorem held_readBlock : held π (readBlock tile k s) = held π s := by simp [readBlock]
@[simp] theorem held_fillOp : held π (fillOp tile k s) = held π s := by simp [fillOp]

@[simp] theorem held_fillLoop : held π (fillLoop tile n s) = held π s := by
  induction n generalizing s with
  | zero => rfl
  | succ n ih =>
    simp only [fillLoop]
    split
    · rfl
    · split <;> simp [ih]

@[simp] theorem held_countIssue : held π (countIssue tile e s) = held π s := by simp [countIssue]
@[simp] theorem held_completeCtl : held π (completeCtl tile e s) = held π s := by simp [completeCtl]
@[simp] theorem held_markIssued : held π (markIssued tile uid s) = held π s := by simp [markIssued]
@[simp] theorem held_barWait : held π (barWait tile e s) = held π s := by simp [barWait]
@[simp] theorem held_releaseWaits : held π (releaseWaits s) = held π s := by simp [releaseWaits]
@[simp] theorem held_sendResults : held π (sendResults s) = held π s := by simp only [sendResults]; split <;> simp
@[simp] theorem held_arriveOp : held π (arriveOp tile e b s) = held π s := by simp [arriveOp]
@[simp] theorem held_readRecord : held π (readRecord tile e s) = held π s := by simp only [readRecord]; split <;> simp

@[simp] theorem held_startEngine (inst : Nat) : held π (startEngine tile cls inst uid s) = held π s := by
  simp [startEngine]

@[simp] theorem held_charge (op : OpWord) : held π (charge tile op s) = held π s := by simp [charge]

@[simp] theorem held_issueOp {inst : Nat} : held π (issueOp tile e inst s) = held π s := by
  simp only [issueOp]
  split
  · rename_i hclove
    simp [hclove]
  · split
    · rw [held_forAll]
      · simp
      · intro a c
        split <;> simp
    · simp

@[simp] theorem held_issueNext : held π (issueNext tile cls s) = held π s := by
  simp only [issueNext]
  repeat' split
  all_goals simp

@[simp] theorem held_startGroup : held π (startGroup tile s) = held π s := by simp [startGroup]

/-! ### SAFFRON -/

@[simp] theorem held_sfRead (fmt d : Nat) (scaled : Bool) (blk : Nat) (p ps : SlotAt) (r : Nat) (a : Bool × State) :
    held π (sfRead fmt d scaled blk p ps r a).2.2 = held π a.2 := by
  simp only [sfRead]
  split <;> simp

@[simp] theorem held_sfFloats (p : SlotAt) : held π (sfFloats p n r).2.2 = held π r.2 := by simp [sfFloats]
@[simp] theorem held_sfPut (p : SlotAt) (vs : List FVal) : held π (sfPut p vs r).2 = held π r.2 := by simp [sfPut]

@[simp] theorem held_rdMask {p : SlotAt} {lines : Nat} : held π (rdMask p lines n r).2.2 = held π r.2 := by
  induction n generalizing p r with
  | zero => rfl
  | succ n ih => simp [rdMask, ih]

@[simp] theorem held_sfReadKv (c : List Byte) (op : OpWord) (q : SfRows) (p : SlotAt) :
    held π (sfReadKv c op q p r).2.2 = held π r.2 := by
  simp only [sfReadKv]
  repeat' split
  all_goals simp

@[simp] theorem held_sfFreq (c : List Byte) (own base : Nat) (used : Bool) :
    held π (sfFreq c own base used r).2.2 = held π r.2 := by
  simp only [sfFreq]
  split <;> simp

@[simp] theorem held_sfStates (c : List Byte) (p : SlotAt) (r : Nat) (a : Bool × State) :
    held π (sfStates c p r a).2.2 = held π a.2 := by
  simp [sfStates]

@[simp] theorem held_sfWrite (c : List Byte) (op : OpWord) (p : SlotAt) (rs : List (SfState × SfFin)) :
    held π (sfWrite c op p rs r).2.2 = held π r.2 := by
  simp only [sfWrite]
  split <;> simp

@[simp] theorem held_sfForward : held π (sfForward tile e s).2.2 = held π s := by simp only [sfForward]; split <;> simp
@[simp] theorem held_sfMergeOp : held π (sfMergeOp tile e s).2.2 = held π s := by simp [sfMergeOp]

@[simp] theorem held_sfBackward : held π (sfBackward tile e s).2.2 = held π s := by
  simp only [sfBackward]
  split <;> simp

@[simp] theorem held_sfRopeOp : held π (sfRopeOp tile e s).2.2 = held π s := by simp [sfRopeOp]

@[simp] theorem held_sfWork : held π (sfWork code tile e s).2.2 = held π s := by
  simp only [sfWork]
  repeat' split
  all_goals simp

@[simp] theorem held_sfFinish : held π (sfFinish tile uid code s) = held π s := by simp only [sfFinish]; split <;> simp

/-! ### SUMAC -/

@[simp] theorem held_smRead (op : OpWord) (fmt : Nat) (scaled : Bool) (p ps : SlotAt) (r : Nat) (a : Bool × State) :
    held π (smRead op fmt scaled n p ps r a).2.2 = held π a.2 := by
  simp only [smRead]
  split <;> simp

@[simp] theorem held_smMask (op : OpWord) (p : SlotAt) (r : Nat) (a : Bool × State) :
    held π (smMask op p r a).2.2 = held π a.2 := by
  simp [smMask]

@[simp] theorem held_smReadB (op : OpWord) (p : SlotAt) : held π (smReadB op p r).2.2 = held π r.2 := by
  simp only [smReadB]
  split <;> simp

@[simp] theorem held_smReadC (op : OpWord) (p : SlotAt) : held π (smReadC op p r).2.2 = held π r.2 := by
  simp only [smReadC]
  split <;> simp

@[simp] theorem held_smWrite (f : OutFmt) (p : SlotAt) (rows : List (List SmVal)) :
    held π (smWrite f n p rows r).2.2 = held π r.2 := by
  simp only [smWrite]
  split <;> simp

@[simp] theorem held_smReadA (op : OpWord) (p : SlotAt) : held π (smReadA op p r).2.2 = held π r.2 := by simp [smReadA]

@[simp] theorem held_smRun (nanScale : Bool) (masked nans : Nat) (r : OpFlags × Bool × State) :
    held π (smRun nanScale masked nans r).2.2 = held π r.2.2 := by
  simp [smRun]

@[simp] theorem held_smMap : held π (smMap tile e s).2.2 = held π s := by simp only [smMap]; split <;> simp
@[simp] theorem held_smCmpOp : held π (smCmpOp tile e s).2.2 = held π s := by simp [smCmpOp]
@[simp] theorem held_smSelectOp : held π (smSelectOp tile e s).2.2 = held π s := by simp [smSelectOp]

@[simp] theorem held_smReduce : held π (smReduce tile e s).2.2 = held π s := by
  simp only [smReduce]
  repeat' split
  all_goals simp

@[simp] theorem held_smNorm : held π (smNorm tile e s).2.2 = held π s := by simp only [smNorm]; split <;> simp

@[simp] theorem held_smSoftOp : held π (smSoftOp tile e s).2.2 = held π s := by
  simp only [smSoftOp]
  repeat' split
  all_goals simp

@[simp] theorem held_smWork : held π (smWork code tile e s).2.2 = held π s := by
  simp only [smWork]
  repeat' split
  all_goals simp

@[simp] theorem held_smFinish : held π (smFinish tile uid code s) = held π s := by simp only [smFinish]; split <;> simp

/-! ### ANISE -/

@[simp] theorem held_anReportTo (f : TokenReport → TokenReport) : held π (anReportTo e f s) = held π s := by
  simp [anReportTo]

@[simp] theorem held_anHistory (op : OpWord) (p : SlotAt) : held π (anHistory op p r).2.2 = held π r.2 := by
  simp only [anHistory]
  repeat' split
  all_goals simp

@[simp] theorem held_anRows_ (op : OpWord) (p : SlotAt) (r : Nat) (a : Bool × State) :
    held π (anRows_ op p r a).2.2 = held π a.2 := by
  simp [anRows_]

@[simp] theorem held_anEntry (op : OpWord) (p : SlotAt) : held π (anEntry op p r).2.2 = held π r.2 := by simp [anEntry]

@[simp] theorem held_sampleReport (op : OpWord) (rs : List AnRes) : held π (sampleReport op e rs s) = held π s := by
  simp [sampleReport]

@[simp] theorem held_anSampleOp : held π (anSampleOp tile e s).2.2 = held π s := by simp [anSampleOp]

@[simp] theorem held_anVerifyOp : held π (anVerifyOp tile e s).2.2 = held π s := by
  simp only [anVerifyOp]
  split <;> simp

@[simp] theorem held_anWork : held π (anWork code tile e s).2.2 = held π s := by
  simp only [anWork]
  repeat' split
  all_goals simp

@[simp] theorem held_anFinish : held π (anFinish tile uid code s) = held π s := by simp only [anFinish]; split <;> simp

/-! ### FENNEL -/

@[simp] theorem held_fnWord : held π (fnWord addr n s).2 = held π s := by simp [fnWord]
@[simp] theorem held_fnPut (v : Nat) : held π (fnPut addr n v s) = held π s := by simp [fnPut]

@[simp] theorem held_setFreeHead (h : Nat) (hpool : π ≠ .pool) : held π (setFreeHead tile h s) = held π s := by
  simp [setFreeHead, hpool]

@[simp] theorem held_setDead (l : List Nat) (hpool : π ≠ .pool) : held π (setDead tile l s) = held π s := by
  simp [setDead, hpool]

@[simp] theorem held_setWork (l : List FoldWork) (hpool : π ≠ .pool) : held π (setWork tile l s) = held π s := by
  simp [setWork, hpool]

@[simp] theorem held_pushFree (p : PoolParams) (page : Nat) (hpool : π ≠ .pool) :
    held π (pushFree tile p page s) = held π s := by
  simp [pushFree, hpool]

@[simp] theorem held_decPage (p : PoolParams) (page : Nat) (hpool : π ≠ .pool) :
    held π (decPage tile p page s) = held π s := by
  simp [decPage, hpool]

@[simp] theorem held_workEntry (p : PoolParams) (w : FoldWork) (hpool : π ≠ .pool) :
    held π (workEntry tile p w s).2 = held π s := by
  simp only [workEntry]
  split <;> simp [hpool]

@[simp] theorem held_foldStep (p : PoolParams) (hpool : π ≠ .pool) : held π (foldStep tile p s) = held π s := by
  simp only [foldStep]
  split <;> simp [hpool]

@[simp] theorem held_foldMany {p : PoolParams} (hpool : π ≠ .pool) : held π (foldMany tile p n s) = held π s := by
  induction n generalizing s with
  | zero => rfl
  | succ n ih => simp [foldMany, ih, hpool]

@[simp] theorem held_foldAll (p : PoolParams) (hpool : π ≠ .pool) : held π (foldAll tile p s) = held π s := by
  simp [foldAll, hpool]

@[simp] theorem held_foldTiles (hpool : π ≠ .pool) : held π (foldTiles s) = held π s := by
  simp only [foldTiles]
  split <;> simp [hpool]

@[simp] theorem held_reclaim (p : PoolParams) (hpool : π ≠ .pool) : held π (reclaim tile p s) = held π s := by
  simp only [reclaim]
  split <;> simp [hpool]

@[simp] theorem held_background (hpool : π ≠ .pool) : held π (background tile s) = held π s := by
  simp only [background]
  split <;> simp [hpool]

@[simp] theorem held_commitTile (p : PoolParams) (ns : List PageNotice) (hpool : π ≠ .pool) :
    held π (commitTile p ns s tile) = held π s := by
  simp [commitTile, hpool]

@[simp] theorem held_fennelCommit (ns : List PageNotice) (hpool : π ≠ .pool) :
    held π (fennelCommit n ns s) = held π s := by
  simp only [fennelCommit]
  split <;> simp [hpool]

@[simp] theorem held_fennelAbort (hpool : π ≠ .pool) : held π (fennelAbort s) = held π s := by
  simp only [fennelAbort]
  split
  · simp only [held_update_pool, hpool, ne_eq, not_false_eq_true]
    exact held_forAll fun a t => held_forAll fun b g => by simp [hpool]
  · simp [hpool]

@[simp] theorem held_rebuildTile (p : PoolParams) (hpool : π ≠ .pool) : held π (rebuildTile p s tile) = held π s := by
  simp [rebuildTile, hpool]

@[simp] theorem held_fennelRestore (hpool : π ≠ .pool) : held π (fennelRestore s) = held π s := by
  simp only [fennelRestore]
  split <;> simp [hpool]

@[simp] theorem held_fnRead (r : FnRun) : held π (fnRead addr n r).2.s = held π r.s := by simp [fnRead]

@[simp] theorem held_overlayAt (j : FnJob) (l : Nat) (r : FnRun) : held π (overlayAt j l b r).2.s = held π r.s := by
  simp only [overlayAt]
  split <;> simp

@[simp] theorem held_addOverlay (j : FnJob) (l pte src : Nat) (hpool : π ≠ .pool) :
    held π (addOverlay j l b pte src n s) = held π s := by
  simp [addOverlay, hpool]

@[simp] theorem held_committedAt (j : FnJob) (l : Nat) (r : FnRun) : held π (committedAt j l b r).2.s = held π r.s := by
  simp only [committedAt]
  split <;> simp

@[simp] theorem held_takePage (j : FnJob) (r : FnRun) (hpool : π ≠ .pool) : held π (takePage j g r).s = held π r.s := by
  simp [takePage, hpool]

@[simp] theorem held_allocPage (j : FnJob) (r : FnRun) (hpool : π ≠ .pool) :
    held π (allocPage j r).2.s = held π r.s := by
  simp only [allocPage]
  repeat' split
  all_goals simp [hpool]

@[simp] theorem held_listPair (l src dst : Nat) (r : FnRun) : held π (listPair l src dst n r).s = held π r.s := by
  simp only [listPair]
  split <;> simp

@[simp] theorem held_appendPage {j : FnJob} {start l : Nat} {a : FnRun} (hpool : π ≠ .pool) :
    held π (appendPage j start l b a).2.s = held π a.s := by
  have hover := held_overlayAt (π := π) (j := j) (l := l) (b := b) (r := a)
  simp only [appendPage]
  split <;> rename_i heq <;> rw [heq] at hover
  · split <;> simp [hover]
  · repeat' split
    all_goals simp [hover, hpool]

@[simp] theorem held_appendBlock (j : FnJob) (lo hi : Nat) (r : FnRun) (x : Nat × Nat) (hpool : π ≠ .pool) :
    held π (appendBlock j lo hi r x).s = held π r.s := by
  simp only [appendBlock]
  split <;> simp [hpool]

@[simp] theorem held_gatherBlock {j : FnJob} {lo hi : Nat} {a : FnRun} {x : Nat × Nat} :
    held π (gatherBlock j lo hi a x).s = held π a.s := by
  have hover := held_overlayAt (π := π) (j := j) (l := x.1) (b := x.2) (r := a)
  simp only [gatherBlock]
  split
  · rfl
  · split <;> rename_i heq <;> rw [heq] at hover <;> simp [hover]

@[simp] theorem held_stampPage (j : FnJob) (r : FnRun) : held π (stampPage j r g).s = held π r.s := by
  simp only [stampPage]
  repeat' split
  all_goals simp

@[simp] theorem held_fnBlocks (p : PoolParams) (hpool : π ≠ .pool) :
    held π (fnBlocks code tile e p s).s = held π s := by
  simp only [fnBlocks]
  split <;> simp [hpool]

@[simp] theorem held_fnStamped (p : PoolParams) (hpool : π ≠ .pool) :
    held π (fnStamped code tile e p s).s = held π s := by
  simp [fnStamped, hpool]

@[simp] theorem held_fnListed (p : PoolParams) (hpool : π ≠ .pool) : held π (fnListed code tile e p s) = held π s := by
  simp [fnListed, hpool]

@[simp] theorem held_fnFinish (hpool : π ≠ .pool) : held π (fnFinish tile uid code s) = held π s := by
  simp only [fnFinish]
  repeat' split
  all_goals simp [hpool]

/-! ### Snoops -/

@[simp] theorem held_snoopLine (entry : Nat) (x : Nat × Bool) : held π (snoopLine tile entry s x) = held π s := by
  simp [snoopLine]

@[simp] theorem held_clearTouch : held π (clearTouch s) = held π s := by simp [clearTouch]
@[simp] theorem held_moveTouched (node : Nat) : held π (moveTouched node s) = held π s := by simp [moveTouched]
@[simp] theorem held_endTouch (node : Nat) : held π (endTouch node s) = held π s := by simp [endTouch]

@[simp] theorem held_withSnoopAt {i : Instr} {f : State → State} (h : ∀ s, held π (f s) = held π s) :
    held π (withSnoopAt n i f s) = held π s := by
  simp [withSnoopAt, h]

@[simp] theorem held_withSnoop {i : Instr} {f : State → State} (h : ∀ s, held π (f s) = held π s) :
    held π (withSnoop i f s) = held π s := held_withSnoopAt h

/-! ### Adders and epochs of windows -/

@[simp] theorem held_addCounts (c : ReCounts) : held π (addCounts w c s) = held π s := by simp [addCounts]
@[simp] theorem held_winZero : held π (winZero w s) = held π s := by simp [winZero]

@[simp] theorem held_foldLine (x : Window) (publish o : Nat) : held π (foldLine x publish s o) = held π s := by
  simp [foldLine]

@[simp] theorem held_winFold : held π (winFold w s) = held π s := by simp [winFold]
@[simp] theorem held_winMark : held π (winMark w s) = held π s := by simp only [winMark]; split <;> simp
@[simp] theorem held_shardBytes (x : Window) : held π (shardBytes x s).2 = held π s := by simp [shardBytes]
@[simp] theorem held_winPublish : held π (winPublish w s) = held π s := by simp [winPublish]

@[simp] theorem held_winComplete : held π (winComplete w s) = held π s := by
  simp only [winComplete]
  repeat' split
  all_goals simp

@[simp] theorem held_winCheck : held π (winCheck w s) = held π s := by simp only [winCheck]; split <;> simp
@[simp] theorem held_settleLasts : held π (settleLasts w s) = held π s := by simp [settleLasts]
@[simp] theorem held_settleLocal : held π (settleLocal stream s) = held π s := by simp [settleLocal]

@[simp] theorem held_adderApply (a : Accum) : held π (adderApply a s) = held π s := by
  simp only [adderApply]
  split <;> simp

@[simp] theorem held_dropAccum (mc : Nat) (a : Accum) : held π (dropAccum mc a s) = held π s := by simp [dropAccum]
@[simp] theorem held_adderServe (mc : Nat) (a : Accum) : held π (adderServe mc a s) = held π s := by simp [adderServe]
@[simp] theorem held_drainStream : held π (drainStream stream s) = held π s := by simp [drainStream]

@[simp] theorem held_queueVals (window : Nat) (isWin : Bool) (fmt : Nat) (vals : List Nat) (poison : Bool) :
    held π (queueVals stream seq window isWin fmt addr vals poison s) = held π s := by
  simp [queueVals]

@[simp] theorem held_winCommit : held π (winCommit w s) = held π s := by simp [winCommit]
@[simp] theorem held_windowsCommit : held π (windowsCommit s) = held π s := by simp [windowsCommit]
@[simp] theorem held_windowsAbort : held π (windowsAbort s) = held π s := by simp [windowsAbort]

/-! ### The conductor and a member's side of a step -/

@[simp] theorem held_learnMember : held π (learnMember s m) = held π s := by simp [learnMember]
@[simp] theorem held_learnMembers : held π (learnMembers s) = held π s := by simp only [learnMembers]; split <;> simp
@[simp] theorem held_addNotice (n : PageNotice) : held π (addNotice n s) = held π s := by simp [addNotice]
@[simp] theorem held_newSeqApply (n : NewSeq) : held π (newSeqApply n s) = held π s := by simp [newSeqApply]
@[simp] theorem held_newSeq (n : NewSeq) : held π (newSeq n s).2 = held π s := by simp only [newSeq]; split <;> simp
@[simp] theorem held_endSeq (status : Nat) : held π (endSeq slot status s) = held π s := by simp [endSeq]

@[simp] theorem held_finishSeq : held π (finishSeq slot s).2 = held π s := by
  simp only [finishSeq]
  repeat' split
  all_goals simp

@[simp] theorem held_sampleSeq (sample : Nat) : held π (sampleSeq slot sample s).2 = held π s := by
  simp only [sampleSeq]
  repeat' split
  all_goals simp

@[simp] theorem held_admitFrom {l : Seqs} : held π (admitFrom l s) = held π s := by
  induction l generalizing s with
  | nil => rfl
  | cons x l ih => simp [admitFrom, ih]

@[simp] theorem held_admitSeqs : held π (admitSeqs s) = held π s := by simp [admitSeqs]
@[simp] theorem held_askPrompt (line : Nat) : held π (askPrompt slot s line) = held π s := by simp [askPrompt]

@[simp] theorem held_beginForm (p : StepSetParams) (pool : PoolParams) (xs : List SeqPlace) :
    held π (beginForm p pool xs s) = held π s := by
  simp [beginForm]

@[simp] theorem held_sendRun (r : RetStep) (rerun : Bool) : held π (sendRun r rerun s) = held π s := by
  simp only [sendRun]
  split <;> simp

@[simp] theorem held_finishForm : held π (finishForm s) = held π s := by simp only [finishForm]; split <;> simp

@[simp] theorem held_formStep : held π (formStep s) = held π s := by
  simp only [formStep]
  repeat' split
  all_goals simp

@[simp] theorem held_promptData (data : List Byte) : held π (promptData id data s) = held π s := by simp [promptData]
@[simp] theorem held_promptFailed : held π (promptFailed id s) = held π s := by simp only [promptFailed]; split <;> simp

@[simp] theorem held_openToken (r : SeqRec) (t : TokenReport) : held π (openToken r t s) = held π s := by
  simp [openToken]

@[simp] theorem held_tokensRecord (step fault : Nat) (t : TokenReport) :
    held π (tokensRecord slot step fault t s) = held π s := by
  simp [tokensRecord]

@[simp] theorem held_commitRec (r : RetStep) (x : SeqRec) : held π (commitRec r s x) = held π s := by simp [commitRec]
@[simp] theorem held_commitNotice (n : PageNotice) : held π (commitNotice s n) = held π s := by simp [commitNotice]

@[simp] theorem held_sendCommit (step : Nat) (ns : List PageNotice) : held π (sendCommit step ns s m) = held π s := by
  simp [sendCommit]

@[simp] theorem held_commitIn (step : Nat) (ns : List PageNotice) (hpool : π ≠ .pool) :
    held π (commitIn step ns s) = held π s := by
  simp [commitIn, hpool]

@[simp] theorem held_commitStep (hpool : π ≠ .pool) : held π (commitStep s) = held π s := by
  simp only [commitStep]
  split <;> simp [hpool]

theorem held_stepRecv {src num : Nat} {t : State} (h : stepRecv src num s = some t) : held π t = held π s := by
  simp only [stepRecv] at h
  split at h
  · cases h; rfl
  · split at h
    · cases h; simp
    · cases h

@[simp] theorem held_headerIn (h : StepHeader) : held π (headerIn h s) = held π s := by
  simp only [headerIn]
  split <;> simp

@[simp] theorem held_tokensIn (toks : List Nat) : held π (tokensIn toks s) = held π s := by
  simp only [tokensIn]
  split <;> simp

@[simp] theorem held_cancelSteps : held π (cancelSteps s) = held π s := by simp [cancelSteps]
@[simp] theorem held_parkSteps : held π (parkSteps s) = held π s := by simp [parkSteps]

@[simp] theorem held_clearStepTags : held π (clearStepTags s) = held π s := by
  refine held_forAll (fun b g => ?_)
  dsimp only; split <;> simp

@[simp] theorem held_resubmit (x : SetTask) : held π (resubmit s x) = held π s := by simp [resubmit]
@[simp] theorem held_resubmitAll : held π (resubmitAll s) = held π s := by simp only [resubmitAll]; split <;> simp

@[simp] theorem held_restoreCounters : held π (restoreCounters s) = held π s := by
  simp only [restoreCounters]
  split <;> simp

@[simp] theorem held_dropArrivals : held π (dropArrivals code s) = held π s := by simp [dropArrivals]

@[simp] theorem held_abortIn (step : Nat) : held π (abortIn step code s) = held π s := by
  simp only [abortIn]
  split <;> simp

@[simp] theorem held_undoStep (hpool : π ≠ .pool) : held π (undoStep code s) = held π s := by simp [undoStep, hpool]
@[simp] theorem held_payDone : held π (payDone s) = held π s := by simp only [payDone]; split <;> simp

@[simp] theorem held_abortSettled (hpool : π ≠ .pool) : held π (abortSettled s) = held π s := by
  simp only [abortSettled]
  split <;> simp [hpool]

@[simp] theorem held_memberFault (taskId : Nat) : held π (memberFault code taskId s) = held π s := by simp [memberFault]
@[simp] theorem held_rerunStep : held π (rerunStep s) = held π s := by simp only [rerunStep]; split <;> simp
@[simp] theorem held_discardStep (hpool : π ≠ .pool) : held π (discardStep s) = held π s := by simp [discardStep, hpool]

/-! ### The host link -/

@[simp] theorem held_fetchTail (r : Nat) : held π (fetchTail r s) = held π s := by simp [fetchTail]
@[simp] theorem held_fetchHead : held π (fetchHead c s) = held π s := by simp [fetchHead]
@[simp] theorem held_watcherWake (head : Bool) : held π (watcherWake head ring s) = held π s := by simp [watcherWake]
@[simp] theorem held_newTail : held π (newTail ring n s) = held π s := by simp [newTail]

@[simp] theorem held_readData (data : List Byte) : held π (readData id data s) = held π s := by
  simp only [readData]
  split <;> simp

@[simp] theorem held_writeDone : held π (writeDone id s) = held π s := by simp only [writeDone]; split <;> simp

@[simp] theorem held_snoopTimeout (line entry : Nat) : held π (snoopTimeout line tile entry s) = held π s := by
  simp [snoopTimeout]

@[simp] theorem held_hostTimeout : held π (hostTimeout id s) = held π s := by
  simp only [hostTimeout]
  repeat' split
  all_goals simp

@[simp] theorem held_takeDesc : held π (takeDesc ring index s) = held π s := by simp [takeDesc]

@[simp] theorem held_faultDesc (fault : Nat) (d : DescSlot) : held π (faultDesc ring fault d s) = held π s := by
  simp [faultDesc]

@[simp] theorem held_withDesc {want : DescSlot → Bool} {f : DescSlot → State → State}
    (h : ∀ d s, held π (f d s) = held π s) : held π (withDesc ring want f s) = held π s := by
  unfold withDesc; repeat' split
  all_goals simp [h]

@[simp] theorem held_submitTask (d : DescSlot) : held π (submitTask ring d s) = held π s := by simp [submitTask]
@[simp] theorem held_noteUpdate : held π (noteUpdate slot index s) = held π s := by simp [noteUpdate]

@[simp] theorem held_applyUpdate (d : DescSlot) (r : Nat × State) : held π (applyUpdate ring d r) = held π r.2 := by
  simp [applyUpdate]

@[simp] theorem held_hdmCommit (base : Nat) : held π (hdmCommit base s) = held π s := by simp [hdmCommit]
@[simp] theorem held_listLine (line : Nat) : held π (listLine line s) = held π s := by simp [listLine]

@[simp] theorem held_hostRead.hostReadNow (line : Nat) (caches : Bool) :
    held π (hostRead.hostReadNow line caches s) = held π s := by
  simp [hostRead.hostReadNow]

@[simp] theorem held_hostRead {i : Instr} {caches : Bool} : held π (hostRead i off caches s) = held π s := by
  simp only [hostRead]
  repeat' split
  all_goals simp

@[simp] theorem held_hostWrite (c : Instr) (data : List Byte) (poison : Bool) :
    held π (hostWrite c off data poison s) = held π s := by
  simp [hostWrite]

@[simp] theorem held_snoopAnswer (line : Nat) (dirty : List Byte) : held π (snoopAnswer line dirty s) = held π s := by
  simp [snoopAnswer]

@[simp] theorem held_keyProg (dir sub keySet refresh key : Nat) :
    held π (keyProg stream dir sub keySet refresh key s) = held π s := by
  simp only [keyProg]
  split <;> simp

@[simp] theorem held_keyGo (keySet : Nat) : held π (keyGo stream keySet s) = held π s := by simp [keyGo]
@[simp] theorem held_ideLost : held π (ideLost s) = held π s := by simp [ideLost]
@[simp] theorem held_moderationEnds : held π (moderationEnds cq s) = held π s := by simp [moderationEnds]
@[simp] theorem held_holdoffEnds : held π (holdoffEnds s) = held π s := by simp [holdoffEnds]

/-! ### Mailboxes -/

@[simp] theorem held_modMb (v : Via) (f : Mailbox → Mailbox) : held π (modMb v f s) = held π s := by
  simp only [modMb]
  split <;> simp

@[simp] theorem held_mbInterrupt (v : Via) : held π (mbInterrupt v s) = held π s := by
  simp only [mbInterrupt]
  split <;> simp

@[simp] theorem held_mbEvent (v : Via) : held π (mbEvent v s) = held π s := by simp [mbEvent]

@[simp] theorem held_takeCounter : held π (takeCounter q s) = held π s := by
  simp only [takeCounter]
  repeat' split
  all_goals simp

@[simp] theorem held_respond (status : Nat) (body : List Byte) : held π (respond q code status body s) = held π s := by
  simp only [respond]
  split <;> simp

@[simp] theorem held_refuse (status : Nat) : held π (refuse status s).state = held π s := by simp [refuse]
@[simp] theorem held_accept : held π (accept s).state = held π s := by simp [accept]

@[simp] theorem held_runMail {via states : Nat} {auth claim : Bool} {f : State → Answer}
    (h : ∀ s, held π (f s).state = held π s) : held π (runMail code via states auth claim q f s) = held π s := by
  have hf := h s
  simp only [runMail]
  cases hfs : f s <;> simp_all

@[simp] theorem held_runGuarded {i : Instr} {via states : Nat} {auth claim : Bool} {f : State → Answer}
    (h : ∀ s, held π (f s).state = held π s) : held π (runGuarded i code via states auth claim q f s) = held π s := by
  simp [runGuarded, h]

@[simp] theorem held_mailbox {i : Instr} {via states : Nat} {auth claim : Bool} {f : State → Answer}
    (h : ∀ s, held π (f s).state = held π s) : held π (mailbox i code via states auth claim q f s) = held π s := by
  simp [mailbox, h]

@[simp] theorem held_freeExecutor : held π (freeExecutor s) = held π s := by simp [freeExecutor]

/-! ### Packets that come in -/

@[simp] theorem held_resendAll (rs : List Retained) : held π (resendAll k rs s) = held π s := by simp [resendAll]
@[simp] theorem held_resendFrom : held π (resendFrom k n s) = held π s := by simp [resendFrom]
@[simp] theorem held_settleAll (rs : List Retained) : held π (settleAll rs code s) = held π s := by simp [settleAll]
@[simp] theorem held_ackUpTo : held π (ackUpTo k n s) = held π s := by simp [ackUpTo]
@[simp] theorem held_halveCap : held π (halveCap port peer s) = held π s := by simp [halveCap]
@[simp] theorem held_growCap : held π (growCap port peer s) = held π s := by simp [growCap]
@[simp] theorem held_dropUnsent (owner : Nat) : held π (dropUnsent k owner s) = held π s := by simp [dropUnsent]

@[simp] theorem held_refusedAt (reason : Nat) : held π (refusedAt k n reason s) = held π s := by
  simp only [refusedAt]
  split <;> simp

@[simp] theorem held_sendAck : held π (sendAck k s) = held π s := by simp [sendAck]
@[simp] theorem held_sendNak : held π (sendNak k s) = held π s := by simp [sendNak]

@[simp] theorem held_sendRefuse (reason : Nat) (p : Packet) : held π (sendRefuse k reason p s) = held π s := by
  simp [sendRefuse]

@[simp] theorem held_arrive (op : Nat) (p : Packet) : held π (arrive port op p s) = held π s := by simp [arrive]

@[simp] theorem held_screen (op : Nat) (p : Packet) : held π (screen port op p s).2 = held π s := by
  simp only [screen]
  repeat' split
  all_goals simp

@[simp] theorem held_inSequence {op : Nat} {p : Packet} {f : Nat → State → Took}
    (h : ∀ k s, held π (f k s).state = held π s) :
    held π (inSequence port op p f s) = held π s := by
  have hscreen := held_screen (π := π) (port := port) (op := op) (p := p) (s := s)
  simp only [inSequence]
  split <;> rename_i heq <;> rw [heq] at hscreen
  · exact hscreen
  · rename_i k s1
    have hf := h k s1
    repeat' split
    all_goals simp_all

@[simp] theorem held_outOfSequence {op : Nat} {p : Packet} {f : Nat → State → State}
    (h : ∀ k s, held π (f k s) = held π s) :
    held π (outOfSequence port op p f s) = held π s := by
  have hscreen := held_screen (π := π) (port := port) (op := op) (p := p) (s := s)
  simp only [outOfSequence]
  split <;> rename_i heq <;> rw [heq] at hscreen
  · exact hscreen
  · simp [h, hscreen]

@[simp] theorem held_inOrder {f : State → Took} (h : ∀ s, held π (f s).state = held π s) :
    held π (inOrder k f s).state = held π s := by
  simp [inOrder, h]

@[simp] theorem held_pastFold {t : Took} (h : held π t.state = held π s) :
    held π (pastFold dpa n t s).state = held π s := by
  simp [pastFold, h]

@[simp] theorem held_winAccept (p : Packet) : held π (winAccept w k p s) = held π s := by simp [winAccept]

@[simp] theorem held_windowWrite (p : Packet) : held π (windowWrite k p s) = held π s := by
  simp only [windowWrite]
  repeat' split
  all_goals simp

@[simp] theorem held_trustWrite (p : Packet) : held π (trustWrite p s) = held π s := by simp [trustWrite]
@[simp] theorem held_busyAnswer : held π (busyAnswer k s).state = held π s := by simp [busyAnswer]
@[simp] theorem held_writeAt (p : Packet) : held π (writeAt p k s).state = held π s := by simp [writeAt]
@[simp] theorem held_onWrite (p : Packet) : held π (onWrite p k s).state = held π s := by simp [onWrite]
@[simp] theorem held_answerRead (p : Packet) : held π (answerRead k p dpa s) = held π s := by simp [answerRead]
@[simp] theorem held_readAt (p : Packet) : held π (readAt p k s).state = held π s := by simp [readAt]
@[simp] theorem held_onRead (p : Packet) : held π (onRead p k s).state = held π s := by simp [onRead]

@[simp] theorem held_onReadResp {p : Packet} : held π (onReadResp p k s).state = held π s := by
  refine held_inOrder (fun s => ?_)
  dsimp only; split <;> simp

@[simp] theorem held_queueWindow (offset : Nat) (vals : List Nat) (poison last : Bool) :
    held π (queueWindow stream seq w offset vals poison last s) = held π s := by
  simp [queueWindow]

@[simp] theorem held_boardAccum (p : Packet) : held π (boardAccum k p s) = held π s := by
  simp only [boardAccum]
  split <;> simp

@[simp] theorem held_accumAt (p : Packet) : held π (accumAt p k s).state = held π s := by simp [accumAt]

@[simp] theorem held_onAccum {p : Packet} : held π (onAccum p k s).state = held π s := by
  have hrun (a : State) := held_accumAt (π := π) (p := p) (k := k) (s := a)
  simp only [onAccum]
  split
  · have h := hrun s
    split <;> simp_all
  · rw [held_inOrder]
    intro a
    have h := hrun a
    split <;> simp_all

@[simp] theorem held_onFenceInc {p : Packet} : held π (onFenceInc p k s).state = held π s := by
  refine held_inOrder (fun s => ?_)
  dsimp only; repeat' split
  all_goals simp

@[simp] theorem held_onBarArrive (p : Packet) : held π (onBarArrive p k s).state = held π s := by simp [onBarArrive]
@[simp] theorem held_onBarRelease (p : Packet) : held π (onBarRelease p k s).state = held π s := by simp [onBarRelease]
@[simp] theorem held_onAck (p : Packet) : held π (onAck p k s) = held π s := by simp [onAck]
@[simp] theorem held_onNak (p : Packet) : held π (onNak p k s) = held π s := by simp [onNak]
@[simp] theorem held_onRefuse (p : Packet) : held π (onRefuse p k s) = held π s := by simp [onRefuse]
@[simp] theorem held_freePending : held π (freePending k s) = held π s := by simp [freePending]

@[simp] theorem held_endOpen (status : Nat) : held π (endOpen k status s) = held π s := by
  simp only [endOpen]
  split <;> simp

@[simp] theorem held_resetChan : held π (resetChan k s) = held π s := by simp [resetChan]

/-! ### Members, channels, peers -/

@[simp] theorem held_rebuildRoutes : held π (rebuildRoutes s) = held π s := by simp [rebuildRoutes]
@[simp] theorem held_openChan (low high : Nat) : held π (openChan k port low high s) = held π s := by simp [openChan]
@[simp] theorem held_peerOpens : held π (peerOpens k s) = held π s := by simp [peerOpens]
@[simp] theorem held_reopenChan : held π (reopenChan k s) = held π s := by simp [reopenChan]
@[simp] theorem held_reopenWhere (f : Nat → Bool) : held π (reopenWhere f s) = held π s := by simp [reopenWhere]
@[simp] theorem held_reopenAll : held π (reopenAll s) = held π s := by simp [reopenAll]

@[simp] theorem held_serveAgain (was : ModState) : held π (serveAgain was s) = held π s := by
  simp only [serveAgain]
  repeat' split
  all_goals simp

@[simp] theorem held_backReady : held π (backReady s) = held π s := by simp [backReady]

@[simp] theorem held_resendStep : held π (resendStep m s) = held π s := by
  simp only [resendStep]
  repeat' split
  all_goals simp

@[simp] theorem held_payOwed : held π (payOwed m s) = held π s := by simp [payOwed]
@[simp] theorem held_sendNotice : held π (sendNotice w peer s) = held π s := by simp only [sendNotice]; split <;> simp
@[simp] theorem held_parkForManager : held π (parkForManager s) = held π s := by simp [parkForManager]
@[simp] theorem held_memberDown : held π (memberDown m s) = held π s := by simp [memberDown]
@[simp] theorem held_memberUp : held π (memberUp m s) = held π s := by simp [memberUp]
@[simp] theorem held_endAdmission : held π (endAdmission m s) = held π s := by simp [endAdmission]
@[simp] theorem held_memberGone (hpool : π ≠ .pool) : held π (memberGone m s) = held π s := by simp [memberGone, hpool]
@[simp] theorem held_settlePair : held π (settlePair m s) = held π s := by simp [settlePair]

theorem held_mgmtRecv {m counter : Nat} {tagOk : Bool} {t : State} (h : mgmtRecv m counter tagOk s = some t) :
    held π t = held π s := by
  simp only [mgmtRecv] at h
  split at h
  · cases h; simp
  · cases h

@[simp] theorem held_rekeyPair (secret : Nat) : held π (rekeyPair m secret s) = held π s := by simp [rekeyPair]

/-! ### Ports -/

@[simp] theorem held_portReport (before : Nat) : held π (portReport port before s) = held π s := by simp [portReport]
@[simp] theorem held_abortStepTasks : held π (abortStepTasks s) = held π s := by simp [abortStepTasks]
@[simp] theorem held_leaveUp : held π (leaveUp port s) = held π s := by simp [leaveUp]
@[simp] theorem held_portDown : held π (portDown port cause s) = held π s := by simp [portDown]
@[simp] theorem held_portQuarantine : held π (portQuarantine port cause s) = held π s := by simp [portQuarantine]
@[simp] theorem held_portGoUp (minor : Nat) : held π (portGoUp port minor s) = held π s := by simp [portGoUp]
@[simp] theorem held_startTraining : held π (startTraining port s) = held π s := by simp [startTraining]

@[simp] theorem held_checkMapping (r : IdRecord) : held π (checkMapping port r s) = held π s := by
  simp only [checkMapping]
  repeat' split
  all_goals simp

@[simp] theorem held_dropReach (r : IdRecord) : held π (dropReach port r s) = held π s := by simp [dropReach]

@[simp] theorem held_endIdentity (loopNs : Nat) : held π (endIdentity port loopNs s) = held π s := by
  simp only [endIdentity]
  split <;> simp

@[simp] theorem held_trainStep (loopNs : Nat) : held π (trainStep port loopNs s) = held π s := by
  simp only [trainStep]
  repeat' split
  all_goals simp

@[simp] theorem held_identity (r : IdRecord) : held π (identity port r s) = held π s := by simp [identity]

@[simp] theorem held_replanPort : held π (replanPort s port) = held π s := by
  simp only [replanPort]
  repeat' split
  all_goals simp

@[simp] theorem held_frameAck (ack : Nat) : held π (frameAck port ack s) = held π s := by simp [frameAck]
@[simp] theorem held_frameNak : held π (frameNak port seq s) = held π s := by simp [frameNak]
@[simp] theorem held_nakFrame : held π (nakFrame port s) = held π s := by simp [nakFrame]

@[simp] theorem held_msgsArrive (direct : List Nat) : held π (msgsArrive port direct s) = held π s := by
  simp [msgsArrive]

@[simp] theorem held_frameIn (ack : Nat) (lanes direct : List Nat) :
    held π (frameIn port seq ack lanes direct s) = held π s := by
  simp [frameIn]

@[simp] theorem held_codewords (errs : List (List Nat)) : held π (codewords port errs s) = held π s := by
  simp [codewords]

@[simp] theorem held_frameArrives {crcOk : Bool} {errs : List (List Nat)} {f : State → State}
    (h : ∀ s, held π (f s) = held π s) : held π (frameArrives port crcOk errs f s) = held π s := by
  simp [frameArrives, h]

@[simp] theorem held_lightPort (lasersOk lanesOk : Nat) : held π (lightPort lasersOk lanesOk s port) = held π s := by
  simp [lightPort]

/-! ### Long commands -/

@[simp] theorem held_closeWin : held π (closeWin w s) = held π s := by
  simp only [closeWin]
  repeat' split
  all_goals simp

@[simp] theorem held_closeChan : held π (closeChan k s) = held π s := by simp [closeChan]
@[simp] theorem held_cleanEvict : held π (cleanEvict addr s) = held π s := by simp [cleanEvict]
@[simp] theorem held_endRing : held π (endRing ring s).2 = held π s := by simp [endRing]
@[simp] theorem held_endCq : held π (endCq c s) = held π s := by simp [endCq]
@[simp] theorem held_releaseGranule : held π (releaseGranule tile g s) = held π s := by simp [releaseGranule]

@[simp] theorem held_swapTable (engine : Nat) (hcfg : π ≠ .cfg) : held π (swapTable tile engine slot s) = held π s := by
  simp [swapTable, hcfg]

@[simp] theorem held_finishLong (body : List Byte) : held π (finishLong q body s) = held π s := by simp [finishLong]
@[simp] theorem held_tryFinish : held π (tryFinish s) = held π s := by simp only [tryFinish]; split <;> simp
@[simp] theorem held_beginLong (l : LongCmd) : held π (beginLong l s).state = held π s := by simp [beginLong]

@[simp] theorem held_collected (aon : Bool) (state : Nat) : held π (collected aon state s) = held π s := by
  simp [collected]

@[simp] theorem held_cutCollect : held π (cutCollect s) = held π s := by simp [cutCollect]

@[simp] theorem held_endLong (hcfg : π ≠ .cfg) : held π (endLong s) = held π s := by
  simp only [endLong]
  split <;> simp [hcfg]

/-! ### Resets, boot, standby -/

@[simp] theorem held_taskIdOf (d : DescSlot) : held π (taskIdOf ring d s).2 = held π s := by
  simp only [taskIdOf]
  split <;> simp

@[simp] theorem held_endDesc (was : CompRing) (d : DescSlot) : held π (endDesc was ring s d) = held π s := by
  simp [endDesc]

@[simp] theorem held_endDescs (old : SMap CompRing) : held π (endDescs old s ring) = held π s := by simp [endDescs]
@[simp] theorem held_requeue (r : Record) : held π (requeue cq r s) = held π s := by simp [requeue]

@[simp] theorem held_ringRecords : held π (ringRecords s) = held π s := by
  simp only [ringRecords]
  simp
  rw [held_forAll]
  · rw [held_foldl]
    · simp
    · simp
  · intro a x; split <;> simp

@[simp] theorem held_writeOut : held π (writeOut cq n s) = held π s := by
  induction n generalizing s with
  | zero => rfl
  | succ n ih => simp [writeOut, ih]

@[simp] theorem held_writeAll : held π (writeAll s) = held π s := by simp [writeAll]
@[simp] theorem held_fetchWatched : held π (fetchWatched s) = held π s := by simp [fetchWatched]

@[simp] theorem held_modFwSlot (i : Nat) (f : FwSlot → FwSlot) : held π (modFwSlot i f s) = held π s := by
  simp [modFwSlot]

@[simp] theorem held_dropTransfer : held π (dropTransfer s) = held π s := by simp only [dropTransfer]; split <;> simp
@[simp] theorem held_abortTests : held π (abortTests s) = held π s := by simp [abortTests]
@[simp] theorem held_stopCardamom (hcfg : π ≠ .cfg) : held π (stopCardamom s) = held π s := by simp [stopCardamom, hcfg]
@[simp] theorem held_dropPending : held π (dropPending s) = held π s := by simp [dropPending]
@[simp] theorem held_portsReset : held π (portsReset s) = held π s := by simp [portsReset]
@[simp] theorem held_portsDownReset : held π (portsDownReset s) = held π s := by simp [portsDownReset]
@[simp] theorem held_resetTiles : held π (resetTiles s) = held π s := by simp [resetTiles]
@[simp] theorem held_resetFences : held π (resetFences s) = held π s := by simp [resetFences]
@[simp] theorem held_resetChans : held π (resetChans s) = held π s := by simp [resetChans]
@[simp] theorem held_resetCond : held π (resetCond s) = held π s := by simp [resetCond]
@[simp] theorem held_resetHostLink : held π (resetHostLink s) = held π s := by simp [resetHostLink]
@[simp] theorem held_evcReset : held π (evcReset s) = held π s := by simp [evcReset]
@[simp] theorem held_loseLink : held π (loseLink s) = held π s := by simp [loseLink]
@[simp] theorem held_coreReset (hcfg : π ≠ .cfg) : held π (coreReset cause s) = held π s := by simp [coreReset, hcfg]

@[simp] theorem held_cardamomRestart (m2digest : Nat) : held π (cardamomRestart m2digest s) = held π s := by
  simp [cardamomRestart]

@[simp] theorem held_restoreWindow : held π (restoreWindow s w) = held π s := by simp [restoreWindow]

@[simp] theorem held_restoreManager : held π (restoreManager s) = held π s := by
  simp only [restoreManager]
  split <;> simp

@[simp] theorem held_submitResidency : held π (submitResidency s) = held π s := by
  simp only [submitResidency]
  split <;> simp

@[simp] theorem held_listedOps : held π (listedOps addr s).2 = held π s := by simp only [listedOps]; split <;> simp
@[simp] theorem held_residencyOps : held π (residencyOps s).2 = held π s := by simp only [residencyOps]; split <;> simp

@[simp] theorem held_restoreConfigs (hcfg : π ≠ .cfg) : held π (restoreConfigs s) = held π s := by
  simp [restoreConfigs, hcfg]

@[simp] theorem held_restoreTables (hcfg : π ≠ .cfg) : held π (restoreTables s) = held π s := by
  simp [restoreTables, hcfg]

@[simp] theorem held_wake : held π (wake s) = held π s := by simp [wake]

@[simp] theorem held_restore (hcfg : π ≠ .cfg) (hpool : π ≠ .pool) : held π (restore s) = held π s := by
  simp [restore, hcfg, hpool]

@[simp] theorem held_wipeModule (hcfg : π ≠ .cfg) (hjob : π ≠ .job) (hpool : π ≠ .pool) :
    held π (wipeModule s) = held π s := by
  cases π <;> simp_all [held, wipeModule]

@[simp] theorem held_extendMeas (i d : Nat) : held π (extendMeas i d s) = held π s := by simp [extendMeas]
@[simp] theorem held_measureBoot (ds : List Nat) : held π (measureBoot ds s) = held π s := by simp [measureBoot]
@[simp] theorem held_logFallback : held π (logFallback s) = held π s := by simp [logFallback]
@[simp] theorem held_bootRuns (ds : List Nat) : held π (bootRuns ds s) = held π s := by simp [bootRuns]
@[simp] theorem held_bootDead : held π (bootDead s) = held π s := by simp [bootDead]

@[simp] theorem held_bootActive (activeOk otherOk : Bool) (ds : List Nat) :
    held π (bootActive activeOk otherOk ds s) = held π s := by
  simp [bootActive]

@[simp] theorem held_bootVerify (pendingOk activeOk otherOk : Bool) (ds : List Nat) :
    held π (bootVerify pendingOk activeOk otherOk ds s) = held π s := by
  simp only [bootVerify]
  split <;> simp

@[simp] theorem held_bootFree : held π (bootFree s) = held π s := by simp [bootFree]

@[simp] theorem held_moduleReset (commanded : Bool) (hcfg : π ≠ .cfg) (hjob : π ≠ .job) (hpool : π ≠ .pool) :
    held π (moduleReset cause commanded s) = held π s := by
  simp [moduleReset, hcfg, hjob, hpool]

@[simp] theorem held_moduleRestart (hcfg : π ≠ .cfg) (hjob : π ≠ .job) (hpool : π ≠ .pool) :
    held π (moduleRestart cause s) = held π s := by
  simp [moduleRestart, hcfg, hjob, hpool]

@[simp] theorem held_takePending : held π (takePending s) = held π s := by simp only [takePending]; split <;> simp

@[simp] theorem held_cardamomBoot (m2digest fwVersion : Nat) :
    held π (cardamomBoot m2digest fwVersion s) = held π s := by
  simp [cardamomBoot]

@[simp] theorem held_bootFallback (hcfg : π ≠ .cfg) (hjob : π ≠ .job) (hpool : π ≠ .pool) :
    held π (bootFallback s) = held π s := by
  simp only [bootFallback]
  split <;> simp [hcfg, hjob, hpool]

@[simp] theorem held_enterStandby (hcfg : π ≠ .cfg) : held π (enterStandby s) = held π s := by simp [enterStandby, hcfg]
@[simp] theorem held_exitStandby : held π (exitStandby s) = held π s := by simp [exitStandby]

@[simp] theorem held_thermalTrip (hcfg : π ≠ .cfg) (hjob : π ≠ .job) (hpool : π ≠ .pool) :
    held π (thermalTrip s) = held π s := by
  simp [thermalTrip, hcfg, hjob, hpool]

@[simp] theorem held_powerOff (hcascade : π ≠ .cascade) (hcfg : π ≠ .cfg) (hjob : π ≠ .job) (hpool : π ≠ .pool) :
    held π (powerOff s) = held π s := by
  have hdrop := held_dropTransfer (π := π) (s := s)
  cases π <;> simp_all [held, powerOff]

/-! ### The board cascade -/

@[simp] theorem held_cfSend (body : List Nat) : held π (cfSend code addr body s) = held π s := by simp [cfSend]
@[simp] theorem held_cfUp (body : List Nat) : held π (cfUp code body s) = held π s := by simp [cfUp]
@[simp] theorem held_cfAll (body : List Nat) : held π (cfAll code body s) = held π s := by simp [cfAll]

@[simp] theorem held_cfRelay (src : Nat) (body : List Nat) : held π (cfRelay code src body s) = held π s := by
  simp [cfRelay]

@[simp] theorem held_cfOn (body : List Nat) : held π (cfOn code body s) = held π s := by simp [cfOn]

@[simp] theorem held_cascadeFault (hcascade : π ≠ .cascade) : held π (cascadeFault s) = held π s := by
  simp [cascadeFault, hcascade]

@[simp] theorem held_sendLoops (hcascade : π ≠ .cascade) : held π (sendLoops s) = held π s := by
  simp [sendLoops, hcascade]

@[simp] theorem held_finishRamp (hcascade : π ≠ .cascade) : held π (finishRamp s) = held π s := by
  simp [finishRamp, hcascade]

@[simp] theorem held_grantNext (hcascade : π ≠ .cascade) : held π (grantNext s) = held π s := by
  simp only [grantNext]
  split <;> simp [hcascade]

@[simp] theorem held_masterWaited (hcascade : π ≠ .cascade) : held π (masterWaited s) = held π s := by
  simp [masterWaited, hcascade]

@[simp] theorem held_slotEnds (hcascade : π ≠ .cascade) : held π (slotEnds s) = held π s := by
  simp only [slotEnds]
  repeat' split
  all_goals simp [hcascade]

@[simp] theorem held_takeGrant (hcascade : π ≠ .cascade) : held π (takeGrant slot s) = held π s := by
  simp [takeGrant, hcascade]

@[simp] theorem held_grantTimeout (hcascade : π ≠ .cascade) : held π (grantTimeout s) = held π s := by
  simp [grantTimeout, hcascade]

@[simp] theorem held_soloRamp (hcascade : π ≠ .cascade) : held π (soloRamp s) = held π s := by simp [soloRamp, hcascade]

@[simp] theorem held_rampDoneIn (p : Nat) (hcascade : π ≠ .cascade) : held π (rampDoneIn p s) = held π s := by
  simp [rampDoneIn, hcascade]

@[simp] theorem held_rampDone (hcascade : π ≠ .cascade) : held π (rampDone s) = held π s := by simp [rampDone, hcascade]

@[simp] theorem held_helloIn (p serial : Nat) (onUp : Bool) (hcascade : π ≠ .cascade) :
    held π (helloIn p serial onUp s) = held π s := by
  simp [helloIn, hcascade]

@[simp] theorem held_boardIn (p : Nat) (present : Bool) (serial : Nat) (hcascade : π ≠ .cascade) :
    held π (boardIn p present serial s) = held π s := by
  simp [boardIn, hcascade]

@[simp] theorem held_countLoop (p : Nat) (good : Bool) (hcascade : π ≠ .cascade) :
    held π (countLoop p seq good s) = held π s := by
  simp [countLoop, hcascade]

@[simp] theorem held_loopIn (p pattern : Nat) (hcascade : π ≠ .cascade) :
    held π (loopIn p seq pattern s) = held π s := by
  simp [loopIn, hcascade]

@[simp] theorem held_faultIn (p : Nat) (hcascade : π ≠ .cascade) : held π (faultIn p cause s) = held π s := by
  simp [faultIn, hcascade]

@[simp] theorem held_cascadeResetIn (level : Nat) (hcfg : π ≠ .cfg) (hjob : π ≠ .job) (hpool : π ≠ .pool) :
    held π (cascadeResetIn level s) = held π s := by
  simp [cascadeResetIn, hcfg, hjob, hpool]

@[simp] theorem held_cascadeResend (hcascade : π ≠ .cascade) : held π (cascadeResend s) = held π s := by
  simp only [cascadeResend]
  split <;> simp [hcascade]

/-! ### Ends of drains -/

@[simp] theorem held_drainDone : held π (drainDone t s) = held π s := by simp only [drainDone]; split <;> simp
@[simp] theorem held_drainFor : held π (drainFor kind index s) = held π s := by simp [drainFor]
@[simp] theorem held_granuleFreed : held π (granuleFreed g s) = held π s := by simp only [granuleFreed]; split <;> simp

@[simp] theorem held_bankSwap (engine : Nat) (hcfg : π ≠ .cfg) : held π (bankSwap t engine s) = held π s := by
  simp only [bankSwap]
  split <;> simp [hcfg]

@[simp] theorem held_sessionExpires : held π (sessionExpires s) = held π s := by simp [sessionExpires]

/-! ### CUMIN -/

@[simp] theorem held_cmReadA (op : OpWord) (p : SlotAt) : held π (cmReadA op p r).2.2 = held π r.2 := by
  simp only [cmReadA]
  split <;> simp

@[simp] theorem held_cmReadTile (op : OpWord) (p : SlotAt) (rows : Nat) :
    held π (cmReadTile op p rows n r).2.2 = held π r.2 := by
  simp only [cmReadTile]
  split <;> simp

@[simp] theorem held_cmReadB {op : OpWord} {p : SlotAt} {left : Nat} :
    held π (cmReadB op p left n r).2.2 = held π r.2 := by
  induction n generalizing p left r with
  | zero => rfl
  | succ n ih => simp [cmReadB, ih]

@[simp] theorem held_cmProblem (f : OutFmt) (op : OpWord) (pa pb pc po : SlotAt) (p : Nat)
    (acc : OpFlags × Bool × State) : held π (cmProblem f op pa pb pc po p acc).2.2 = held π acc.2.2 := by
  simp only [cmProblem]
  repeat' split
  all_goals simp

@[simp] theorem held_cmWork : held π (cmWork tile e s).2.2 = held π s := by simp only [cmWork]; split <;> simp
@[simp] theorem held_cmFinish : held π (cmFinish tile uid s) = held π s := by simp only [cmFinish]; split <;> simp

/-! ### Start-up -/

@[simp] theorem held_inputIn (pos : Nat) : held π (inputIn pos s) = held π s := by simp [inputIn]

@[simp] theorem held_inputOut (us : Nat) (hcascade : π ≠ .cascade) (hcfg : π ≠ .cfg) (hjob : π ≠ .job)
    (hpool : π ≠ .pool) : held π (inputOut us s) = held π s := by
  simp [inputOut, hcascade, hcfg, hjob, hpool]

@[simp] theorem held_perstOn (ns : Nat) (hcfg : π ≠ .cfg) (hjob : π ≠ .job) (hpool : π ≠ .pool) :
    held π (perstOn ns s) = held π s := by
  simp [perstOn, hcfg, hjob, hpool]

@[simp] theorem held_perstOff (pendingOk activeOk otherOk : Bool) (ds : List Nat) :
    held π (perstOff pendingOk activeOk otherOk ds s) = held π s := by
  simp [perstOff]

@[simp] theorem held_cardamomStarts (m2digest fwVersion : Nat) :
    held π (cardamomStarts m2digest fwVersion s) = held π s := by
  simp only [cardamomStarts]
  split <;> simp

@[simp] theorem held_trainingFailed : held π (trainingFailed s) = held π s := by simp [trainingFailed]

@[simp] theorem held_memoryTrained (ok : Bool) : held π (memoryTrained ok s) = held π s := by
  simp only [memoryTrained]
  split <;> simp

@[simp] theorem held_fillDone : held π (fillDone s) = held π s := by simp [fillDone]
@[simp] theorem held_portsMayTrain : held π (portsMayTrain s) = held π s := by simp [portsMayTrain]
@[simp] theorem held_checkerEntry (tiles : Nat) : held π (checkerEntry tiles s).2 = held π s := by simp [checkerEntry]

@[simp] theorem held_checkerDone (tiles fails : Nat) : held π (checkerDone tiles fails s) = held π s := by
  simp [checkerDone]

@[simp] theorem held_checkerLogged : held π (checkerLogged s) = held π s := by simp [checkerLogged]

/-! ### Scrubbers, self-tests, reloads -/

@[simp] theorem held_lastingAdd (loc : Loc) (pattern : Nat) : held π (lastingAdd loc pattern s) = held π s := by
  simp [lastingAdd]

@[simp] theorem held_classEffect (loc : Loc) (pattern : Nat) : held π (classEffect loc pattern cls s) = held π s := by
  simp [classEffect]

@[simp] theorem held_testWrites (loc : Loc) : held π (testWrites loc s) = held π s := by
  simp only [testWrites]
  split <;> simp

@[simp] theorem held_selfTest (loc : Loc) (r : TestReads) : held π (selfTest loc r s) = held π s := by
  simp only [selfTest]
  split <;> simp

@[simp] theorem held_promoteTest (loc : Loc) : held π (promoteTest loc s) = held π s := by simp [promoteTest]
@[simp] theorem held_pkgLapEnds : held π (pkgLapEnds t s) = held π s := by simp [pkgLapEnds]

@[simp] theorem held_verified (hcfg : π ≠ .cfg) (hpool : π ≠ .pool) : held π (verified s) = held π s := by
  simp [verified, hcfg, hpool]

@[simp] theorem held_scrubStep (hcfg : π ≠ .cfg) (hpool : π ≠ .pool) : held π (scrubStep t c s) = held π s := by
  simp [scrubStep, hcfg, hpool]

@[simp] theorem held_scrubRead (cw : Nat) : held π (scrubRead cw s) = held π s := by
  simp only [scrubRead]
  split <;> simp

@[simp] theorem held_scrubAbort : held π (scrubAbort s) = held π s := by simp only [scrubAbort]; split <;> simp

@[simp] theorem held_scrubChannel (hcfg : π ≠ .cfg) (hpool : π ≠ .pool) : held π (scrubChannel t c s) = held π s := by
  simp [scrubChannel, hcfg, hpool]

@[simp] theorem held_scrubSlot : held π (scrubSlot t s) = held π s := by simp [scrubSlot]
@[simp] theorem held_lapOverdue (slot : Bool) : held π (lapOverdue t slot s) = held π s := by simp [lapOverdue]

@[simp] theorem held_setReloading (l : List WeightBlock) : held π (setReloading l s) = held π s := by
  simp [setReloading]

@[simp] theorem held_reloadLog (w : WeightBlock) : held π (reloadLog w s) = held π s := by simp [reloadLog]

@[simp] theorem held_reloadFails (w : WeightBlock) (p : WeightParams) : held π (reloadFails w p s) = held π s := by
  simp [reloadFails]

@[simp] theorem held_retest (x : Nat × TestReads) : held π (retest s x) = held π s := by simp [retest]
@[simp] theorem held_reloadsDone : held π (reloadsDone s) = held π s := by simp [reloadsDone]

@[simp] theorem held_reloadGood (w : WeightBlock) (reads : List TestReads) :
    held π (reloadGood w reads s) = held π s := by
  simp [reloadGood]

@[simp] theorem held_reloadData {x : WeightBlock} {p : WeightParams} {data : List Byte} {sourceOk : Bool} :
    held π (reloadData x p data sourceOk s).2 = held π s := by
  rw [reloadData]
  split
  · have hread : held π (pkgRead 1 1 (p.src + 65536 * x.block) 65536 s).2 = held π s := held_pkgRead
    cases hr : pkgRead 1 1 (p.src + 65536 * x.block) 65536 s
    rw [hr] at hread
    exact hread
  · rfl

@[simp] theorem held_reloadNext (data : List Byte) (sourceOk verified : Bool) (reads : List TestReads) :
    held π (reloadNext data sourceOk verified reads s) = held π s := by
  simp only [reloadNext]
  repeat' split
  all_goals simp

@[simp] theorem held_zeroPkgTile : held π (zeroPkgTile t s) = held π s := by simp [zeroPkgTile]
@[simp] theorem held_zeroSlotTile : held π (zeroSlotTile t s) = held π s := by simp [zeroSlotTile]
@[simp] theorem held_bistZero (tiles memory : Nat) : held π (bistZero tiles memory s) = held π s := by simp [bistZero]
@[simp] theorem held_bistBad (loc : Loc) : held π (bistBad s loc) = held π s := by simp [bistBad]

@[simp] theorem held_bistDone (bad : List Loc) (elapsed : Nat) : held π (bistDone bad elapsed s) = held π s := by
  simp only [bistDone]
  repeat' split
  all_goals simp

@[simp] theorem held_loopbackDone (board : Bool) (lostPos lostPlane : List Nat) (elapsed : Nat) :
    held π (loopbackDone board lostPos lostPlane elapsed s) = held π s := by
  simp only [loopbackDone]
  split <;> simp

/-! ### Tenancy -/

@[simp] theorem held_readCert (offset : Nat) : held π (readCert index offset s).state = held π s := by simp [readCert]

@[simp] theorem held_attestNow (nonce mask : Nat) : held π (attestNow nonce mask s).state = held π s := by
  simp [attestNow]

@[simp] theorem held_answerPeer (nonce ek : Nat) : held π (answerPeer m nonce ek s) = held π s := by
  simp only [answerPeer]
  repeat' split
  all_goals simp

@[simp] theorem held_openPart0 (pk ek : Nat) : held π (openPart0 pk ek s).state = held π s := by simp [openPart0]
@[simp] theorem held_newSession (pk ek : Nat) : held π (newSession pk ek s).2.2 = held π s := by simp [newSession]

@[simp] theorem held_openPart1 (sigOk rsvZero : Bool) : held π (openPart1 sigOk rsvZero s).state = held π s := by
  simp only [openPart1]
  split <;> simp

@[simp] theorem held_openSession (part pk ek : Nat) (sigOk : Bool) :
    held π (openSession q part pk ek sigOk s).state = held π s := by
  simp [openSession]

@[simp] theorem held_claimFor (x : Session) (policy nfw : Nat) (allow : List Nat) (hcfg : π ≠ .cfg) :
    held π (claimFor x policy nfw allow s) = held π s := by
  simp [claimFor, hcfg]

@[simp] theorem held_claim (session policy nfw : Nat) (allow : List Nat) (hcfg : π ≠ .cfg) :
    held π (claim session policy nfw allow s).state = held π s := by
  simp only [claim]
  split <;> simp [hcfg]

@[simp] theorem held_releaseRecords : held π (releaseRecords s) = held π s := by simp [releaseRecords]
@[simp] theorem held_releaseFabric : held π (releaseFabric s) = held π s := by simp [releaseFabric]

@[simp] theorem held_endTenancy (hjob : π ≠ .job) (hpool : π ≠ .pool) : held π (endTenancy s) = held π s := by
  cases π <;> simp_all [held, endTenancy]

@[simp] theorem held_releaseFill (hcfg : π ≠ .cfg) : held π (releaseFill s) = held π s := by simp [releaseFill, hcfg]
@[simp] theorem held_readBack (bad : List Loc) : held π (readBack bad s) = held π s := by simp [readBack]
@[simp] theorem held_restartFails : held π (restartFails s) = held π s := by simp [restartFails]

@[simp] theorem held_wipeThen (hcfg : π ≠ .cfg) {m2digest : Nat} {bad : List Loc} {f : State → Answer}
    (h : ∀ s, held π (f s).state = held π s) : held π (wipeThen m2digest bad f s).state = held π s := by
  simp [wipeThen, h, hcfg]

@[simp] theorem held_releaseTenant (m2digest : Nat) (bad : List Loc) (hcfg : π ≠ .cfg) (hjob : π ≠ .job)
    (hpool : π ≠ .pool) : held π (releaseTenant m2digest bad s).state = held π s := by
  simp [releaseTenant, hcfg, hjob, hpool]

@[simp] theorem held_unlock (scope digest m2digest : Nat) (bad : List Loc) (hcfg : π ≠ .cfg) :
    held π (unlock scope digest m2digest bad s).state = held π s := by
  simp [unlock, hcfg]

@[simp] theorem held_debugUnlock (scope serial counter digest m2digest : Nat) (bad : List Loc) (sigOk : Bool)
    (hcfg : π ≠ .cfg) : held π (debugUnlock q scope serial counter digest m2digest bad sigOk s).state = held π s := by
  simp [debugUnlock, hcfg]

/-! ### Memory, rings and pools, as group 4 sets them -/

@[simp] theorem held_setRegions (l : List RegionEntry) : held π (setRegions l s).state = held π s := by
  simp [setRegions]

@[simp] theorem held_setHdmSize (units : Nat) : held π (setHdmSize units s).state = held π s := by simp [setHdmSize]

@[simp] theorem held_setArb (share threshold : Nat) : held π (setArb share threshold s).state = held π s := by
  simp [setArb]

@[simp] theorem held_setTimeout (ms : Nat) : held π (setTimeout ms s).state = held π s := by simp [setTimeout]
@[simp] theorem held_createRing (r : RingParams) : held π (createRing r s).state = held π s := by simp [createRing]
@[simp] theorem held_createCq (r : RingParams) : held π (createCq r s).state = held π s := by simp [createCq]
@[simp] theorem held_destroyRing : held π (destroyRing q ring s).state = held π s := by simp [destroyRing]
@[simp] theorem held_destroyCq : held π (destroyCq q c s).state = held π s := by simp [destroyCq]
@[simp] theorem held_zeroRange (base len : Nat) : held π (zeroRange base len s) = held π s := by simp [zeroRange]

@[simp] theorem held_linkPages (p : PoolParams) (hpool : π ≠ .pool) : held π (linkPages p s tile) = held π s := by
  simp [linkPages, hpool]

@[simp] theorem held_configPool (p : PoolParams) (hpool : π ≠ .pool) : held π (configPool p s).state = held π s := by
  simp [configPool, hpool]

@[simp] theorem held_releaseSlots (count : Nat) : held π (releaseSlots q tile first count s).state = held π s := by
  simp [releaseSlots]

@[simp] theorem held_setWeights (w : WeightParams) : held π (setWeights w s).state = held π s := by simp [setWeights]

/-! ### Plan, jobs, channels, windows and ports, as group 5 sets them -/

@[simp] theorem held_setPlan (fabricId generation : Nat) (plan : List PlanEntry) :
    held π (setPlan fabricId generation plan s).state = held π s := by
  simp [setPlan]

@[simp] theorem held_setMembers (ids : List Nat) : held π (setMembers ids s).state = held π s := by simp [setMembers]
@[simp] theorem held_attestPeer : held π (attestPeer q peer s).state = held π s := by simp [attestPeer]

@[simp] theorem held_joinJob (job : Nat) (members : List Nat) (manager : Nat) (hjob : π ≠ .job) :
    held π (joinJob job members manager s).state = held π s := by
  simp [joinJob, hjob]

@[simp] theorem held_leaveJob (job : Nat) (hjob : π ≠ .job) (hpool : π ≠ .pool) :
    held π (leaveJob job s).state = held π s := by
  simp only [leaveJob]
  split <;> simp [hjob, hpool]

@[simp] theorem held_openChannel (number low high : Nat) :
    held π (openChannel q number peer port low high s).state = held π s := by
  simp [openChannel]

@[simp] theorem held_closeChannel (number : Nat) : held π (closeChannel q number peer s).state = held π s := by
  simp [closeChannel]

@[simp] theorem held_openWindow (w : WindowParams) : held π (openWindow w s).state = held π s := by simp [openWindow]
@[simp] theorem held_closeWindow : held π (closeWindow q w s).state = held π s := by simp [closeWindow]
@[simp] theorem held_windowStatus : held π (windowStatus w s).state = held π s := by simp [windowStatus]

@[simp] theorem held_trustJob (job : Nat) (hjob : π ≠ .job) : held π (trustJob job s).state = held π s := by
  simp only [trustJob]
  split <;> simp [hjob]

@[simp] theorem held_overPorts {mask : Nat} {f : Nat → State → State} (h : ∀ p s, held π (f p s) = held π s) :
    held π (overPorts mask f s).state = held π s := by
  simp [overPorts, h]

@[simp] theorem held_retrainPort (p : Nat) : held π (retrainPort p s) = held π s := by simp [retrainPort]
@[simp] theorem held_disablePort (p : Nat) : held π (disablePort p s) = held π s := by simp [disablePort]
@[simp] theorem held_enablePort (p : Nat) : held π (enablePort p s) = held π s := by simp [enablePort]

/-! ### Step task sets, drains, configurations and tables, as group 6 sets them -/

@[simp] theorem held_readCaps : held π (readCaps cls s).state = held π s := by simp [readCaps]

@[simp] theorem held_judgeStep (f : StepSetParams) (t : SetTask) : held π (judgeStep f t s).2 = held π s := by
  simp only [judgeStep]
  split <;> simp

@[simp] theorem held_judgeSteps {f : StepSetParams} {l : List SetTask} : held π (judgeSteps f l s).2 = held π s := by
  induction l generalizing s with
  | nil => rfl
  | cons x l ih => simp only [judgeSteps]; split <;> simp [ih]

@[simp] theorem held_judgeLoads {l : List SetTask} : held π (judgeLoads l s).2 = held π s := by
  induction l generalizing s with
  | nil => rfl
  | cons x l ih =>
    simp only [judgeLoads]
    repeat' split
    all_goals simp [ih]

@[simp] theorem held_registerSet (f : StepSetParams) (capacity : Nat) (ks : List (Nat × Task)) (hjob : π ≠ .job) :
    held π (registerSet f capacity ks s) = held π s := by
  simp only [registerSet]
  split <;> simp [hjob]

@[simp] theorem held_register (f : StepSetParams) (hjob : π ≠ .job) : held π (register f s).state = held π s := by
  simp only [register]
  repeat' split
  all_goals simp [hjob]

@[simp] theorem held_releaseSet (job : Nat) (hjob : π ≠ .job) (hpool : π ≠ .pool) :
    held π (releaseSet job s).state = held π s := by
  simp [releaseSet, hjob, hpool]

@[simp] theorem held_resumeJob (job : Nat) : held π (resumeJob job s).state = held π s := by simp [resumeJob]
@[simp] theorem held_drain (x : EngineSel) : held π (drain q x s).state = held π s := by simp [drain]

@[simp] theorem held_abortParked (x : EngineSel) : held π (abortParked x s) = held π s := by
  simp only [abortParked]
  repeat' split
  all_goals simp

@[simp] theorem held_liftDrain (x : EngineSel) : held π (liftDrain x s) = held π s := by
  simp only [liftDrain]
  split <;> simp

@[simp] theorem held_engineAbort (x : EngineSel) : held π (engineAbort x s).state = held π s := by simp [engineAbort]

@[simp] theorem held_loadConfig (i : Nat) (c : List Byte) (hcfg : π ≠ .cfg) :
    held π (loadConfig i c s).state = held π s := by
  simp [loadConfig, hcfg]

@[simp] theorem held_shadowTable (img : List Byte) (hcfg : π ≠ .cfg) : held π (shadowTable slot img s) = held π s := by
  simp [shadowTable, hcfg]

@[simp] theorem held_loadTable (hcfg : π ≠ .cfg) : held π (loadTable q slot dpa s).state = held π s := by
  simp [loadTable, hcfg]

@[simp] theorem held_readTable : held π (readTable kind index s).state = held π s := by simp [readTable]
@[simp] theorem held_setFence (v : BitVec 64) : held π (setFence c v s).state = held π s := by simp [setFence]

@[simp] theorem held_readFences (count : Nat) : held π (readFences first count s).state = held π s := by
  simp [readFences]

@[simp] theorem held_configBarrier (b : BarrierParams) : held π (configBarrier b s).state = held π s := by
  simp [configBarrier]

/-! ### Firmware -/

@[simp] theorem held_eraseSlot (hflash : π ≠ .flash) : held π (eraseSlot slot s) = held π s := by
  simp [eraseSlot, hflash]

@[simp] theorem held_openTransfer (owner size : Nat) (hflash : π ≠ .flash) :
    held π (openTransfer owner slot size s).2 = held π s := by
  simp [openTransfer, hflash]

@[simp] theorem held_fwBegin (size : Nat) (hflash : π ≠ .flash) : held π (fwBegin q slot size s).state = held π s := by
  simp [fwBegin, hflash]

theorem held_takeChunk (hflash : π ≠ .flash) {x : Transfer} {full offset : Nat} {data : List Byte} {t : State}
    (h : takeChunk x full offset data s = some t) : held π t = held π s := by
  simp only [takeChunk] at h
  repeat' split at h
  all_goals cases h
  all_goals simp [hflash]

@[simp] theorem held_fwTransfer {id offset : Nat} {data : List Byte} (hflash : π ≠ .flash) :
    held π (fwTransfer id offset data s).state = held π s := by
  simp only [fwTransfer]
  split
  · rfl
  · split
    · exact held_takeChunk hflash ‹_›
    · rfl

@[simp] theorem held_markVerified (t : Transfer) (version svn : Nat) :
    held π (markVerified t version svn s) = held π s := by
  simp [markVerified]

@[simp] theorem held_fwVerify (verdict version svn : Nat) :
    held π (fwVerify id verdict version svn s).state = held π s := by
  simp only [fwVerify]
  split <;> simp

theorem held_activateSlot {t : State} (h : activateSlot slot s = some t) : held π t = held π s := by
  simp only [activateSlot] at h
  repeat' split at h
  all_goals cases h
  all_goals simp

@[simp] theorem held_fwActivate {slot mode : Nat} (hcfg : π ≠ .cfg) (hjob : π ≠ .job) (hpool : π ≠ .pool) :
    held π (fwActivate q slot mode s).state = held π s := by
  simp only [fwActivate]
  split
  · rfl
  · split
    · rfl
    · have hslot := held_activateSlot (π := π) ‹_›
      split <;> simp [hslot, hcfg, hjob, hpool]

@[simp] theorem held_cancelTransfer (t : Transfer) : held π (cancelTransfer t s) = held π s := by simp [cancelTransfer]
@[simp] theorem held_fwCancel : held π (fwCancel id s).state = held π s := by simp only [fwCancel]; split <;> simp
@[simp] theorem held_pldmAnswer (ok : Bool) : held π (pldmAnswer ok s) = held π s := by simp [pldmAnswer]

@[simp] theorem held_pldmUpdate {f : State → Option State} (h : ∀ s t, f s = some t → held π t = held π s) :
    held π (pldmUpdate f s) = held π s := by
  simp only [pldmUpdate]
  split
  · rfl
  · split
    · simp
    · split
      · simp [h _ _ ‹_›]
      · simp

theorem held_requestUpdate {slot size : Nat} {t : State} (hflash : π ≠ .flash)
    (h : requestUpdate slot size s = some t) :
    held π t = held π s := by
  simp only [requestUpdate] at h
  split at h
  · cases h; simp [hflash]
  · cases h

@[simp] theorem held_pldmVerify (verdict version svn : Nat) : held π (pldmVerify verdict version svn s) = held π s := by
  simp only [pldmVerify]
  split <;> simp

@[simp] theorem held_firmwareData {offset verdict version svn : Nat} {data : List Byte} (hflash : π ≠ .flash) :
    held π (firmwareData offset data verdict version svn s) = held π s := by
  simp only [firmwareData]
  split
  · split
    · rfl
    · split
      · simp [held_takeChunk hflash ‹_›]
      · rfl
  · rfl

theorem held_activateFirmware {selfContained : Bool} {t : State} (h : activateFirmware selfContained s = some t) :
    held π t = held π s := by
  simp only [activateFirmware] at h
  repeat' split at h
  all_goals cases h
  simp

theorem held_cancelUpdate {t : State} (h : cancelUpdate s = some t) : held π t = held π s := by
  obtain ⟨x, -, rfl⟩ := Option.map_eq_some_iff.mp h
  simp

/-! ### Loss of the host link -/

@[simp] theorem held_linkDown (hcfg : π ≠ .cfg) : held π (linkDown s) = held π s := by simp [linkDown, hcfg]

/-! ### MACE -/

@[simp] theorem held_maPayload (op : OpWord) (p : SlotAt) (x : Nat × Nat × Nat) :
    held π (maPayload op p x r).2.2 = held π r.2 := by
  simp only [maPayload]
  split <;> simp

@[simp] theorem held_maSendOne (op : OpWord) (tag key : Nat) (p : SlotAt) (a : MaRun) (x : (Nat × Nat × Nat) × Bool) :
    held π (maSendOne tile uid op tag key w first p a x).2 = held π a.2 := by
  simp only [maSendOne]
  repeat' split
  all_goals simp

@[simp] theorem held_maLocalOne (op : OpWord) (tag : Nat) (p : SlotAt) (a : MaRun)
    (x : ((Nat × Nat × Nat) × Bool) × Nat) : held π (maLocalOne op tag w first stream p a x).2 = held π a.2 := by
  simp only [maLocalOne]
  repeat' split
  all_goals simp

@[simp] theorem held_maMemoryOne (op : OpWord) (p : SlotAt) (a : MaRun) (x : ((Nat × Nat × Nat) × Bool) × Nat) :
    held π (maMemoryOne op dpa stream p a x).2 = held π a.2 := by
  simp only [maMemoryOne]
  repeat' split
  all_goals simp

@[simp] theorem held_maHandOver (a : MaRun) : held π (maHandOver tile e stream a) = held π a.2 := by simp [maHandOver]
@[simp] theorem held_maSend (key : Nat) : held π (maSend tile e key w first s).2 = held π s := by simp [maSend]
@[simp] theorem held_maFold : held π (maFold tile e w first s).2 = held π s := by simp [maFold]
@[simp] theorem held_maStore : held π (maStore tile e dpa s).2 = held π s := by simp [maStore]
@[simp] theorem held_awaitSent : held π (awaitSent tile uid s) = held π s := by simp only [awaitSent]; split <;> simp

@[simp] theorem held_maFinish : held π (maFinish tile uid s) = held π s := by
  simp only [maFinish]
  repeat' split
  all_goals simp

/-! ### Memory controllers and sensors -/

@[simp] theorem held_takeSlot : held π (takeSlot t c cls s) = held π s := by simp [takeSlot]
@[simp] theorem held_serveAccum : held π (serveAccum t c s) = held π s := by simp only [serveAccum]; split <;> simp
@[simp] theorem held_serveReq : held π (serveReq t c s) = held π s := by simp only [serveReq]; split <;> simp
@[simp] theorem held_promoteReq : held π (promoteReq t c s) = held π s := by simp only [promoteReq]; split <;> simp
@[simp] theorem held_refreshChan : held π (refreshChan t c s) = held π s := by simp [refreshChan]
@[simp] theorem held_relaxBand : held π (relaxBand t s) = held π s := by simp [relaxBand]

@[simp] theorem held_tempEvent (sensor value : Nat) : held π (tempEvent sensor value s) = held π s := by
  simp [tempEvent]

@[simp] theorem held_junctionEvent (value : Nat) : held π (junctionEvent value s) = held π s := by simp [junctionEvent]
@[simp] theorem held_sampleDram (old new : Nat) : held π (sampleDram t old new s) = held π s := by simp [sampleDram]

@[simp] theorem held_sampleJunction (old new : List Nat) : held π (sampleJunction t old new s) = held π s := by
  simp [sampleJunction]

@[simp] theorem held_sampleHub (old new : List Nat) : held π (sampleHub old new s) = held π s := by simp [sampleHub]

@[simp] theorem held_sampleTemps (ts : List TileTemps) (hub : List Nat) (hcfg : π ≠ .cfg) (hjob : π ≠ .job)
    (hpool : π ≠ .pool) : held π (sampleTemps ts hub s) = held π s := by
  simp [sampleTemps, hcfg, hjob, hpool]

@[simp] theorem held_crossed (sensor limit old new : Nat) : held π (crossed sensor limit old new s) = held π s := by
  simp [crossed]

@[simp] theorem held_samplePower (mv ma : Nat) : held π (samplePower mv ma s) = held π s := by
  simp only [samplePower]
  repeat' split
  all_goals simp

@[simp] theorem held_grantBudgets (asked : Bool) (grants : List Nat) :
    held π (grantBudgets asked grants s) = held π s := by
  simp [grantBudgets]

@[simp] theorem held_heartbeat : held π (heartbeat s) = held π s := by simp [heartbeat]

/-! ### Registers -/

@[simp] theorem held_statusW1c (mb1 : Bool) (bits : Nat) : held π (statusW1c mb1 bits s) = held π s := by
  simp [statusW1c]

@[simp] theorem held_overrunMb (mb1 : Bool) : held π (overrunMb mb1 s) = held π s := by simp [overrunMb]

@[simp] theorem held_shadowWrite (mb1 : Bool) (at0 : Nat) (bs : List Byte) :
    held π (shadowWrite mb1 at0 bs s) = held π s := by
  simp [shadowWrite]

@[simp] theorem held_doorbell (mb1 : Bool) : held π (doorbell mb1 s) = held π s := by simp [doorbell]

@[simp] theorem held_mbWrite (mb1 : Bool) (value : Nat) : held π (mbWrite mb1 off value s) = held π s := by
  simp [mbWrite]

@[simp] theorem held_esClear (bits : BitVec 64) : held π (esClear bits s) = held π s := by simp [esClear]

@[simp] theorem held_ovfClear (bank : Nat) (bits : BitVec 16) : held π (ovfClear bank bits s) = held π s := by
  simp [ovfClear]

@[simp] theorem held_selWrite (bank : Nat) (v : BitVec 64) : held π (selWrite bank index v s) = held π s := by
  simp [selWrite]

@[simp] theorem held_selBusWrite (bank size : Nat) (v : BitVec 64) :
    held π (selBusWrite bank index size v s) = held π s := by
  simp [selBusWrite]

@[simp] theorem held_evcZero : held π (evcZero s) = held π s := by simp [evcZero]
@[simp] theorem held_evcHold (on : Bool) : held π (evcHold on s) = held π s := by simp [evcHold]
@[simp] theorem held_evcWrite (value : Nat) : held π (evcWrite off value s) = held π s := by simp [evcWrite]
@[simp] theorem held_msixWrite (value : Nat) : held π (msixWrite k value s) = held π s := by simp [msixWrite]
@[simp] theorem held_write4 (value : Nat) : held π (write4 off value s) = held π s := by simp [write4]

@[simp] theorem held_bar0Write (size value : Nat) : held π (bar0Write off size value s) = held π s := by
  simp only [bar0Write]
  repeat' split
  all_goals simp

@[simp] theorem held_bar2Control (bs : List Byte) : held π (bar2Control off bs s) = held π s := by simp [bar2Control]

@[simp] theorem held_apertureRead (at0 : Nat) : held π (apertureRead at0 n s).2 = held π s := by
  simp only [apertureRead]
  repeat' split
  all_goals simp

@[simp] theorem held_apertureWrite (at0 : Nat) (bs : List Byte) : held π (apertureWrite at0 bs s) = held π s := by
  simp [apertureWrite]

@[simp] theorem held_bar2Closed (write : Bool) (size : Nat) : held π (bar2Closed write size s) = held π s := by
  simp [bar2Closed]

@[simp] theorem held_bar2Go (write : Bool) (size : Nat) (data : List Byte) :
    held π (bar2Go write off size data s) = held π s := by
  simp [bar2Go]

/-! ### The recovery dump -/

@[simp] theorem held_dumpEngines : held π (dumpEngines s).2 = held π s := by simp [dumpEngines]

@[simp] theorem held_freeWalk {p : PoolParams} {page : Nat} : held π (freeWalk p n page s).2 = held π s := by
  induction n generalizing page s with
  | zero => rfl
  | succ n ih =>
    simp only [freeWalk]
    repeat' split
    all_goals simp [ih]

@[simp] theorem held_dumpFennelTile (p : PoolParams) : held π (dumpFennelTile p t s).2 = held π s := by
  simp [dumpFennelTile]

@[simp] theorem held_dumpFennel : held π (dumpFennel s).2 = held π s := by
  simp only [dumpFennel]
  split
  · rfl
  · rw [held_foldl_snd]
    simp

@[simp] theorem held_writeSections {l : List (Nat × Bool × List Byte)} {at0 : Nat} :
    held π (writeSections l at0 s).2 = held π s := by
  induction l generalizing at0 s with
  | nil => rfl
  | cons x l ih => simp [writeSections, ih]

@[simp] theorem held_writeDump (aon : Bool) : held π (writeDump aon s).2 = held π s := by simp [writeDump]

@[simp] theorem held_collect (aon : Bool) (hpool : π ≠ .pool) : held π (collect aon s).2 = held π s := by
  simp [collect, hpool]

/-! ### Monitoring, tests and the sideband -/

@[simp] theorem held_logOf (log : Nat) : held π (logOf log tile s).2 = held π s := by
  simp only [logOf]
  repeat' split
  all_goals simp

@[simp] theorem held_logRead (log : Nat) : held π (logRead log tile first s).state = held π s := by simp [logRead]
@[simp] theorem held_logClear (log : Nat) : held π (logClear log tile s).state = held π s := by simp [logClear]

@[simp] theorem held_counterConfig (bank : Nat) (v : BitVec 64) :
    held π (counterConfig bank index v s).state = held π s := by
  simp [counterConfig]

@[simp] theorem held_counterRead (count : Nat) : held π (counterRead first count s).state = held π s := by
  simp [counterRead]

@[simp] theorem held_scrubConfig (hours : Nat) : held π (scrubConfig hours s).state = held π s := by simp [scrubConfig]

@[simp] theorem held_recoveryCollect (hpool : π ≠ .pool) : held π (recoveryCollect q s).state = held π s := by
  simp [recoveryCollect, hpool]

@[simp] theorem held_resetCore (hcfg : π ≠ .cfg) : held π (resetCore q s).state = held π s := by simp [resetCore, hcfg]

@[simp] theorem held_resetModule (hcfg : π ≠ .cfg) (hjob : π ≠ .job) (hpool : π ≠ .pool) :
    held π (resetModule q s).state = held π s := by
  simp [resetModule, hcfg, hjob, hpool]

@[simp] theorem held_standbyEnter (hcfg : π ≠ .cfg) : held π (standbyEnter q s).state = held π s := by
  simp [standbyEnter, hcfg]

@[simp] theorem held_standbyExit : held π (standbyExit q s).state = held π s := by simp [standbyExit]

@[simp] theorem held_cascadeReset (pos level : Nat) : held π (cascadeReset q pos level s).state = held π s := by
  simp [cascadeReset]

@[simp] theorem held_flipMask (slot : Bool) (unit : Nat) (mask : List Byte) :
    held π (flipMask slot tile unit mask s).state = held π s := by
  simp [flipMask]

@[simp] theorem held_testStarts (test : Nat) : held π (testStarts test s) = held π s := by simp [testStarts]

@[simp] theorem held_testBist (tiles memory patterns : Nat) :
    held π (testBist q tiles memory patterns s).state = held π s := by
  simp [testBist]

@[simp] theorem held_sendTests : held π (sendTests s) = held π s := by simp [sendTests]

@[simp] theorem held_sendBoard (hcascade : π ≠ .cascade) : held π (sendBoard s) = held π s := by
  simp [sendBoard, hcascade]

@[simp] theorem held_testLoopback (board : Bool) (mask : Nat) (hcascade : π ≠ .cascade) :
    held π (testLoopback q board mask s).state = held π s := by
  simp [testLoopback, hcascade]

@[simp] theorem held_testResult (test : Nat) : held π (testResult test s).state = held π s := by simp [testResult]
@[simp] theorem held_entDaa : held π (entDaa addr s) = held π s := by simp [entDaa]
@[simp] theorem held_setDasa (static : Nat) : held π (setDasa static addr s) = held π s := by simp [setDasa]
@[simp] theorem held_setEid (eid : Nat) : held π (setEid eid s) = held π s := by simp [setEid]
@[simp] theorem held_pldmBase (command : Nat) : held π (pldmBase command s) = held π s := by simp [pldmBase]
@[simp] theorem held_pldmSensor (sensor : Nat) : held π (pldmSensor sensor s) = held π s := by simp [pldmSensor]
@[simp] theorem held_setReceiver (eid : Nat) : held π (setReceiver eid s) = held π s := by simp [setReceiver]

/-! ### The meanings of commands -/

/-- An outcome whose next state, if there is one, holds in `π` what `s` does. -/
def Keeps (π : StatePart) (s : State) (o : Host.Outcome State Fault Refusal) : Prop :=
  ∀ t, o = .next t → held π t = held π s

theorem keeps_next {t : State} : Keeps π s (.next t) ↔ held π t = held π s := by simp [Keeps]

theorem keeps_refused (r : Refusal) : Keeps π s (.refused r) := by simp [Keeps]

theorem keeps_execNoOp : Keeps π s (execNoOp tile uid s) := by
  rw [execNoOp, keeps_next]
  split <;> simp

theorem keeps_execCtlFenceWait : Keeps π s (execCtlFenceWait tile uid s) := by
  rw [execCtlFenceWait, keeps_next]
  split <;> simp

theorem keeps_execFenceWaitRelease : Keeps π s (execFenceWaitRelease tile uid s) := by
  rw [execFenceWaitRelease, keeps_next]
  split <;> simp

theorem keeps_execCtlFenceSignal : Keeps π s (execCtlFenceSignal tile uid s) := by
  rw [execCtlFenceSignal, keeps_next]
  split <;> simp

theorem keeps_execCtlFenceSignalRemote : Keeps π s (execCtlFenceSignalRemote tile uid s) := by
  rw [execCtlFenceSignalRemote, keeps_next]
  repeat' split
  all_goals simp

theorem keeps_execCtlBarrierArrive : Keeps π s (execCtlBarrierArrive tile uid s) := by
  rw [execCtlBarrierArrive, keeps_next]
  split <;> simp

theorem keeps_execCtlBarrierWait : Keeps π s (execCtlBarrierWait tile uid s) := by
  rw [execCtlBarrierWait, keeps_next]
  split <;> simp

theorem keeps_execCtlStepLoop : Keeps π s (execCtlStepLoop tile uid s) := by
  rw [execCtlStepLoop, keeps_next]
  split <;> simp

theorem keeps_execCtlStepLoopEnd : Keeps π s (execCtlStepLoopEnd tile uid s) := by
  rw [execCtlStepLoopEnd, keeps_next]
  split <;> simp

theorem keeps_execBusyResendTimer (chan : Nat) : Keeps π s (execBusyResendTimer peer chan s) := by
  rw [execBusyResendTimer, keeps_next]
  split <;> simp

theorem keeps_execSlotWindowClaim (window granule : Nat) : Keeps π s (execSlotWindowClaim window granule s) := by
  rw [execSlotWindowClaim, keeps_next]
  split <;> simp

theorem keeps_execTrainingStepTimeout : Keeps π s (execTrainingStepTimeout port s) := by
  rw [execTrainingStepTimeout, keeps_next]
  split <;> simp

theorem keeps_execPortRetrainTimer : Keeps π s (execPortRetrainTimer port s) := by
  rw [execPortRetrainTimer, keeps_next]
  split <;> simp

theorem keeps_execLaneFail (lane : Nat) : Keeps π s (execLaneFail port lane s) := by
  rw [execLaneFail, keeps_next]
  split <;> simp

theorem keeps_execPaResp (r : PeerReport) : Keeps π s (execPaResp peer r s) := by
  rw [execPaResp, keeps_next]
  repeat' split
  all_goals simp

theorem keeps_execMsgStepHeader (src : Nat) (hdr : StepHeader) : Keeps π s (execMsgStepHeader src hdr s) := by
  rw [execMsgStepHeader, keeps_next]
  split
  · rw [held_withSnoop]
    intro a
    split
    · simp [held_stepRecv ‹_›]
    · simp
  · rfl

theorem keeps_execMsgTokenList (src : Nat) (toks : List Nat) : Keeps π s (execMsgTokenList src toks s) := by
  rw [execMsgTokenList, keeps_next]
  split
  · rw [held_withSnoop]
    intro a
    split
    · simp [held_stepRecv ‹_›]
    · simp
  · rfl

theorem keeps_execMsgCommit (step : Nat) (notices : List PageNotice) (hpool : π ≠ .pool) :
    Keeps π s (execMsgCommit step notices s) := by
  rw [execMsgCommit, keeps_next]
  rw [held_withSnoop]
  intro a
  split
  · rfl
  · split
    · simp [held_stepRecv ‹_›, hpool]
    · simp

theorem keeps_execMsgResult (member step : Nat) (reports : List TokenReport) (status : EngStatus) :
    Keeps π s (execMsgResult member step reports status s) := by
  rw [execMsgResult, keeps_next]
  split
  · split
    · simp
    · have hrecv := held_stepRecv (π := π) ‹_›
      repeat' split
      all_goals simp [hrecv]
  · rfl

theorem keeps_execMsgFault (member step taskId : Nat) : Keeps π s (execMsgFault member step code taskId tile s) := by
  rw [execMsgFault, keeps_next]
  split
  · split
    · simp
    · have hrecv := held_stepRecv (π := π) ‹_›
      repeat' split
      all_goals simp [hrecv]
  · rfl

theorem keeps_execMsgAbortDone (member step : Nat) : Keeps π s (execMsgAbortDone member step s) := by
  rw [execMsgAbortDone, keeps_next]
  split
  · split
    · simp
    · have hrecv := held_stepRecv (π := π) ‹_›
      repeat' split
      all_goals simp [hrecv]
  · rfl

theorem keeps_execMsgAbort (step : Nat) : Keeps π s (execMsgAbort step code s) := by
  rw [execMsgAbort, keeps_next]
  split
  · rfl
  · split
    · simp [held_stepRecv ‹_›]
    · simp

theorem keeps_execWindowNotice (counter : Nat) (tagOk : Bool) (window epoch ops bound : Nat) :
    Keeps π s (execWindowNotice peer counter tagOk window epoch ops bound s) := by
  rw [execWindowNotice, keeps_next]
  split
  · simp [held_mgmtRecv ‹_›]
  · simp

theorem keeps_execPairRekey (counter : Nat) (tagOk : Bool) (secret : Nat) :
    Keeps π s (execPairRekey peer counter tagOk secret s) := by
  rw [execPairRekey, keeps_next]
  split
  · simp [held_mgmtRecv ‹_›]
  · simp

theorem keeps_execReleaseNotice (counter : Nat) (tagOk : Bool) (hpool : π ≠ .pool) :
    Keeps π s (execReleaseNotice peer counter tagOk s) := by
  rw [execReleaseNotice, keeps_next]
  split
  · simp [held_mgmtRecv ‹_›, hpool]
  · simp

theorem keeps_execRequestUpdate (size : Nat) (hflash : π ≠ .flash) : Keeps π s (execRequestUpdate slot size s) := by
  rw [execRequestUpdate, keeps_next]
  exact held_pldmUpdate fun s t => held_requestUpdate hflash

theorem keeps_execActivateFirmware (selfContained : Bool) : Keeps π s (execActivateFirmware selfContained s) := by
  rw [execActivateFirmware, keeps_next]
  exact held_pldmUpdate fun s t => held_activateFirmware

theorem keeps_execCancelUpdate : Keeps π s (execCancelUpdate s) := by
  rw [execCancelUpdate, keeps_next]
  exact held_pldmUpdate fun s t => held_cancelUpdate

theorem keeps_execBar2Access (write : Bool) (offset size : Nat) (data : List Byte) :
    Keeps π s (execBar2Access write offset size data s) := by
  rw [execBar2Access]
  split
  · exact keeps_refused _
  · simp [keeps_next]

theorem keeps_execRegisterWrite (bar2 : Bool) (offset size value : Nat) :
    Keeps π s (execRegisterWrite bar2 offset size value s) := by
  rw [execRegisterWrite]
  split <;> split
  · exact keeps_refused _
  · simp [keeps_next]
  · exact keeps_refused _
  · simp [keeps_next]

theorem keeps_execFnAppend (parity : Bool) (hpool : π ≠ .pool) : Keeps π s (execFnAppend tile uid parity s) :=
  keeps_next.mpr (held_withSnoop fun _ => held_withParity fun _ => held_fnFinish hpool)

theorem keeps_execFnGather (parity : Bool) (hpool : π ≠ .pool) : Keeps π s (execFnGather tile uid parity s) :=
  keeps_next.mpr (held_withSnoop fun _ => held_withParity fun _ => held_fnFinish hpool)
end

/-- A command leaves what each part holds, unless it is of the part's list. The meanings that split on more than a
condition have a rule above; every other is `.next` of one operation, whose rule closes its case. -/
theorem keeps_exec {π : StatePart} {c : Instr} (s : State) (h : π.mayChange c = false) : Keeps π s (exec c s) := by
  have hjob : π = .job → mayChangeJob c = false := by rintro rfl; exact h
  have hcfg : π = .cfg → mayChangeEngineCfg c = false := by rintro rfl; exact h
  have hpool : π = .pool → mayChangePool c = false := by rintro rfl; exact h
  have hcascade : π = .cascade → mayChangeCascade c = false := by rintro rfl; exact h
  have hflash : π = .flash → mayWriteFlash c = false := by rintro rfl; exact h
  clear h
  cases c
  all_goals
    simp only [mayChangeJob, mayChangeEngineCfg, mayChangePool, mayChangeCascade, mayWriteFlash, implies_true,
      Bool.true_eq_false, imp_false] at hjob hcfg hpool hcascade hflash
  case noOp => exact keeps_execNoOp
  case ctlFenceWait => exact keeps_execCtlFenceWait
  case fenceWaitRelease => exact keeps_execFenceWaitRelease
  case ctlFenceSignal => exact keeps_execCtlFenceSignal
  case ctlFenceSignalRemote => exact keeps_execCtlFenceSignalRemote
  case ctlBarrierArrive => exact keeps_execCtlBarrierArrive
  case ctlBarrierWait => exact keeps_execCtlBarrierWait
  case ctlStepLoop => exact keeps_execCtlStepLoop
  case ctlStepLoopEnd => exact keeps_execCtlStepLoopEnd
  case busyResendTimer => exact keeps_execBusyResendTimer _
  case slotWindowClaim => exact keeps_execSlotWindowClaim _ _
  case trainingStepTimeout => exact keeps_execTrainingStepTimeout
  case portRetrainTimer => exact keeps_execPortRetrainTimer
  case laneFail => exact keeps_execLaneFail _
  case paResp => exact keeps_execPaResp _
  case msgStepHeader => exact keeps_execMsgStepHeader _ _
  case msgTokenList => exact keeps_execMsgTokenList _ _
  case msgCommit => exact keeps_execMsgCommit _ _ hpool
  case msgResult => exact keeps_execMsgResult _ _ _ _
  case msgFault tile => exact keeps_execMsgFault (tile := tile) _ _ _
  case msgAbortDone => exact keeps_execMsgAbortDone _ _
  case msgAbort => exact keeps_execMsgAbort _
  case windowNotice => exact keeps_execWindowNotice _ _ _ _ _ _
  case pairRekey => exact keeps_execPairRekey _ _ _
  case releaseNotice => exact keeps_execReleaseNotice _ _ hpool
  case requestUpdate => exact keeps_execRequestUpdate _ hflash
  case activateFirmware => exact keeps_execActivateFirmware _
  case cancelUpdate => exact keeps_execCancelUpdate
  case bar2Access => exact keeps_execBar2Access _ _ _ _
  case registerWrite => exact keeps_execRegisterWrite _ _ _ _
  case fnAppend => exact keeps_execFnAppend _ hpool
  case fnGather => exact keeps_execFnGather _ hpool
  all_goals
    refine keeps_next.mpr ?_
    simp [*]

/-- No command changes the queue: a step has taken its own command from it before the command runs. -/
theorem exec_pending {c : Instr} {s t : State} (h : exec c s = .next t) : t.pending = s.pending := by
  simpa [held] using keeps_exec (π := .queue) (c := c) s rfl t h

/-! ### O56 -/

/-- Settles O56: each clause is the rule of every command for one part. -/
theorem jobTablesAndPoolFrame : Obligations.JobTablesAndPoolFrame := by
  unfold Obligations.JobTablesAndPoolFrame
  intro c s t h
  have hkeeps (π : StatePart) (hπ : π.mayChange c = false) : held π t = held π s := keeps_exec s hπ t h
  refine ⟨fun hc => ?_, fun hc => ?_, fun hc => ?_, fun hc => ?_, fun hc => ?_⟩
  · simpa [held] using hkeeps .job hc
  · simpa [held] using hkeeps .cfg hc
  · simpa [held] using hkeeps .pool hc
  · simpa [held] using hkeeps .cascade hc
  · simpa [held] using hkeeps .flash hc

end Sys2Proof.Machine
end

section
/-!
# Slot memory (R68 to R70)

The bank of a line, and what a write to slot memory without stored errors leaves: a relation `Stores` between the state
before and after, kept by each operation from a half line up to an op's write. Settles O44 and O50.
-/
namespace Sys2Proof.Machine

/-! ### Banks (R68) -/

/-- Settles O44, from the three runs of bits that a bank number is made of. -/
theorem bankOfLine : Obligations.BankOfLine := by
  unfold Obligations.BankOfLine
  intro line i hi
  have hrun (n m : Nat) : (line / 2 ^ n % 2 ^ m).testBit i = (decide (i < m) && line.testBit (i + n)) := by
    rw [Nat.testBit_mod_two_pow, Nat.testBit_div_two_pow]
  have hlow : (line % 256).testBit i = line.testBit i := by simpa [hi] using hrun 0 8
  have hmid : (line / 256 % 256).testBit i = line.testBit (i + 8) := by simpa [hi] using hrun 8 8
  have htop : (line / 65536 % 32).testBit i = (decide (i < 5) && line.testBit (i + 16)) := hrun 16 5
  constructor
  · rw [← hlow, ← hmid, ← htop]
    exact (Nat.testBit_xor ..).trans (congrArg (Bool.xor · _) (Nat.testBit_xor ..))
  · exact Nat.xor_lt_two_pow (n := 8) (Nat.xor_lt_two_pow (by omega) (by omega)) (by omega)

/-! ### Clean slot memory -/

theorem mem_of_mem_mapSet {α : Type} [DecidableEq α] {d v : α} {m : SMap α} {k : Nat} {kv : Nat × α}
    (h : kv ∈ mapSet d m k v) : kv ∈ m ∨ kv = (k, v) := by
  have hcell (h : kv ∈ mapCell d k v) : kv = (k, v) := by
    unfold mapCell at h
    split at h
    · cases h
    · exact List.mem_singleton.mp h
  have hdel {m : SMap α} (h : kv ∈ mapDel m k) : kv ∈ m := List.mem_of_mem_filter h
  induction m with
  | nil => exact .inr (hcell h)
  | cons x m ih =>
    rw [mapSet] at h
    split at h
    · simp only [List.mem_append, List.mem_cons] at h ⊢
      tauto
    · split at h
      · simp only [List.mem_append, List.mem_cons] at h ⊢
        tauto
      · simp only [List.mem_cons] at h ⊢
        tauto

theorem mapGet_eq_default_or_mem {α : Type} (d : α) (m : SMap α) (k : Nat) :
    mapGet d m k = d ∨ (k, mapGet d m k) ∈ m := by
  induction m with
  | nil => exact .inl rfl
  | cons kv m ih =>
    by_cases hk : k = kv.1
    · simp [mapGet, hk]
    · rw [mapGet, if_neg hk]
      exact ih.imp_right (List.mem_cons_of_mem _)

section
variable {s t u : State} {bs cs : List Byte} {tile k h a who n : Nat}

theorem SlotsClean.slot (hs : SlotsClean s) (k : Nat) : (getSlot s k).errors = [] ∧ (getSlot s k).flips = [] := by
  obtain hk | hk := mapGet_eq_default_or_mem {} s.slots k
  · rw [getSlot, hk]
    exact ⟨rfl, rfl⟩
  · exact hs _ hk

theorem SlotsClean.modSlot (hs : SlotsClean s) {f : Slot → Slot}
    (hf : (f (getSlot s tile)).errors = [] ∧ (f (getSlot s tile)).flips = []) : SlotsClean (modSlot s tile f) := by
  intro kv hkv
  obtain hkv | rfl := mem_of_mem_mapSet hkv
  · exact hs kv hkv
  · exact hf

/-! ### What a write leaves -/

/-- Slot memory without errors holds `bs` at byte `a` of the tile in `t`, and is as in `s` elsewhere; so are the tags, package
memory and the tiles. -/
structure Stores (tile a : Nat) (bs : List Byte) (s t : State) : Prop where
  byte : ∀ k b, memGet (getSlot t k).bytes b =
    if k = tile ∧ a ≤ b ∧ b < a + bs.length then bs.getD (b - a) 0 else memGet (getSlot s k).bytes b
  tag : ∀ k g, getTag t k g = getTag s k g
  pkg : t.pkg = s.pkg
  tiles : t.tiles = s.tiles
  clean : SlotsClean t

theorem Stores.of_frame (hs : SlotsClean s) (hslots : t.slots = s.slots) (hpkg : t.pkg = s.pkg)
    (htiles : t.tiles = s.tiles) : Stores tile a [] s t where
  byte k b := by rw [if_neg (by simp), getSlot, getSlot, hslots]
  tag k g := by rw [getTag, getTag, getSlot, getSlot, hslots]
  pkg := hpkg
  tiles := htiles
  clean := by rw [SlotsClean, hslots]; exact hs

/-- An update of one slot memory that writes `bs` to it. -/
theorem Stores.modSlot (hs : SlotsClean s) {f : Slot → Slot}
    (hbytes : (f (getSlot s tile)).bytes = memWrite (getSlot s tile).bytes a bs)
    (htags : (f (getSlot s tile)).tags = (getSlot s tile).tags)
    (hclean : (f (getSlot s tile)).errors = [] ∧ (f (getSlot s tile)).flips = []) :
    Stores tile a bs s (modSlot s tile f) where
  byte k b := by
    rw [getSlot_modSlot]
    by_cases hk : k = tile
    · simp [hk, hbytes, memGet_memWrite]
    · simp [hk]
  tag k g := by
    rw [getTag, getTag, getSlot_modSlot]
    split
    · next hk => rw [htags, hk]
    · rfl
  pkg := rfl
  tiles := rfl
  clean := hs.modSlot hclean

/-- Two writes side by side are one write. -/
theorem Stores.append (hst : Stores tile a bs s t) (htu : Stores tile (a + bs.length) cs t u) :
    Stores tile a (bs ++ cs) s u where
  byte k b := by
    rw [htu.byte, hst.byte, List.length_append]
    by_cases hk : k = tile
    · by_cases hlo : b - a < bs.length
      · rw [List.getD_append _ _ _ _ hlo, if_neg (by omega)]
        exact if_congr (by omega) rfl rfl
      · rw [List.getD_append_right _ _ _ _ (by omega), Nat.sub_sub, if_neg (c := _ ∧ a ≤ b ∧ b < a + bs.length) (by omega)]
        exact if_congr (by omega) rfl rfl
    · simp [hk]
  tag k g := (htu.tag k g).trans (hst.tag k g)
  pkg := htu.pkg.trans hst.pkg
  tiles := htu.tiles.trans hst.tiles
  clean := htu.clean

/-- Writing nothing is writing nothing elsewhere. -/
theorem Stores.moved (hst : Stores tile a [] s t) (b : Nat) : Stores tile b [] s t :=
  { hst with byte := fun k x => by rw [hst.byte, if_neg (by simp), if_neg (by simp)] }

/-- What happens before a write without writing. -/
theorem Stores.after (hst : Stores tile a [] s t) (htu : Stores tile a bs t u) : Stores tile a bs s u := hst.append htu

/-- A write cut in two; nothing is left for the second part of one that ends in the first. -/
theorem Stores.append_drop (hst : Stores tile a (bs.take n) s t) (htu : Stores tile (a + n) (bs.drop n) t u) :
    Stores tile a bs s u := by
  have hplace : Stores tile (a + (bs.take n).length) (bs.drop n) t u := by
    by_cases hn : n ≤ bs.length
    · rwa [List.length_take, Nat.min_eq_left hn]
    · rw [List.drop_eq_nil_of_le (by omega)] at htu ⊢
      exact htu.moved _
  simpa only [List.take_append_drop] using hst.append hplace

/-! ### Each operation's write -/

theorem stores_slotPut (hs : SlotsClean s) : Stores tile a bs s (slotPut tile a bs s) :=
  .modSlot hs rfl rfl (hs.slot tile)

/-- R529: without a flip mask, a half's check bits are those of its data. -/
theorem stores_halfWrite (hs : SlotsClean s) : Stores tile a [] s (halfWrite tile h s) := by
  obtain ⟨herrors, hflips⟩ := hs.slot tile
  have herror : halfWrite tile h s = slotError tile h 0 s := by simp [halfWrite, hflips, mapGet]
  rw [herror]
  exact .modSlot hs rfl rfl ⟨by rw [herrors]; rfl, hflips⟩

theorem stores_unless_empty (hs : SlotsClean s) (hst : Stores tile a bs s t) :
    Stores tile a bs s (if bs.isEmpty then s else t) := by
  split
  · next hempty =>
    rw [List.isEmpty_iff.mp hempty]
    exact .of_frame hs rfl rfl rfl
  · exact hst

theorem stores_mergeHalf (hs : SlotsClean s) : Stores tile a bs s (mergeHalf tile h a bs false s) := by
  have hput := stores_unless_empty hs (stores_slotPut (tile := tile) (a := a) (bs := bs) hs)
  rw [mergeHalf, Bool.false_and, Bool.or_false]
  simpa using hput.append (stores_halfWrite hput.clean)

theorem popCount_zero (w : Nat) : popCount w 0 = 0 := by simp [popCount, maskBits, bit]

/-- A half without an error is found good and left as it is. -/
theorem halfFind_of_clean (hs : SlotsClean s) : halfFind tile h s = ((false, false), s) := by
  obtain ⟨herrors, -⟩ := hs.slot tile
  simp [halfFind, herrors, mapGet, popCount_zero]

/-- A write inside one line meets no poison, whether it covers the halves or the line is read first (R70). -/
theorem slotLine_of_clean (hs : SlotsClean s) :
    (slotLine who tile a bs s).1 = false ∧ Stores tile a bs s (slotLine who tile a bs s).2 := by
  have hhalves : bs.take (if a % 64 < 32 then 32 - a % 64 else 0)
      ++ bs.drop (bs.take (if a % 64 < 32 then 32 - a % 64 else 0)).length = bs := by
    rw [List.length_take]
    rcases Nat.le_total (if a % 64 < 32 then 32 - a % 64 else 0) bs.length with hle | hle
    · rw [Nat.min_eq_left hle, List.take_append_drop]
    · rw [Nat.min_eq_right hle, List.take_of_length_le hle, List.drop_length, List.append_nil]
  rw [slotLine]
  generalize bs.take (if a % 64 < 32 then 32 - a % 64 else 0) = lo at hhalves ⊢
  dsimp only
  generalize bs.drop lo.length = hi at hhalves ⊢
  subst hhalves
  split
  · have hlo := stores_unless_empty hs (stores_mergeHalf (tile := tile) (a := a) (h := a / 64 * 2) (bs := lo) hs)
    exact ⟨rfl, hlo.append (stores_unless_empty hlo.clean (stores_mergeHalf hlo.clean))⟩
  · have hcount : Stores tile a [] s (evCount tile 0x20 who 0 1 (evCount tile 0x22 who 0 1 s)) :=
      .of_frame hs (by simp) (by simp) (by simp)
    rw [halfFind_of_clean hcount.clean]
    dsimp only
    rw [halfFind_of_clean hcount.clean]
    have hlo := hcount.after (stores_mergeHalf (h := a / 64 * 2) (bs := lo) hcount.clean)
    exact ⟨rfl, hlo.append (stores_mergeHalf hlo.clean)⟩

/-- A run over lines, with a line of fuel for each that the bytes touch. -/
theorem slotLines_of_clean (hs : SlotsClean s) (hfuel : bs.length + a % 64 ≤ 64 * n) :
    (slotLines who tile a bs n s).1 = false ∧ Stores tile a bs s (slotLines who tile a bs n s).2 := by
  induction n generalizing a bs s with
  | zero =>
    have hbs : bs = [] := List.eq_nil_of_length_eq_zero (by omega)
    rw [slotLines, hbs]
    exact ⟨rfl, .of_frame hs rfl rfl rfl⟩
  | succ n ih =>
    rw [slotLines]
    dsimp only
    split
    · next hempty =>
      rw [List.isEmpty_iff.mp hempty]
      exact ⟨rfl, .of_frame hs rfl rfl rfl⟩
    · obtain ⟨hgood, hline⟩ := slotLine_of_clean (who := who) (tile := tile) (a := a) (bs := bs.take (64 - a % 64)) hs
      obtain ⟨hgoods, hlines⟩ := ih (a := a + (64 - a % 64)) (bs := bs.drop (64 - a % 64)) hline.clean
        (by rw [List.length_drop]; omega)
      exact ⟨by rw [hgood, hgoods]; rfl, hline.append_drop hlines⟩

/-- What a write counts, and the lines that CLOVE moves, leave slot memory as it is. -/
theorem stores_counted (hs : SlotsClean s) : Stores tile a [] s
    (evCount tile 0x20 who 0 n (if who = 5 then moveLines 8 tile n s else s)) := by
  split <;> exact .of_frame hs (by simp) (by simp) (by simp)

/-- R70, without stored errors: a write stores its bytes and meets no poison. -/
theorem slotWrite_of_clean (hs : SlotsClean s) :
    (slotWrite who tile a bs s).1 = false ∧ Stores tile a bs s (slotWrite who tile a bs s).2 := by
  have hcounted := stores_counted (who := who) (tile := tile) (a := a)
    (n := if bs.isEmpty then 0 else (a + bs.length - 1) / 64 - a / 64 + 1) hs
  obtain ⟨hgood, hlines⟩ := slotLines_of_clean (who := who) (tile := tile) (a := a) (bs := bs) (n := bs.length / 64 + 2)
    hcounted.clean (by omega)
  exact ⟨hgood, hcounted.after hlines⟩

end

/-- Settles O50: an op's write is a run of writes to lines, and each stores its bytes. -/
theorem slotWritesTouchOnlyTheirBytes : Obligations.SlotWritesTouchOnlyTheirBytes := by
  unfold Obligations.SlotWritesTouchOnlyTheirBytes
  intro s who p bs hs
  obtain ⟨hgood, hstores⟩ := slotWrite_of_clean (who := who) (tile := p.tile) (a := p.byte) (bs := bs) hs
  rw [show wr who p bs (false, s) = slotWrite who p.tile p.byte bs s from rfl]
  refine ⟨hgood, ?_, fun k a hout => ?_, hstores.tag, hstores.pkg, hstores.tiles, hstores.clean⟩
  · refine List.ext_getElem (by simp [memRead]) fun i hi hi' => ?_
    simp [memRead, hstores.byte, hi']
  · rw [hstores.byte, if_neg (by omega)]

end Sys2Proof.Machine
end

section
/-!
# Who changes slot memory (R90, R91)

The frame of slot memory. Most operations of the model leave the tiles' slot memories as they are, tags, claims, errors
and all: rules `slots_…`. Of the commands that O52 speaks of, the others change tags, claims, check bits, flip masks or
scrub positions, and no byte: rules `slotData_…`. The rules are `simp` lemmas in the order of the model's files, so the
rule of an operation follows from those of the operations that it calls; a rule of every command, and with it O52, comes at
the end.
-/
namespace Sys2Proof.Machine

/-! ### The bytes of the slot memories -/

/-- The bytes of each slot memory of a table. -/
def slotData (slots : SMap Slot) : Nat → Mem := fun k => (mapGet {} slots k).bytes

theorem mapGet_mapVals {α : Type} [DecidableEq α] {d : α} {f : α → α} (hf : f d = d) (m : SMap α) (k : Nat) :
    mapGet d (mapVals d f m) k = f (mapGet d m k) := by
  induction m with
  | nil => exact hf.symm
  | cons kv m ih =>
    have hcons : mapVals d f (kv :: m) = mapSet d (mapVals d f m) kv.1 (f kv.2) := rfl
    rw [hcons, mapGet_mapSet, mapGet, ih]
    split <;> rfl

@[simp] theorem slotData_mapMod (slots : SMap Slot) (k : Nat) {f : Slot → Slot} (hf : ∀ x, (f x).bytes = x.bytes) :
    slotData (mapMod {} slots k f) = slotData slots := by
  funext x
  rw [slotData, mapGet_mapMod, slotData]
  split
  · next hx => rw [hf, hx]
  · rfl

@[simp] theorem slotData_mapVals {f : Slot → Slot} (hd : f {} = {}) (hf : ∀ x, (f x).bytes = x.bytes)
    (slots : SMap Slot) : slotData (mapVals {} f slots) = slotData slots := by
  funext x
  rw [slotData, mapGet_mapVals hd, hf, slotData]

/-! ### Branches and folds -/

@[simp] theorem slots_ite (c : Prop) [Decidable c] (s t : State) :
    (if c then s else t).slots = if c then s.slots else t.slots := apply_ite State.slots c s t

@[simp] theorem slotData_ite (c : Prop) [Decidable c] (l m : SMap Slot) :
    slotData (if c then l else m) = if c then slotData l else slotData m := apply_ite slotData c l m

section
variable {α β δ : Type} {xs : List α}

@[simp] theorem slots_forAll {f : State → α → State} (h : ∀ s x, (f s x).slots = s.slots) {s : State} :
    (forAll xs f s).slots = s.slots := forAll_keeps State.slots h s

@[simp] theorem slotData_forAll {f : State → α → State} (h : ∀ s x, slotData (f s x).slots = slotData s.slots)
    {s : State} : slotData (forAll xs f s).slots = slotData s.slots :=
  forAll_keeps (fun s => slotData s.slots) h s

/-- What each step of a fold keeps, the fold keeps. -/
theorem foldl_keeps (g : β → δ) {f : β → α → β} (h : ∀ a x, g (f a x) = g a) (a : β) : g (xs.foldl f a) = g a := by
  induction xs generalizing a with
  | nil => rfl
  | cons x xs ih => exact (ih (f a x)).trans (h a x)

@[simp] theorem slots_foldl {f : State → α → State} (h : ∀ s x, (f s x).slots = s.slots) {s : State} :
    (xs.foldl f s).slots = s.slots := foldl_keeps State.slots h s

@[simp] theorem slotData_foldl {f : State → α → State} (h : ∀ s x, slotData (f s x).slots = slotData s.slots)
    {s : State} : slotData (xs.foldl f s).slots = slotData s.slots := foldl_keeps (fun s => slotData s.slots) h s

@[simp] theorem slots_foldl_snd {f : β × State → α → β × State} (h : ∀ a x, (f a x).2.slots = a.2.slots)
    {a : β × State} : (xs.foldl f a).2.slots = a.2.slots := foldl_keeps (fun a => a.2.slots) h a

@[simp] theorem slotData_foldl_snd {f : β × State → α → β × State}
    (h : ∀ a x, slotData (f a x).2.slots = slotData a.2.slots) {a : β × State} :
    slotData (xs.foldl f a).2.slots = slotData a.2.slots := foldl_keeps (fun a => slotData a.2.slots) h a

@[simp] theorem slots_foldl_run {f : FnRun → α → FnRun} (h : ∀ a x, (f a x).s.slots = a.s.slots) {a : FnRun} :
    (xs.foldl f a).s.slots = a.s.slots := foldl_keeps (fun a => a.s.slots) h a

end

section
variable {s : State} {r : Bool × State} {e : Entry} {q : Req}
  {tile uid cls code k n w c t b a m g who port ring slot index dpa addr off hint id cq stream first
   kind seq cause peer : Nat}

/-! ### Outputs, event counters, interrupts, logs, module state -/

@[simp] theorem slotData_modSlot {f : Slot → Slot} (h : ∀ x, (f x).bytes = x.bytes) :
    slotData (modSlot s t f).slots = slotData s.slots := slotData_mapMod s.slots t h

@[simp] theorem slots_modTask (f : Task → Task) : (modTask s t k f).slots = s.slots := by simp [modTask]

@[simp] theorem slots_modEngine (inst : Nat) (f : Engine → Engine) : (modEngine s t cls inst f).slots = s.slots := by
  simp [modEngine]

@[simp] theorem slots_esFault (task : Nat) : (esFault code task s).slots = s.slots := by simp [esFault]
@[simp] theorem slots_askDescs : (askDescs s ring).slots = s.slots := by simp [askDescs]
@[simp] theorem slots_askAll : (askAll s).slots = s.slots := by simp [askAll]
@[simp] theorem slots_settleReady : (settleReady s).slots = s.slots := by simp only [settleReady]; split <;> simp

/-! ### Package memory, slot memory, tags and claims -/

@[simp] theorem slots_noteBad : (noteBad dpa s).slots = s.slots := by simp only [noteBad]; split <;> simp
@[simp] theorem slots_pkgPoison (b : Bool) : (pkgPoison c b s).slots = s.slots := by simp [pkgPoison]
@[simp] theorem slots_pkgError (e : Nat) : (pkgError c e s).slots = s.slots := by simp [pkgError]
@[simp] theorem slots_pkgBytes (bs : List Byte) : (pkgBytes a bs s).slots = s.slots := by simp [pkgBytes]
@[simp] theorem slots_dramWrite : (dramWrite cls c s).slots = s.slots := by simp [dramWrite]

@[simp] theorem slots_dramRead : (dramRead cls c dpa s).2.slots = s.slots := by
  simp only [dramRead]
  repeat' split
  all_goals simp

@[simp] theorem slots_putCache (l : List CacheLine) : (putCache c l s).slots = s.slots := by simp [putCache]
@[simp] theorem slots_bare : (bare c s).slots = s.slots := by simp only [bare]; split <;> simp
@[simp] theorem slots_cover : (cover c s).slots = s.slots := by simp [cover]
@[simp] theorem slots_cacheUe : (cacheUe c s).slots = s.slots := by simp [cacheUe]
@[simp] theorem slots_writeBack (key : Nat) (l : CacheLine) : (writeBack key l s).slots = s.slots := by simp [writeBack]

@[simp] theorem slots_scrubUnder {dirty : Bool} {read : State → Bool × State}
    (h : ∀ s, (read s).2.slots = s.slots) :
    (scrubUnder c dirty read s).slots = s.slots := by
  simp [scrubUnder, h]

@[simp] theorem slots_cacheAlloc (keep dirty : Bool) : (cacheAlloc c keep dirty s).slots = s.slots := by
  simp only [cacheAlloc]
  repeat' split
  all_goals simp

@[simp] theorem slots_cacheHit (write : Bool) : (cacheHit c hint write s).slots = s.slots := by
  simp only [cacheHit]
  split <;> simp

@[simp] theorem slots_checkLine : (checkLine c s).slots = s.slots := by simp only [checkLine]; split <;> simp

@[simp] theorem slots_cacheAccess (write whole : Bool) : (cacheAccess cls c hint write whole s).slots = s.slots := by
  simp [cacheAccess]

@[simp] theorem slots_cacheEvict : (cacheEvict c s).slots = s.slots := by simp only [cacheEvict]; split <;> simp
@[simp] theorem slots_cacheFlush : (cacheFlush s).slots = s.slots := by simp [cacheFlush]
@[simp] theorem slots_noteTouch (write : Bool) : (noteTouch dpa write s).slots = s.slots := by simp [noteTouch]

@[simp] theorem slots_readCw : (readCw cls hint dpa s).2.slots = s.slots := by
  simp only [readCw]
  repeat' split
  all_goals simp

@[simp] theorem slots_readCws : (readCws cls hint w n s).2.slots = s.slots := by
  induction n generalizing w s with
  | zero => rfl
  | succ n ih => simp [readCws, ih]

@[simp] theorem slots_pkgRead : (pkgRead cls hint dpa n s).2.slots = s.slots := by simp [pkgRead]

@[simp] theorem slots_writeCw (bs : List Byte) (bad inLine : Bool) :
    (writeCw cls dpa bs bad inLine s).slots = s.slots := by
  simp [writeCw]

@[simp] theorem slots_writeLine (bs : List Byte) (bad : Bool) : (writeLine cls hint dpa bs bad s).slots = s.slots := by
  simp [writeLine]

@[simp] theorem slots_writeLines {bs : List Byte} {bad : Bool} :
    (writeLines cls hint dpa bs bad n s).slots = s.slots := by
  induction n generalizing dpa bs s with
  | zero => rfl
  | succ n ih => simp [writeLines, ih]

@[simp] theorem slots_pkgWrite (bs : List Byte) (bad : Bool) : (pkgWrite cls hint dpa bs bad s).slots = s.slots := by
  simp [pkgWrite]

@[simp] theorem slots_poisonCw : (poisonCw dpa s).slots = s.slots := by simp [poisonCw]
@[simp] theorem slots_pkgWord : (pkgWord cls dpa n s).2.slots = s.slots := by simp [pkgWord]
@[simp] theorem slotData_clearFlips : slotData (clearFlips s).slots = slotData s.slots := by simp [clearFlips]

@[simp] theorem slotData_setTag (t : BitVec 8) : slotData (setTag tile g t s).slots = slotData s.slots := by
  simp [setTag]

@[simp] theorem slotData_slotError (h e : Nat) : slotData (slotError tile h e s).slots = slotData s.slots := by
  simp [slotError]

@[simp] theorem slotData_halfWrite (h : Nat) : slotData (halfWrite tile h s).slots = slotData s.slots := by
  simp [halfWrite]

@[simp] theorem slotData_claimOut (owner : Nat) : slotData (claimOut owner tile g s).slots = slotData s.slots := by
  simp [claimOut]

@[simp] theorem slotData_unclaimOut (owner : Nat) : slotData (unclaimOut owner tile g s).slots = slotData s.slots := by
  simp [unclaimOut]

@[simp] theorem slotData_unclaimIn : slotData (unclaimIn tile g s).slots = slotData s.slots := by simp [unclaimIn]

/-! ### Op lists and descriptors, as PEPPER reads them -/

@[simp] theorem slots_readOps : (readOps dpa n s).2.slots = s.slots := by simp [readOps]
@[simp] theorem slots_readDesc : (readDesc addr s).2.slots = s.slots := by simp [readDesc]

@[simp] theorem slots_admission (own : Nat) (set : Option StepSetParams) :
    (admission own addr set s).2.slots = s.slots := by
  simp only [admission]
  repeat' split
  all_goals simp

/-! ### Frames, packets and messages that go out -/

@[simp] theorem slots_sendFrame (payload : List Byte) : (sendFrame port kind seq payload s).slots = s.slots := by
  simp [sendFrame]

@[simp] theorem slots_pumpFrames : (pumpFrames port n s).slots = s.slots := by
  induction n generalizing s with
  | zero => rfl
  | succ n ih => simp [pumpFrames, ih]

@[simp] theorem slots_handOver (bytes : List Byte) : (handOver port bytes s).slots = s.slots := by simp [handOver]

@[simp] theorem slots_putOut (op : Nat) (p : Packet) (wire : List Byte) :
    (putOut port op p wire s).slots = s.slots := by
  simp [putOut]

@[simp] theorem slots_mgmtVia (counter : Nat) (body : List Nat) :
    (mgmtVia port peer counter code body s).slots = s.slots := by
  simp [mgmtVia]

@[simp] theorem slots_mgmtSend (body : List Nat) : (mgmtSend peer code body s).slots = s.slots := by
  simp only [mgmtSend]
  split <;> simp

@[simp] theorem slots_reportSend (o : Nat → Out) : (reportSend o s).slots = s.slots := by
  simp only [reportSend]
  split <;> simp

@[simp] theorem slots_askRekey : (askRekey k s).slots = s.slots := by simp [askRekey]
@[simp] theorem slots_nextSeq : (nextSeq k s).slots = s.slots := by simp [nextSeq]
@[simp] theorem slots_beginRoll : (beginRoll k s).slots = s.slots := by simp [beginRoll]

@[simp] theorem slots_pumpOne : (pumpOne k s).slots = s.slots := by
  simp only [pumpOne]
  repeat' split
  all_goals simp

@[simp] theorem slots_pumpMany : (pumpMany k n s).slots = s.slots := by
  induction n generalizing s with
  | zero => rfl
  | succ n ih => simp [pumpMany, ih]

@[simp] theorem slots_pump : (pump k s).slots = s.slots := by simp [pump]
@[simp] theorem slots_pumpPort : (pumpPort port s).slots = s.slots := by simp [pumpPort]

@[simp] theorem slots_sendPacket (owner : Nat) (b : PktBody) : (sendPacket k owner b s).slots = s.slots := by
  simp [sendPacket]

@[simp] theorem slots_sendReply (b : PktBody) : (sendReply k b s).slots = s.slots := by simp [sendReply]

@[simp] theorem slots_stepSendOut (member : Nat) (o : Out) : (stepSendOut member code o s).slots = s.slots := by
  simp [stepSendOut]

@[simp] theorem slots_stepSend (member : Nat) (body : List Nat) : (stepSend member code body s).slots = s.slots := by
  simp [stepSend]

@[simp] theorem slots_stepSendAll (body : List Nat) : (stepSendAll code body s).slots = s.slots := by
  simp only [stepSendAll]
  split <;> simp

/-! ### Fences and barriers -/

@[simp] theorem slots_fencePut (v : Nat) : (fencePut c v s).slots = s.slots := by simp [fencePut]
@[simp] theorem slots_noteWaits : (noteWaits s).slots = s.slots := by simp [noteWaits]
@[simp] theorem slots_fenceAdd : (fenceAdd c n s).slots = s.slots := by simp [fenceAdd]
@[simp] theorem slots_fenceLocal : (fenceLocal c n s).slots = s.slots := by simp [fenceLocal]
@[simp] theorem slots_drainPending : (drainPending s).slots = s.slots := by simp [drainPending]

@[simp] theorem slots_barReleased (failed : Bool) : (barReleased b g failed code s).slots = s.slots := by
  simp [barReleased]

@[simp] theorem slots_barFinish (failed : Bool) (members : List Nat) :
    (barFinish b g failed code members s).slots = s.slots := by
  simp [barFinish]

@[simp] theorem slots_rootArrive (member : Nat) : (rootArrive b member g s).slots = s.slots := by simp [rootArrive]
@[simp] theorem slots_arriveLocal : (arriveLocal b s).slots = s.slots := by simp [arriveLocal]
@[simp] theorem slots_barSetup (p : BarrierParams) : (barSetup p s).slots = s.slots := by simp [barSetup]
@[simp] theorem slots_barPeerLost : (barPeerLost m s).slots = s.slots := by simp [barPeerLost]

/-! ### Completion records -/

@[simp] theorem slots_d2hDone : (d2hDone id s).slots = s.slots := by simp [d2hDone]

@[simp] theorem slots_queueRecord (r : RecFields) : (queueRecord cq index r s).slots = s.slots := by
  simp only [queueRecord]
  split <;> simp

@[simp] theorem slots_taskRecord (fault taskId opIx : Nat) (st : EngStatus) :
    (taskRecord ring index fault taskId opIx tile st s).slots = s.slots := by
  simp [taskRecord]

@[simp] theorem slots_updateRecord (status : Nat) : (updateRecord ring index slot status s).slots = s.slots := by
  simp [updateRecord]

@[simp] theorem slots_jobFaultRecord (step aborts : Nat) : (jobFaultRecord step code aborts s).slots = s.slots := by
  simp [jobFaultRecord]

@[simp] theorem slots_ringError (tail : Nat) : (ringError ring cause tail s).slots = s.slots := by
  simp only [ringError]
  split <;> simp

@[simp] theorem slots_cqError : (cqError cq s).slots = s.slots := by simp [cqError]
@[simp] theorem slots_retire : (retire ring index s).slots = s.slots := by simp [retire]
@[simp] theorem slots_announce (fault : Nat) : (announce cq fault s).slots = s.slots := by simp [announce]
@[simp] theorem slots_startRecord : (startRecord cq s).slots = s.slots := by simp only [startRecord]; split <;> simp

@[simp] theorem slots_recordLineDone : (recordLineDone cq s).slots = s.slots := by
  simp only [recordLineDone]
  repeat' split
  all_goals simp

@[simp] theorem slots_recordDone : (recordDone cq s).slots = s.slots := by simp only [recordDone]; split <;> simp

/-! ### Window entries, tasks, faults, the ends of ops, the edges of a step -/

@[simp] theorem slots_modEntry (f : Entry → Entry) : (modEntry tile uid f s).slots = s.slots := by simp [modEntry]
@[simp] theorem slots_dropEntry : (dropEntry tile uid s).slots = s.slots := by simp [dropEntry]
@[simp] theorem slots_freeTask : (freeTask tile k s).slots = s.slots := by simp [freeTask]
@[simp] theorem slots_startTask : (startTask tile k s).slots = s.slots := by simp [startTask]
@[simp] theorem slots_headWord : (headWord addr s).2.slots = s.slots := by simp [headWord]
@[simp] theorem slots_bindTask : (bindTask tile k s).slots = s.slots := by simp [bindTask]
@[simp] theorem slots_parkTask : (parkTask tile k s).slots = s.slots := by simp [parkTask]
@[simp] theorem slots_signalTask (d : DescWord) : (signalTask d s).slots = s.slots := by simp [signalTask]

@[simp] theorem slots_completeTask : (completeTask tile k s).slots = s.slots := by
  simp only [completeTask]
  split <;> simp

@[simp] theorem slots_endFaulted : (endFaulted tile k s).slots = s.slots := by simp only [endFaulted]; split <;> simp

@[simp] theorem slots_settleTask : (settleTask tile k s).slots = s.slots := by
  simp only [settleTask]
  repeat' split
  all_goals simp

@[simp] theorem slots_mgrAbort (weights : Bool) : (mgrAbort code weights s).slots = s.slots := by
  simp only [mgrAbort]
  split <;> simp

@[simp] theorem slots_stepFault (taskId : Nat) (weights : Bool) :
    (stepFault code taskId tile weights s).slots = s.slots := by
  simp only [stepFault]
  repeat' split
  all_goals simp

@[simp] theorem slots_faultTask (opIx : Nat) : (faultTask tile k code opIx s).slots = s.slots := by simp [faultTask]

@[simp] theorem slotData_releaseClaims : slotData (releaseClaims tile e s).slots = slotData s.slots := by
  simp [releaseClaims]

@[simp] theorem slots_freeInstance : (freeInstance tile e s).slots = s.slots := by simp [freeInstance]

@[simp] theorem slotData_completeTags : slotData (completeTags tile e s).slots = slotData s.slots := by
  simp [completeTags]

@[simp] theorem slots_countCross : (countCross tile e s).slots = s.slots := by simp [countCross]

@[simp] theorem slotData_failOp : slotData (failOp tile uid code s).slots = slotData s.slots := by
  simp only [failOp]; split <;> simp

@[simp] theorem slotData_completeOp (st : EngStatus) :
    slotData (completeOp tile uid st s).slots = slotData s.slots := by
  simp only [completeOp]
  split <;> simp

@[simp] theorem slotData_cancelOps : slotData (cancelOps tile k s).slots = slotData s.slots := by simp [cancelOps]
@[simp] theorem slots_sendForOp (b : PktBody) : (sendForOp k tile uid b s).slots = s.slots := by simp [sendForOp]

@[simp] theorem slotData_settlePacket (own : Nat) : slotData (settlePacket own code s).slots = slotData s.slots := by
  simp only [settlePacket]
  repeat' split
  all_goals simp

@[simp] theorem slotData_winClaim : slotData (winClaim w s).slots = slotData s.slots := by
  simp only [winClaim]; split <;> simp

@[simp] theorem slotData_winBegin : slotData (winBegin w s).slots = slotData s.slots := by simp [winBegin]
@[simp] theorem slots_winDiscard : (winDiscard w s).slots = s.slots := by simp [winDiscard]

@[simp] theorem slotData_windowsBind (tag : Nat) : slotData (windowsBind tag s).slots = slotData s.slots := by
  simp [windowsBind]

@[simp] theorem slotData_bindStep (h : StepHeader) (toks : List Nat) :
    slotData (bindStep h toks s).slots = slotData s.slots := by
  simp only [bindStep]
  split <;> simp

@[simp] theorem slotData_tryBind : slotData (tryBind s).slots = slotData s.slots := by
  simp only [tryBind]
  repeat' split
  all_goals simp

@[simp] theorem slotData_cancelTask (acc : List Ended × State) :
    slotData (cancelTask tile k acc).2.slots = slotData acc.2.slots := by
  simp only [cancelTask]
  split <;> simp

@[simp] theorem slotData_cancelTile {sel : EngineSel} {acc : List Ended × State} :
    slotData (cancelTile sel tile acc).2.slots = slotData acc.2.slots := by
  simp only [cancelTile]
  rw [slotData_foldl_snd]
  · simp
  · intro a w
    repeat' split
    all_goals simp

@[simp] theorem slotData_cancelTasks (q : EngineSel) : slotData (cancelTasks q s).2.slots = slotData s.slots := by
  simp [cancelTasks]

@[simp] theorem slotData_enterFailed : slotData (enterFailed s).slots = slotData s.slots := by
  simp only [enterFailed]
  repeat' split
  all_goals simp

@[simp] theorem slotData_cannotHold : slotData (cannotHold s).slots = slotData s.slots := by simp [cannotHold]

/-! ### Operands in memory, with poison -/

@[simp] theorem slots_pkgReadP : (pkgReadP cls hint dpa n s).2.slots = s.slots := by simp [pkgReadP]

@[simp] theorem slots_internalKind : (internalKind cls s).2.slots = s.slots := by
  simp only [internalKind]
  split <;> simp

@[simp] theorem slotData_engineError : slotData (engineError tile uid e s).slots = slotData s.slots := by
  simp [engineError]

@[simp] theorem slotData_withParity {parity : Bool} {f : State → State}
    (h : ∀ s, slotData (f s).slots = slotData s.slots) :
    slotData (withParity tile uid cls code parity f s).slots = slotData s.slots := by
  simp only [withParity]
  split
  · split <;> simp
  · exact h s

/-! ### PEPPER: admission, filling, issue -/

@[simp] theorem slots_pllOn : (pllOn tile s).slots = s.slots := by simp [pllOn]
@[simp] theorem slots_addTask (k : Task) : (addTask tile k s).slots = s.slots := by simp [addTask]
@[simp] theorem slots_waitingPrio (w : Waiting) : (waitingPrio w s).2.slots = s.slots := by simp [waitingPrio]

@[simp] theorem slots_nextAdmit : (nextAdmit s tile).2.slots = s.slots := by
  simp only [nextAdmit]
  split
  · rfl
  · split
    · rfl
    · refine slots_foldl_snd (fun a w => ?_)
      split <;> simp

@[simp] theorem slots_refuseTask (src : TaskSource) (d : DescWord) :
    (refuseTask tile src d code index s).slots = s.slots := by
  simp only [refuseTask]
  split <;> simp

@[simp] theorem slots_admitNext : (admitNext tile s).slots = s.slots := by
  have hnext := slots_nextAdmit (s := s) (tile := tile)
  simp only [admitNext]
  split
  · rfl
  · split <;> rename_i heq <;> (rw [heq] at hnext; dsimp only at hnext)
    · exact hnext
    · split <;> simp [hnext]

@[simp] theorem slots_advanceTask : (advanceTask tile k s).slots = s.slots := by simp [advanceTask]
@[simp] theorem slots_readBlock : (readBlock tile k s).slots = s.slots := by simp [readBlock]
@[simp] theorem slots_fillOp : (fillOp tile k s).slots = s.slots := by simp [fillOp]

@[simp] theorem slots_fillLoop : (fillLoop tile n s).slots = s.slots := by
  induction n generalizing s with
  | zero => rfl
  | succ n ih =>
    simp only [fillLoop]
    split
    · rfl
    · split <;> simp [ih]

@[simp] theorem slots_countIssue : (countIssue tile e s).slots = s.slots := by simp [countIssue]
@[simp] theorem slotData_completeCtl : slotData (completeCtl tile e s).slots = slotData s.slots := by simp [completeCtl]
@[simp] theorem slots_markIssued : (markIssued tile uid s).slots = s.slots := by simp [markIssued]
@[simp] theorem slotData_barWait : slotData (barWait tile e s).slots = slotData s.slots := by simp [barWait]
@[simp] theorem slotData_releaseWaits : slotData (releaseWaits s).slots = slotData s.slots := by simp [releaseWaits]
@[simp] theorem slots_sendResults : (sendResults s).slots = s.slots := by simp only [sendResults]; split <;> simp
@[simp] theorem slotData_arriveOp : slotData (arriveOp tile e b s).slots = slotData s.slots := by simp [arriveOp]
@[simp] theorem slots_startGroup : (startGroup tile s).slots = s.slots := by simp [startGroup]

/-! ### FENNEL -/

@[simp] theorem slots_fnWord : (fnWord addr n s).2.slots = s.slots := by simp [fnWord]
@[simp] theorem slots_fnPut (v : Nat) : (fnPut addr n v s).slots = s.slots := by simp [fnPut]
@[simp] theorem slots_setFreeHead (h : Nat) : (setFreeHead tile h s).slots = s.slots := by simp [setFreeHead]
@[simp] theorem slots_setDead (l : List Nat) : (setDead tile l s).slots = s.slots := by simp [setDead]
@[simp] theorem slots_setWork (l : List FoldWork) : (setWork tile l s).slots = s.slots := by simp [setWork]

@[simp] theorem slots_pushFree (p : PoolParams) (page : Nat) : (pushFree tile p page s).slots = s.slots := by
  simp [pushFree]

@[simp] theorem slots_decPage (p : PoolParams) (page : Nat) : (decPage tile p page s).slots = s.slots := by
  simp [decPage]

@[simp] theorem slots_workEntry (p : PoolParams) (w : FoldWork) : (workEntry tile p w s).2.slots = s.slots := by
  simp only [workEntry]
  split <;> simp

@[simp] theorem slots_foldStep (p : PoolParams) : (foldStep tile p s).slots = s.slots := by
  simp only [foldStep]
  split <;> simp

@[simp] theorem slots_foldMany {p : PoolParams} : (foldMany tile p n s).slots = s.slots := by
  induction n generalizing s with
  | zero => rfl
  | succ n ih => simp [foldMany, ih]

@[simp] theorem slots_foldAll (p : PoolParams) : (foldAll tile p s).slots = s.slots := by simp [foldAll]
@[simp] theorem slots_foldTiles : (foldTiles s).slots = s.slots := by simp only [foldTiles]; split <;> simp

@[simp] theorem slots_reclaim (p : PoolParams) : (reclaim tile p s).slots = s.slots := by
  simp only [reclaim]
  split <;> simp

@[simp] theorem slots_background : (background tile s).slots = s.slots := by simp only [background]; split <;> simp

@[simp] theorem slots_commitTile (p : PoolParams) (ns : List PageNotice) :
    (commitTile p ns s tile).slots = s.slots := by
  simp [commitTile]

@[simp] theorem slots_fennelCommit (ns : List PageNotice) : (fennelCommit n ns s).slots = s.slots := by
  simp only [fennelCommit]
  split <;> simp

@[simp] theorem slots_fennelAbort : (fennelAbort s).slots = s.slots := by
  simp only [fennelAbort]
  split
  · exact slots_forAll fun a t => slots_forAll fun b g => by simp
  · simp

@[simp] theorem slots_rebuildTile (p : PoolParams) : (rebuildTile p s tile).slots = s.slots := by simp [rebuildTile]
@[simp] theorem slots_fennelRestore : (fennelRestore s).slots = s.slots := by simp only [fennelRestore]; split <;> simp
@[simp] theorem slots_fnRead (r : FnRun) : (fnRead addr n r).2.s.slots = r.s.slots := by simp [fnRead]

@[simp] theorem slots_overlayAt (j : FnJob) (l : Nat) (r : FnRun) : (overlayAt j l b r).2.s.slots = r.s.slots := by
  simp only [overlayAt]
  split <;> simp

@[simp] theorem slots_addOverlay (j : FnJob) (l pte src : Nat) : (addOverlay j l b pte src n s).slots = s.slots := by
  simp [addOverlay]

@[simp] theorem slots_committedAt (j : FnJob) (l : Nat) (r : FnRun) : (committedAt j l b r).2.s.slots = r.s.slots := by
  simp only [committedAt]
  split <;> simp

@[simp] theorem slots_takePage (j : FnJob) (r : FnRun) : (takePage j g r).s.slots = r.s.slots := by simp [takePage]

@[simp] theorem slots_allocPage (j : FnJob) (r : FnRun) : (allocPage j r).2.s.slots = r.s.slots := by
  simp only [allocPage]
  repeat' split
  all_goals simp

@[simp] theorem slots_listPair (l src dst : Nat) (r : FnRun) : (listPair l src dst n r).s.slots = r.s.slots := by
  simp only [listPair]
  split <;> simp

@[simp] theorem slots_appendPage {j : FnJob} {start l : Nat} {a : FnRun} :
    (appendPage j start l b a).2.s.slots = a.s.slots := by
  have hover := slots_overlayAt (j := j) (l := l) (b := b) (r := a)
  simp only [appendPage]
  split <;> rename_i heq <;> (rw [heq] at hover; dsimp only at hover)
  · split <;> simp [hover]
  · repeat' split
    all_goals simp [hover]

@[simp] theorem slots_appendBlock (j : FnJob) (lo hi : Nat) (r : FnRun) (x : Nat × Nat) :
    (appendBlock j lo hi r x).s.slots = r.s.slots := by
  simp only [appendBlock]
  split <;> simp

@[simp] theorem slots_gatherBlock {j : FnJob} {lo hi : Nat} {a : FnRun} {x : Nat × Nat} :
    (gatherBlock j lo hi a x).s.slots = a.s.slots := by
  have hover := slots_overlayAt (j := j) (l := x.1) (b := x.2) (r := a)
  simp only [gatherBlock]
  split
  · rfl
  · split <;> rename_i heq <;> (rw [heq] at hover; dsimp only at hover) <;> simp [hover]

@[simp] theorem slots_stampPage (j : FnJob) (r : FnRun) : (stampPage j r g).s.slots = r.s.slots := by
  simp only [stampPage]
  repeat' split
  all_goals simp

@[simp] theorem slots_fnBlocks (p : PoolParams) : (fnBlocks code tile e p s).s.slots = s.slots := by
  simp only [fnBlocks]
  split <;> simp

@[simp] theorem slots_fnStamped (p : PoolParams) : (fnStamped code tile e p s).s.slots = s.slots := by simp [fnStamped]
@[simp] theorem slots_fnListed (p : PoolParams) : (fnListed code tile e p s).slots = s.slots := by simp [fnListed]

@[simp] theorem slotData_fnFinish : slotData (fnFinish tile uid code s).slots = slotData s.slots := by
  simp only [fnFinish]
  repeat' split
  all_goals simp

/-! ### Snoops -/

@[simp] theorem slots_snoopLine (entry : Nat) (x : Nat × Bool) : (snoopLine tile entry s x).slots = s.slots := by
  simp [snoopLine]

@[simp] theorem slotData_withSnoopAt {i : Instr} {f : State → State}
    (h : ∀ s, slotData (f s).slots = slotData s.slots) :
    slotData (withSnoopAt n i f s).slots = slotData s.slots := by
  simp [withSnoopAt, h]

@[simp] theorem slotData_withSnoop {i : Instr} {f : State → State}
    (h : ∀ s, slotData (f s).slots = slotData s.slots) :
    slotData (withSnoop i f s).slots = slotData s.slots := slotData_withSnoopAt h

/-! ### Adders and epochs of windows -/

@[simp] theorem slots_addCounts (c : ReCounts) : (addCounts w c s).slots = s.slots := by simp [addCounts]
@[simp] theorem slots_winZero : (winZero w s).slots = s.slots := by simp [winZero]

@[simp] theorem slots_foldLine (x : Window) (publish o : Nat) : (foldLine x publish s o).slots = s.slots := by
  simp [foldLine]

@[simp] theorem slots_winFold : (winFold w s).slots = s.slots := by simp [winFold]

@[simp] theorem slotData_winMark : slotData (winMark w s).slots = slotData s.slots := by
  simp only [winMark]; split <;> simp

@[simp] theorem slots_shardBytes (x : Window) : (shardBytes x s).2.slots = s.slots := by simp [shardBytes]
@[simp] theorem slots_winPublish : (winPublish w s).slots = s.slots := by simp [winPublish]

@[simp] theorem slotData_winComplete : slotData (winComplete w s).slots = slotData s.slots := by
  simp only [winComplete]
  repeat' split
  all_goals simp

@[simp] theorem slotData_winCheck : slotData (winCheck w s).slots = slotData s.slots := by
  simp only [winCheck]; split <;> simp

@[simp] theorem slotData_settleLasts : slotData (settleLasts w s).slots = slotData s.slots := by simp [settleLasts]
@[simp] theorem slotData_settleLocal : slotData (settleLocal stream s).slots = slotData s.slots := by simp [settleLocal]

@[simp] theorem slots_adderApply (a : Accum) : (adderApply a s).slots = s.slots := by
  simp only [adderApply]
  split <;> simp

@[simp] theorem slots_dropAccum (mc : Nat) (a : Accum) : (dropAccum mc a s).slots = s.slots := by simp [dropAccum]

@[simp] theorem slotData_adderServe (mc : Nat) (a : Accum) : slotData (adderServe mc a s).slots = slotData s.slots := by
  simp [adderServe]

@[simp] theorem slotData_drainStream : slotData (drainStream stream s).slots = slotData s.slots := by simp [drainStream]

@[simp] theorem slots_queueVals (window : Nat) (isWin : Bool) (fmt : Nat) (vals : List Nat) (poison : Bool) :
    (queueVals stream seq window isWin fmt addr vals poison s).slots = s.slots := by
  simp [queueVals]

@[simp] theorem slots_winCommit : (winCommit w s).slots = s.slots := by simp [winCommit]
@[simp] theorem slots_windowsCommit : (windowsCommit s).slots = s.slots := by simp [windowsCommit]
@[simp] theorem slots_windowsAbort : (windowsAbort s).slots = s.slots := by simp [windowsAbort]

/-! ### The conductor and a member's side of a step -/

@[simp] theorem slots_learnMember : (learnMember s m).slots = s.slots := by simp [learnMember]
@[simp] theorem slots_learnMembers : (learnMembers s).slots = s.slots := by simp only [learnMembers]; split <;> simp
@[simp] theorem slots_addNotice (n : PageNotice) : (addNotice n s).slots = s.slots := by simp [addNotice]
@[simp] theorem slots_newSeqApply (n : NewSeq) : (newSeqApply n s).slots = s.slots := by simp [newSeqApply]
@[simp] theorem slots_newSeq (n : NewSeq) : (newSeq n s).2.slots = s.slots := by simp only [newSeq]; split <;> simp
@[simp] theorem slots_endSeq (status : Nat) : (endSeq slot status s).slots = s.slots := by simp [endSeq]

@[simp] theorem slots_finishSeq : (finishSeq slot s).2.slots = s.slots := by
  simp only [finishSeq]
  repeat' split
  all_goals simp

@[simp] theorem slots_sampleSeq (sample : Nat) : (sampleSeq slot sample s).2.slots = s.slots := by
  simp only [sampleSeq]
  repeat' split
  all_goals simp

@[simp] theorem slots_admitFrom {l : Seqs} : (admitFrom l s).slots = s.slots := by
  induction l generalizing s with
  | nil => rfl
  | cons x l ih => simp [admitFrom, ih]

@[simp] theorem slots_admitSeqs : (admitSeqs s).slots = s.slots := by simp [admitSeqs]
@[simp] theorem slots_askPrompt (line : Nat) : (askPrompt slot s line).slots = s.slots := by simp [askPrompt]

@[simp] theorem slots_beginForm (p : StepSetParams) (pool : PoolParams) (xs : List SeqPlace) :
    (beginForm p pool xs s).slots = s.slots := by
  simp [beginForm]

@[simp] theorem slots_sendRun (r : RetStep) (rerun : Bool) : (sendRun r rerun s).slots = s.slots := by
  simp only [sendRun]
  split <;> simp

@[simp] theorem slots_finishForm : (finishForm s).slots = s.slots := by simp only [finishForm]; split <;> simp

@[simp] theorem slots_formStep : (formStep s).slots = s.slots := by
  simp only [formStep]
  repeat' split
  all_goals simp

@[simp] theorem slots_promptData (data : List Byte) : (promptData id data s).slots = s.slots := by simp [promptData]
@[simp] theorem slots_promptFailed : (promptFailed id s).slots = s.slots := by simp only [promptFailed]; split <;> simp

@[simp] theorem slots_openToken (r : SeqRec) (t : TokenReport) : (openToken r t s).slots = s.slots := by
  simp [openToken]

@[simp] theorem slots_tokensRecord (step fault : Nat) (t : TokenReport) :
    (tokensRecord slot step fault t s).slots = s.slots := by
  simp [tokensRecord]

@[simp] theorem slots_commitRec (r : RetStep) (x : SeqRec) : (commitRec r s x).slots = s.slots := by simp [commitRec]
@[simp] theorem slots_commitNotice (n : PageNotice) : (commitNotice s n).slots = s.slots := by simp [commitNotice]

@[simp] theorem slots_sendCommit (step : Nat) (ns : List PageNotice) : (sendCommit step ns s m).slots = s.slots := by
  simp [sendCommit]

@[simp] theorem slotData_commitIn (step : Nat) (ns : List PageNotice) :
    slotData (commitIn step ns s).slots = slotData s.slots := by
  simp [commitIn]

@[simp] theorem slotData_commitStep : slotData (commitStep s).slots = slotData s.slots := by
  simp only [commitStep]
  split <;> simp

theorem slots_stepRecv {src num : Nat} {t : State} (h : stepRecv src num s = some t) : t.slots = s.slots := by
  simp only [stepRecv] at h
  split at h
  · cases h; rfl
  · split at h
    · cases h; simp
    · cases h

@[simp] theorem slotData_headerIn (h : StepHeader) : slotData (headerIn h s).slots = slotData s.slots := by
  simp only [headerIn]
  split <;> simp

@[simp] theorem slotData_tokensIn (toks : List Nat) : slotData (tokensIn toks s).slots = slotData s.slots := by
  simp only [tokensIn]
  split <;> simp

@[simp] theorem slotData_cancelSteps : slotData (cancelSteps s).slots = slotData s.slots := by simp [cancelSteps]
@[simp] theorem slots_parkSteps : (parkSteps s).slots = s.slots := by simp [parkSteps]

@[simp] theorem slotData_clearStepTags : slotData (clearStepTags s).slots = slotData s.slots := by
  refine slotData_forAll (fun b g => ?_)
  dsimp only; split <;> simp

@[simp] theorem slots_resubmit (x : SetTask) : (resubmit s x).slots = s.slots := by simp [resubmit]

@[simp] theorem slotData_resubmitAll : slotData (resubmitAll s).slots = slotData s.slots := by
  simp only [resubmitAll]; split <;> simp

@[simp] theorem slots_restoreCounters : (restoreCounters s).slots = s.slots := by
  simp only [restoreCounters]
  split <;> simp

@[simp] theorem slots_dropArrivals : (dropArrivals code s).slots = s.slots := by simp [dropArrivals]

@[simp] theorem slotData_abortIn (step : Nat) : slotData (abortIn step code s).slots = slotData s.slots := by
  simp only [abortIn]
  split <;> simp

@[simp] theorem slotData_undoStep : slotData (undoStep code s).slots = slotData s.slots := by simp [undoStep]
@[simp] theorem slots_payDone : (payDone s).slots = s.slots := by simp only [payDone]; split <;> simp

@[simp] theorem slotData_abortSettled : slotData (abortSettled s).slots = slotData s.slots := by
  simp only [abortSettled]
  split <;> simp

@[simp] theorem slots_memberFault (taskId : Nat) : (memberFault code taskId s).slots = s.slots := by simp [memberFault]
@[simp] theorem slots_rerunStep : (rerunStep s).slots = s.slots := by simp only [rerunStep]; split <;> simp
@[simp] theorem slotData_discardStep : slotData (discardStep s).slots = slotData s.slots := by simp [discardStep]

/-! ### The host link -/

@[simp] theorem slots_fetchTail (r : Nat) : (fetchTail r s).slots = s.slots := by simp [fetchTail]
@[simp] theorem slots_fetchHead : (fetchHead c s).slots = s.slots := by simp [fetchHead]
@[simp] theorem slots_watcherWake (head : Bool) : (watcherWake head ring s).slots = s.slots := by simp [watcherWake]
@[simp] theorem slots_newTail : (newTail ring n s).slots = s.slots := by simp [newTail]

@[simp] theorem slots_readData (data : List Byte) : (readData id data s).slots = s.slots := by
  simp only [readData]
  split <;> simp

@[simp] theorem slots_writeDone : (writeDone id s).slots = s.slots := by simp only [writeDone]; split <;> simp

@[simp] theorem slotData_snoopTimeout (line entry : Nat) :
    slotData (snoopTimeout line tile entry s).slots = slotData s.slots := by
  simp [snoopTimeout]

@[simp] theorem slotData_hostTimeout : slotData (hostTimeout id s).slots = slotData s.slots := by
  simp only [hostTimeout]
  repeat' split
  all_goals simp

@[simp] theorem slots_takeDesc : (takeDesc ring index s).slots = s.slots := by simp [takeDesc]

@[simp] theorem slots_faultDesc (fault : Nat) (d : DescSlot) : (faultDesc ring fault d s).slots = s.slots := by
  simp [faultDesc]

@[simp] theorem slots_withDesc {want : DescSlot → Bool} {f : DescSlot → State → State}
    (h : ∀ d s, (f d s).slots = s.slots) : (withDesc ring want f s).slots = s.slots := by
  unfold withDesc; repeat' split
  all_goals simp [h]

@[simp] theorem slots_submitTask (d : DescSlot) : (submitTask ring d s).slots = s.slots := by simp [submitTask]
@[simp] theorem slots_noteUpdate : (noteUpdate slot index s).slots = s.slots := by simp [noteUpdate]

@[simp] theorem slots_applyUpdate (d : DescSlot) (r : Nat × State) : (applyUpdate ring d r).slots = r.2.slots := by
  simp [applyUpdate]

@[simp] theorem slots_hdmCommit (base : Nat) : (hdmCommit base s).slots = s.slots := by simp [hdmCommit]
@[simp] theorem slots_listLine (line : Nat) : (listLine line s).slots = s.slots := by simp [listLine]

@[simp] theorem slots_hostRead.hostReadNow (line : Nat) (caches : Bool) :
    (hostRead.hostReadNow line caches s).slots = s.slots := by
  simp [hostRead.hostReadNow]

@[simp] theorem slots_hostRead {i : Instr} {caches : Bool} : (hostRead i off caches s).slots = s.slots := by
  simp only [hostRead]
  repeat' split
  all_goals simp

@[simp] theorem slots_hostWrite (c : Instr) (data : List Byte) (poison : Bool) :
    (hostWrite c off data poison s).slots = s.slots := by
  simp [hostWrite]

@[simp] theorem slots_snoopAnswer (line : Nat) (dirty : List Byte) : (snoopAnswer line dirty s).slots = s.slots := by
  simp [snoopAnswer]

@[simp] theorem slots_keyProg (dir sub keySet refresh key : Nat) :
    (keyProg stream dir sub keySet refresh key s).slots = s.slots := by
  simp only [keyProg]
  split <;> simp

@[simp] theorem slots_keyGo (keySet : Nat) : (keyGo stream keySet s).slots = s.slots := by simp [keyGo]
@[simp] theorem slots_moderationEnds : (moderationEnds cq s).slots = s.slots := by simp [moderationEnds]
@[simp] theorem slots_holdoffEnds : (holdoffEnds s).slots = s.slots := by simp [holdoffEnds]

/-! ### Mailboxes -/

@[simp] theorem slots_refuse (status : Nat) : (refuse status s).state.slots = s.slots := by simp [refuse]
@[simp] theorem slots_accept : (accept s).state.slots = s.slots := by simp [accept]

@[simp] theorem slotData_runMail {via states : Nat} {auth claim : Bool} {f : State → Answer}
    (h : ∀ s, slotData (f s).state.slots = slotData s.slots) :
    slotData (runMail code via states auth claim q f s).slots = slotData s.slots := by
  have hf := h s
  simp only [runMail]
  cases hfs : f s <;> simp_all

@[simp] theorem slotData_runGuarded {i : Instr} {via states : Nat} {auth claim : Bool} {f : State → Answer}
    (h : ∀ s, slotData (f s).state.slots = slotData s.slots) :
    slotData (runGuarded i code via states auth claim q f s).slots = slotData s.slots := by
  simp [runGuarded, h]

@[simp] theorem slotData_mailbox {i : Instr} {via states : Nat} {auth claim : Bool} {f : State → Answer}
    (h : ∀ s, slotData (f s).state.slots = slotData s.slots) :
    slotData (mailbox i code via states auth claim q f s).slots = slotData s.slots := by
  simp [mailbox, h]

@[simp] theorem slots_freeExecutor : (freeExecutor s).slots = s.slots := by simp [freeExecutor]

/-! ### Packets that come in -/

@[simp] theorem slots_resendAll (rs : List Retained) : (resendAll k rs s).slots = s.slots := by simp [resendAll]
@[simp] theorem slots_resendFrom : (resendFrom k n s).slots = s.slots := by simp [resendFrom]

@[simp] theorem slotData_settleAll (rs : List Retained) : slotData (settleAll rs code s).slots = slotData s.slots := by
  simp [settleAll]

@[simp] theorem slotData_ackUpTo : slotData (ackUpTo k n s).slots = slotData s.slots := by simp [ackUpTo]
@[simp] theorem slots_halveCap : (halveCap port peer s).slots = s.slots := by simp [halveCap]
@[simp] theorem slots_growCap : (growCap port peer s).slots = s.slots := by simp [growCap]

@[simp] theorem slotData_dropUnsent (owner : Nat) : slotData (dropUnsent k owner s).slots = slotData s.slots := by
  simp [dropUnsent]

@[simp] theorem slotData_refusedAt (reason : Nat) : slotData (refusedAt k n reason s).slots = slotData s.slots := by
  simp only [refusedAt]
  split <;> simp

@[simp] theorem slots_sendAck : (sendAck k s).slots = s.slots := by simp [sendAck]
@[simp] theorem slots_sendNak : (sendNak k s).slots = s.slots := by simp [sendNak]

@[simp] theorem slots_sendRefuse (reason : Nat) (p : Packet) : (sendRefuse k reason p s).slots = s.slots := by
  simp [sendRefuse]

@[simp] theorem slots_arrive (op : Nat) (p : Packet) : (arrive port op p s).slots = s.slots := by simp [arrive]

@[simp] theorem slots_screen (op : Nat) (p : Packet) : (screen port op p s).2.slots = s.slots := by
  simp only [screen]
  repeat' split
  all_goals simp

@[simp] theorem slotData_inSequence {op : Nat} {p : Packet} {f : Nat → State → Took}
    (h : ∀ k s, slotData (f k s).state.slots = slotData s.slots) :
    slotData (inSequence port op p f s).slots = slotData s.slots := by
  have hscreen := slots_screen (port := port) (op := op) (p := p) (s := s)
  simp only [inSequence]
  split <;> rename_i heq <;> rw [heq] at hscreen
  · exact congrArg slotData hscreen
  · rename_i k s1
    have hf := h k s1
    repeat' split
    all_goals simp_all

@[simp] theorem slotData_outOfSequence {op : Nat} {p : Packet} {f : Nat → State → State}
    (h : ∀ k s, slotData (f k s).slots = slotData s.slots) :
    slotData (outOfSequence port op p f s).slots = slotData s.slots := by
  have hscreen := slots_screen (port := port) (op := op) (p := p) (s := s)
  simp only [outOfSequence]
  split <;> rename_i heq <;> (rw [heq] at hscreen; dsimp only at hscreen)
  · exact congrArg slotData hscreen
  · simp [h, hscreen]

@[simp] theorem slotData_inOrder {f : State → Took} (h : ∀ s, slotData (f s).state.slots = slotData s.slots) :
    slotData (inOrder k f s).state.slots = slotData s.slots := by
  simp [inOrder, h]

@[simp] theorem slots_pastFold {t : Took} (h : t.state.slots = s.slots) :
    (pastFold dpa n t s).state.slots = s.slots := by
  simp [pastFold, h]

@[simp] theorem slots_winAccept (p : Packet) : (winAccept w k p s).slots = s.slots := by simp [winAccept]
@[simp] theorem slots_busyAnswer : (busyAnswer k s).state.slots = s.slots := by simp [busyAnswer]
@[simp] theorem slots_answerRead (p : Packet) : (answerRead k p dpa s).slots = s.slots := by simp [answerRead]
@[simp] theorem slots_readAt (p : Packet) : (readAt p k s).state.slots = s.slots := by simp [readAt]

@[simp] theorem slotData_onRead (p : Packet) : slotData (onRead p k s).state.slots = slotData s.slots := by
  simp [onRead]

@[simp] theorem slotData_onReadResp {p : Packet} : slotData (onReadResp p k s).state.slots = slotData s.slots := by
  refine slotData_inOrder (fun s => ?_)
  dsimp only; split <;> simp

@[simp] theorem slotData_queueWindow (offset : Nat) (vals : List Nat) (poison last : Bool) :
    slotData (queueWindow stream seq w offset vals poison last s).slots = slotData s.slots := by
  simp [queueWindow]

@[simp] theorem slots_boardAccum (p : Packet) : (boardAccum k p s).slots = s.slots := by
  simp only [boardAccum]
  split <;> simp

@[simp] theorem slotData_accumAt (p : Packet) : slotData (accumAt p k s).state.slots = slotData s.slots := by
  simp [accumAt]

@[simp] theorem slotData_onAccum {p : Packet} : slotData (onAccum p k s).state.slots = slotData s.slots := by
  have hrun (a : State) := slotData_accumAt (p := p) (k := k) (s := a)
  simp only [onAccum]
  split
  · have h := hrun s
    split <;> simp_all
  · rw [slotData_inOrder]
    intro a
    have h := hrun a
    split <;> simp_all

@[simp] theorem slotData_onFenceInc {p : Packet} : slotData (onFenceInc p k s).state.slots = slotData s.slots := by
  refine slotData_inOrder (fun s => ?_)
  dsimp only; repeat' split
  all_goals simp

@[simp] theorem slotData_onBarArrive (p : Packet) : slotData (onBarArrive p k s).state.slots = slotData s.slots := by
  simp [onBarArrive]

@[simp] theorem slotData_onBarRelease (p : Packet) : slotData (onBarRelease p k s).state.slots = slotData s.slots := by
  simp [onBarRelease]

@[simp] theorem slotData_onAck (p : Packet) : slotData (onAck p k s).slots = slotData s.slots := by simp [onAck]
@[simp] theorem slots_onNak (p : Packet) : (onNak p k s).slots = s.slots := by simp [onNak]

@[simp] theorem slotData_onRefuse (p : Packet) : slotData (onRefuse p k s).slots = slotData s.slots := by
  simp [onRefuse]

@[simp] theorem slots_freePending : (freePending k s).slots = s.slots := by simp [freePending]

@[simp] theorem slots_endOpen (status : Nat) : (endOpen k status s).slots = s.slots := by
  simp only [endOpen]
  split <;> simp

@[simp] theorem slotData_resetChan : slotData (resetChan k s).slots = slotData s.slots := by simp [resetChan]

/-! ### Members, channels, peers -/

@[simp] theorem slots_rebuildRoutes : (rebuildRoutes s).slots = s.slots := by simp [rebuildRoutes]
@[simp] theorem slots_openChan (low high : Nat) : (openChan k port low high s).slots = s.slots := by simp [openChan]
@[simp] theorem slots_peerOpens : (peerOpens k s).slots = s.slots := by simp [peerOpens]
@[simp] theorem slots_reopenChan : (reopenChan k s).slots = s.slots := by simp [reopenChan]
@[simp] theorem slots_reopenWhere (f : Nat → Bool) : (reopenWhere f s).slots = s.slots := by simp [reopenWhere]
@[simp] theorem slots_reopenAll : (reopenAll s).slots = s.slots := by simp [reopenAll]

@[simp] theorem slots_serveAgain (was : ModState) : (serveAgain was s).slots = s.slots := by
  simp only [serveAgain]
  repeat' split
  all_goals simp

@[simp] theorem slots_backReady : (backReady s).slots = s.slots := by simp [backReady]

@[simp] theorem slots_resendStep : (resendStep m s).slots = s.slots := by
  simp only [resendStep]
  repeat' split
  all_goals simp

@[simp] theorem slots_payOwed : (payOwed m s).slots = s.slots := by simp [payOwed]
@[simp] theorem slots_sendNotice : (sendNotice w peer s).slots = s.slots := by simp only [sendNotice]; split <;> simp

@[simp] theorem slotData_parkForManager : slotData (parkForManager s).slots = slotData s.slots := by
  simp [parkForManager]

@[simp] theorem slotData_memberDown : slotData (memberDown m s).slots = slotData s.slots := by simp [memberDown]
@[simp] theorem slots_memberUp : (memberUp m s).slots = s.slots := by simp [memberUp]
@[simp] theorem slotData_endAdmission : slotData (endAdmission m s).slots = slotData s.slots := by simp [endAdmission]
@[simp] theorem slotData_memberGone : slotData (memberGone m s).slots = slotData s.slots := by simp [memberGone]
@[simp] theorem slots_settlePair : (settlePair m s).slots = s.slots := by simp [settlePair]

theorem slots_mgmtRecv {m counter : Nat} {tagOk : Bool} {t : State} (h : mgmtRecv m counter tagOk s = some t) :
    t.slots = s.slots := by
  simp only [mgmtRecv] at h
  split at h
  · cases h; simp
  · cases h

@[simp] theorem slots_rekeyPair (secret : Nat) : (rekeyPair m secret s).slots = s.slots := by simp [rekeyPair]

/-! ### Ports -/

@[simp] theorem slots_portReport (before : Nat) : (portReport port before s).slots = s.slots := by simp [portReport]
@[simp] theorem slots_abortStepTasks : (abortStepTasks s).slots = s.slots := by simp [abortStepTasks]
@[simp] theorem slotData_leaveUp : slotData (leaveUp port s).slots = slotData s.slots := by simp [leaveUp]
@[simp] theorem slotData_portDown : slotData (portDown port cause s).slots = slotData s.slots := by simp [portDown]

@[simp] theorem slotData_portQuarantine : slotData (portQuarantine port cause s).slots = slotData s.slots := by
  simp [portQuarantine]

@[simp] theorem slots_portGoUp (minor : Nat) : (portGoUp port minor s).slots = s.slots := by simp [portGoUp]
@[simp] theorem slots_startTraining : (startTraining port s).slots = s.slots := by simp [startTraining]

@[simp] theorem slotData_checkMapping (r : IdRecord) : slotData (checkMapping port r s).slots = slotData s.slots := by
  simp only [checkMapping]
  repeat' split
  all_goals simp

@[simp] theorem slots_dropReach (r : IdRecord) : (dropReach port r s).slots = s.slots := by simp [dropReach]

@[simp] theorem slotData_endIdentity (loopNs : Nat) :
    slotData (endIdentity port loopNs s).slots = slotData s.slots := by
  simp only [endIdentity]
  split <;> simp

@[simp] theorem slotData_trainStep (loopNs : Nat) : slotData (trainStep port loopNs s).slots = slotData s.slots := by
  simp only [trainStep]
  repeat' split
  all_goals simp

@[simp] theorem slotData_identity (r : IdRecord) : slotData (identity port r s).slots = slotData s.slots := by
  simp [identity]

@[simp] theorem slotData_replanPort : slotData (replanPort s port).slots = slotData s.slots := by
  simp only [replanPort]
  repeat' split
  all_goals simp

@[simp] theorem slots_frameAck (ack : Nat) : (frameAck port ack s).slots = s.slots := by simp [frameAck]
@[simp] theorem slots_frameNak : (frameNak port seq s).slots = s.slots := by simp [frameNak]
@[simp] theorem slots_nakFrame : (nakFrame port s).slots = s.slots := by simp [nakFrame]

@[simp] theorem slots_msgsArrive (direct : List Nat) : (msgsArrive port direct s).slots = s.slots := by
  simp [msgsArrive]

@[simp] theorem slots_frameIn (ack : Nat) (lanes direct : List Nat) :
    (frameIn port seq ack lanes direct s).slots = s.slots := by
  simp [frameIn]

@[simp] theorem slotData_codewords (errs : List (List Nat)) :
    slotData (codewords port errs s).slots = slotData s.slots := by
  simp [codewords]

@[simp] theorem slotData_frameArrives {crcOk : Bool} {errs : List (List Nat)} {f : State → State}
    (h : ∀ s, slotData (f s).slots = slotData s.slots) :
    slotData (frameArrives port crcOk errs f s).slots = slotData s.slots := by
  simp [frameArrives, h]

@[simp] theorem slots_lightPort (lasersOk lanesOk : Nat) : (lightPort lasersOk lanesOk s port).slots = s.slots := by
  simp [lightPort]

/-! ### Long commands -/

@[simp] theorem slotData_closeWin : slotData (closeWin w s).slots = slotData s.slots := by
  simp only [closeWin]
  repeat' split
  all_goals simp

@[simp] theorem slots_closeChan : (closeChan k s).slots = s.slots := by simp [closeChan]
@[simp] theorem slots_cleanEvict : (cleanEvict addr s).slots = s.slots := by simp [cleanEvict]
@[simp] theorem slots_endRing : (endRing ring s).2.slots = s.slots := by simp [endRing]
@[simp] theorem slots_endCq : (endCq c s).slots = s.slots := by simp [endCq]

@[simp] theorem slotData_releaseGranule : slotData (releaseGranule tile g s).slots = slotData s.slots := by
  simp [releaseGranule]

@[simp] theorem slots_swapTable (engine : Nat) : (swapTable tile engine slot s).slots = s.slots := by simp [swapTable]
@[simp] theorem slots_finishLong (body : List Byte) : (finishLong q body s).slots = s.slots := by simp [finishLong]

@[simp] theorem slotData_tryFinish : slotData (tryFinish s).slots = slotData s.slots := by
  simp only [tryFinish]; split <;> simp

@[simp] theorem slotData_beginLong (l : LongCmd) : slotData (beginLong l s).state.slots = slotData s.slots := by
  simp [beginLong]

@[simp] theorem slots_collected (aon : Bool) (state : Nat) : (collected aon state s).slots = s.slots := by
  simp [collected]

@[simp] theorem slots_cutCollect : (cutCollect s).slots = s.slots := by simp [cutCollect]

@[simp] theorem slotData_endLong : slotData (endLong s).slots = slotData s.slots := by
  simp only [endLong]
  split <;> simp

/-! ### Resets, boot, standby -/

@[simp] theorem slots_fetchWatched : (fetchWatched s).slots = s.slots := by simp [fetchWatched]

@[simp] theorem slots_modFwSlot (i : Nat) (f : FwSlot → FwSlot) : (modFwSlot i f s).slots = s.slots := by
  simp [modFwSlot]

@[simp] theorem slots_dropTransfer : (dropTransfer s).slots = s.slots := by simp only [dropTransfer]; split <;> simp
@[simp] theorem slots_abortTests : (abortTests s).slots = s.slots := by simp [abortTests]
@[simp] theorem slotData_stopCardamom : slotData (stopCardamom s).slots = slotData s.slots := by simp [stopCardamom]
@[simp] theorem slots_dropPending : (dropPending s).slots = s.slots := by simp [dropPending]
@[simp] theorem slots_portsReset : (portsReset s).slots = s.slots := by simp [portsReset]
@[simp] theorem slots_portsDownReset : (portsDownReset s).slots = s.slots := by simp [portsDownReset]

@[simp] theorem slotData_cardamomRestart (m2digest : Nat) :
    slotData (cardamomRestart m2digest s).slots = slotData s.slots := by
  simp [cardamomRestart]

@[simp] theorem slotData_restoreWindow : slotData (restoreWindow s w).slots = slotData s.slots := by
  simp [restoreWindow]

@[simp] theorem slots_restoreManager : (restoreManager s).slots = s.slots := by
  simp only [restoreManager]
  split <;> simp

@[simp] theorem slots_submitResidency : (submitResidency s).slots = s.slots := by
  simp only [submitResidency]
  split <;> simp

@[simp] theorem slots_listedOps : (listedOps addr s).2.slots = s.slots := by simp only [listedOps]; split <;> simp
@[simp] theorem slots_residencyOps : (residencyOps s).2.slots = s.slots := by simp only [residencyOps]; split <;> simp
@[simp] theorem slots_restoreConfigs : (restoreConfigs s).slots = s.slots := by simp [restoreConfigs]
@[simp] theorem slots_restoreTables : (restoreTables s).slots = s.slots := by simp [restoreTables]
@[simp] theorem slots_wake : (wake s).slots = s.slots := by simp [wake]
@[simp] theorem slotData_restore : slotData (restore s).slots = slotData s.slots := by simp [restore]
@[simp] theorem slots_extendMeas (i d : Nat) : (extendMeas i d s).slots = s.slots := by simp [extendMeas]
@[simp] theorem slots_measureBoot (ds : List Nat) : (measureBoot ds s).slots = s.slots := by simp [measureBoot]
@[simp] theorem slots_logFallback : (logFallback s).slots = s.slots := by simp [logFallback]
@[simp] theorem slots_bootRuns (ds : List Nat) : (bootRuns ds s).slots = s.slots := by simp [bootRuns]
@[simp] theorem slots_bootDead : (bootDead s).slots = s.slots := by simp [bootDead]

@[simp] theorem slots_bootActive (activeOk otherOk : Bool) (ds : List Nat) :
    (bootActive activeOk otherOk ds s).slots = s.slots := by
  simp [bootActive]

@[simp] theorem slots_bootVerify (pendingOk activeOk otherOk : Bool) (ds : List Nat) :
    (bootVerify pendingOk activeOk otherOk ds s).slots = s.slots := by
  simp only [bootVerify]
  split <;> simp

@[simp] theorem slots_bootFree : (bootFree s).slots = s.slots := by simp [bootFree]
@[simp] theorem slots_takePending : (takePending s).slots = s.slots := by simp only [takePending]; split <;> simp

@[simp] theorem slots_cardamomBoot (m2digest fwVersion : Nat) :
    (cardamomBoot m2digest fwVersion s).slots = s.slots := by
  simp [cardamomBoot]

@[simp] theorem slotData_enterStandby : slotData (enterStandby s).slots = slotData s.slots := by simp [enterStandby]
@[simp] theorem slots_exitStandby : (exitStandby s).slots = s.slots := by simp [exitStandby]

/-! ### The board cascade -/

@[simp] theorem slots_cfSend (body : List Nat) : (cfSend code addr body s).slots = s.slots := by simp [cfSend]
@[simp] theorem slots_cfUp (body : List Nat) : (cfUp code body s).slots = s.slots := by simp [cfUp]
@[simp] theorem slots_cfAll (body : List Nat) : (cfAll code body s).slots = s.slots := by simp [cfAll]

@[simp] theorem slots_cfRelay (src : Nat) (body : List Nat) : (cfRelay code src body s).slots = s.slots := by
  simp [cfRelay]

@[simp] theorem slots_cfOn (body : List Nat) : (cfOn code body s).slots = s.slots := by simp [cfOn]
@[simp] theorem slots_cascadeFault : (cascadeFault s).slots = s.slots := by simp [cascadeFault]
@[simp] theorem slots_sendLoops : (sendLoops s).slots = s.slots := by simp [sendLoops]
@[simp] theorem slots_finishRamp : (finishRamp s).slots = s.slots := by simp [finishRamp]
@[simp] theorem slots_grantNext : (grantNext s).slots = s.slots := by simp only [grantNext]; split <;> simp
@[simp] theorem slots_masterWaited : (masterWaited s).slots = s.slots := by simp [masterWaited]

@[simp] theorem slots_slotEnds : (slotEnds s).slots = s.slots := by
  simp only [slotEnds]
  repeat' split
  all_goals simp

@[simp] theorem slots_takeGrant : (takeGrant slot s).slots = s.slots := by simp [takeGrant]
@[simp] theorem slots_grantTimeout : (grantTimeout s).slots = s.slots := by simp [grantTimeout]
@[simp] theorem slots_soloRamp : (soloRamp s).slots = s.slots := by simp [soloRamp]
@[simp] theorem slots_rampDoneIn (p : Nat) : (rampDoneIn p s).slots = s.slots := by simp [rampDoneIn]
@[simp] theorem slots_rampDone : (rampDone s).slots = s.slots := by simp [rampDone]

@[simp] theorem slots_helloIn (p serial : Nat) (onUp : Bool) : (helloIn p serial onUp s).slots = s.slots := by
  simp [helloIn]

@[simp] theorem slots_boardIn (p : Nat) (present : Bool) (serial : Nat) :
    (boardIn p present serial s).slots = s.slots := by
  simp [boardIn]

@[simp] theorem slots_countLoop (p : Nat) (good : Bool) : (countLoop p seq good s).slots = s.slots := by
  simp [countLoop]

@[simp] theorem slots_loopIn (p pattern : Nat) : (loopIn p seq pattern s).slots = s.slots := by simp [loopIn]
@[simp] theorem slots_faultIn (p : Nat) : (faultIn p cause s).slots = s.slots := by simp [faultIn]
@[simp] theorem slots_cascadeResend : (cascadeResend s).slots = s.slots := by simp only [cascadeResend]; split <;> simp

/-! ### Ends of drains -/

@[simp] theorem slots_drainDone : (drainDone t s).slots = s.slots := by simp only [drainDone]; split <;> simp
@[simp] theorem slotData_drainFor : slotData (drainFor kind index s).slots = slotData s.slots := by simp [drainFor]

@[simp] theorem slotData_granuleFreed : slotData (granuleFreed g s).slots = slotData s.slots := by
  simp only [granuleFreed]; split <;> simp

@[simp] theorem slotData_bankSwap (engine : Nat) : slotData (bankSwap t engine s).slots = slotData s.slots := by
  simp only [bankSwap]
  split <;> simp

@[simp] theorem slots_sessionExpires : (sessionExpires s).slots = s.slots := by simp [sessionExpires]

/-! ### Start-up -/

@[simp] theorem slots_inputIn (pos : Nat) : (inputIn pos s).slots = s.slots := by simp [inputIn]

@[simp] theorem slots_perstOff (pendingOk activeOk otherOk : Bool) (ds : List Nat) :
    (perstOff pendingOk activeOk otherOk ds s).slots = s.slots := by
  simp [perstOff]

@[simp] theorem slotData_cardamomStarts (m2digest fwVersion : Nat) :
    slotData (cardamomStarts m2digest fwVersion s).slots = slotData s.slots := by
  simp only [cardamomStarts]
  split <;> simp

@[simp] theorem slotData_trainingFailed : slotData (trainingFailed s).slots = slotData s.slots := by
  simp [trainingFailed]

@[simp] theorem slotData_memoryTrained (ok : Bool) : slotData (memoryTrained ok s).slots = slotData s.slots := by
  simp only [memoryTrained]
  split <;> simp

@[simp] theorem slots_portsMayTrain : (portsMayTrain s).slots = s.slots := by simp [portsMayTrain]
@[simp] theorem slots_checkerEntry (tiles : Nat) : (checkerEntry tiles s).2.slots = s.slots := by simp [checkerEntry]

@[simp] theorem slots_checkerDone (tiles fails : Nat) : (checkerDone tiles fails s).slots = s.slots := by
  simp [checkerDone]

/-! ### Scrubbers, self-tests, reloads -/

@[simp] theorem slotData_lastingAdd (loc : Loc) (pattern : Nat) :
    slotData (lastingAdd loc pattern s).slots = slotData s.slots := by
  simp [lastingAdd]

@[simp] theorem slotData_classEffect (loc : Loc) (pattern : Nat) :
    slotData (classEffect loc pattern cls s).slots = slotData s.slots := by
  simp [classEffect]

@[simp] theorem slotData_testWrites (loc : Loc) : slotData (testWrites loc s).slots = slotData s.slots := by
  simp only [testWrites]
  split <;> simp

@[simp] theorem slotData_selfTest (loc : Loc) (r : TestReads) :
    slotData (selfTest loc r s).slots = slotData s.slots := by
  simp only [selfTest]
  split <;> simp

@[simp] theorem slots_promoteTest (loc : Loc) : (promoteTest loc s).slots = s.slots := by simp [promoteTest]
@[simp] theorem slots_pkgLapEnds : (pkgLapEnds t s).slots = s.slots := by simp [pkgLapEnds]
@[simp] theorem slotData_verified : slotData (verified s).slots = slotData s.slots := by simp [verified]
@[simp] theorem slotData_scrubStep : slotData (scrubStep t c s).slots = slotData s.slots := by simp [scrubStep]

@[simp] theorem slots_scrubRead (cw : Nat) : (scrubRead cw s).slots = s.slots := by
  simp only [scrubRead]
  split <;> simp

@[simp] theorem slotData_scrubAbort : slotData (scrubAbort s).slots = slotData s.slots := by
  simp only [scrubAbort]; split <;> simp

@[simp] theorem slotData_scrubChannel : slotData (scrubChannel t c s).slots = slotData s.slots := by simp [scrubChannel]

@[simp] theorem slotData_lapOverdue (slot : Bool) : slotData (lapOverdue t slot s).slots = slotData s.slots := by
  simp [lapOverdue]

@[simp] theorem slots_setReloading (l : List WeightBlock) : (setReloading l s).slots = s.slots := by simp [setReloading]
@[simp] theorem slots_reloadLog (w : WeightBlock) : (reloadLog w s).slots = s.slots := by simp [reloadLog]

@[simp] theorem slots_reloadFails (w : WeightBlock) (p : WeightParams) : (reloadFails w p s).slots = s.slots := by
  simp [reloadFails]

@[simp] theorem slotData_retest (x : Nat × TestReads) : slotData (retest s x).slots = slotData s.slots := by
  simp [retest]

@[simp] theorem slots_reloadsDone : (reloadsDone s).slots = s.slots := by simp [reloadsDone]

@[simp] theorem slotData_reloadGood (w : WeightBlock) (reads : List TestReads) :
    slotData (reloadGood w reads s).slots = slotData s.slots := by
  simp [reloadGood]

@[simp] theorem slots_reloadData {x : WeightBlock} {p : WeightParams} {data : List Byte} {sourceOk : Bool} :
    (reloadData x p data sourceOk s).2.slots = s.slots := by
  rw [reloadData]
  split
  · have hread : (pkgRead 1 1 (p.src + 65536 * x.block) 65536 s).2.slots = s.slots := slots_pkgRead
    cases hr : pkgRead 1 1 (p.src + 65536 * x.block) 65536 s
    rw [hr] at hread
    exact hread
  · rfl

@[simp] theorem slotData_reloadNext (data : List Byte) (sourceOk verified : Bool) (reads : List TestReads) :
    slotData (reloadNext data sourceOk verified reads s).slots = slotData s.slots := by
  simp only [reloadNext]
  repeat' split
  all_goals simp

@[simp] theorem slots_loopbackDone (board : Bool) (lostPos lostPlane : List Nat) (elapsed : Nat) :
    (loopbackDone board lostPos lostPlane elapsed s).slots = s.slots := by
  simp only [loopbackDone]
  split <;> simp

/-! ### Tenancy -/

@[simp] theorem slots_readCert (offset : Nat) : (readCert index offset s).state.slots = s.slots := by simp [readCert]

@[simp] theorem slots_attestNow (nonce mask : Nat) : (attestNow nonce mask s).state.slots = s.slots := by
  simp [attestNow]

@[simp] theorem slots_answerPeer (nonce ek : Nat) : (answerPeer m nonce ek s).slots = s.slots := by
  simp only [answerPeer]
  repeat' split
  all_goals simp

@[simp] theorem slots_openPart0 (pk ek : Nat) : (openPart0 pk ek s).state.slots = s.slots := by simp [openPart0]
@[simp] theorem slots_newSession (pk ek : Nat) : (newSession pk ek s).2.2.slots = s.slots := by simp [newSession]

@[simp] theorem slots_openPart1 (sigOk rsvZero : Bool) : (openPart1 sigOk rsvZero s).state.slots = s.slots := by
  simp only [openPart1]
  split <;> simp

@[simp] theorem slots_openSession (part pk ek : Nat) (sigOk : Bool) :
    (openSession q part pk ek sigOk s).state.slots = s.slots := by
  simp [openSession]

@[simp] theorem slotData_claimFor (x : Session) (policy nfw : Nat) (allow : List Nat) :
    slotData (claimFor x policy nfw allow s).slots = slotData s.slots := by
  simp [claimFor]

@[simp] theorem slotData_claim (session policy nfw : Nat) (allow : List Nat) :
    slotData (claim session policy nfw allow s).state.slots = slotData s.slots := by
  simp only [claim]
  split <;> simp

/-! ### Memory, rings and pools, as group 4 sets them -/

@[simp] theorem slots_setRegions (l : List RegionEntry) : (setRegions l s).state.slots = s.slots := by simp [setRegions]
@[simp] theorem slots_setHdmSize (units : Nat) : (setHdmSize units s).state.slots = s.slots := by simp [setHdmSize]

@[simp] theorem slots_setArb (share threshold : Nat) : (setArb share threshold s).state.slots = s.slots := by
  simp [setArb]

@[simp] theorem slots_setTimeout (ms : Nat) : (setTimeout ms s).state.slots = s.slots := by simp [setTimeout]
@[simp] theorem slots_createRing (r : RingParams) : (createRing r s).state.slots = s.slots := by simp [createRing]
@[simp] theorem slots_createCq (r : RingParams) : (createCq r s).state.slots = s.slots := by simp [createCq]

@[simp] theorem slotData_destroyRing : slotData (destroyRing q ring s).state.slots = slotData s.slots := by
  simp [destroyRing]

@[simp] theorem slotData_destroyCq : slotData (destroyCq q c s).state.slots = slotData s.slots := by simp [destroyCq]
@[simp] theorem slots_zeroRange (base len : Nat) : (zeroRange base len s).slots = s.slots := by simp [zeroRange]
@[simp] theorem slots_linkPages (p : PoolParams) : (linkPages p s tile).slots = s.slots := by simp [linkPages]
@[simp] theorem slots_configPool (p : PoolParams) : (configPool p s).state.slots = s.slots := by simp [configPool]

@[simp] theorem slotData_releaseSlots (count : Nat) :
    slotData (releaseSlots q tile first count s).state.slots = slotData s.slots := by
  simp [releaseSlots]

@[simp] theorem slots_setWeights (w : WeightParams) : (setWeights w s).state.slots = s.slots := by simp [setWeights]

/-! ### Plan, jobs, channels, windows and ports, as group 5 sets them -/

@[simp] theorem slotData_setPlan (fabricId generation : Nat) (plan : List PlanEntry) :
    slotData (setPlan fabricId generation plan s).state.slots = slotData s.slots := by
  simp [setPlan]

@[simp] theorem slots_setMembers (ids : List Nat) : (setMembers ids s).state.slots = s.slots := by simp [setMembers]

@[simp] theorem slotData_attestPeer : slotData (attestPeer q peer s).state.slots = slotData s.slots := by
  simp [attestPeer]

@[simp] theorem slots_joinJob (job : Nat) (members : List Nat) (manager : Nat) :
    (joinJob job members manager s).state.slots = s.slots := by
  simp [joinJob]

@[simp] theorem slotData_leaveJob (job : Nat) : slotData (leaveJob job s).state.slots = slotData s.slots := by
  simp only [leaveJob]
  split <;> simp

@[simp] theorem slotData_openChannel (number low high : Nat) :
    slotData (openChannel q number peer port low high s).state.slots = slotData s.slots := by
  simp [openChannel]

@[simp] theorem slotData_closeChannel (number : Nat) :
    slotData (closeChannel q number peer s).state.slots = slotData s.slots := by
  simp [closeChannel]

@[simp] theorem slotData_openWindow (w : WindowParams) : slotData (openWindow w s).state.slots = slotData s.slots := by
  simp [openWindow]

@[simp] theorem slotData_closeWindow : slotData (closeWindow q w s).state.slots = slotData s.slots := by
  simp [closeWindow]

@[simp] theorem slots_windowStatus : (windowStatus w s).state.slots = s.slots := by simp [windowStatus]

@[simp] theorem slots_trustJob (job : Nat) : (trustJob job s).state.slots = s.slots := by
  simp only [trustJob]
  split <;> simp

@[simp] theorem slotData_overPorts {mask : Nat} {f : Nat → State → State}
    (h : ∀ p s, slotData (f p s).slots = slotData s.slots) :
    slotData (overPorts mask f s).state.slots = slotData s.slots := by
  simp [overPorts, h]

@[simp] theorem slotData_retrainPort (p : Nat) : slotData (retrainPort p s).slots = slotData s.slots := by
  simp [retrainPort]

@[simp] theorem slotData_disablePort (p : Nat) : slotData (disablePort p s).slots = slotData s.slots := by
  simp [disablePort]

@[simp] theorem slots_enablePort (p : Nat) : (enablePort p s).slots = s.slots := by simp [enablePort]

/-! ### Step task sets, drains, configurations and tables, as group 6 sets them -/

@[simp] theorem slots_readCaps : (readCaps cls s).state.slots = s.slots := by simp [readCaps]

@[simp] theorem slots_judgeStep (f : StepSetParams) (t : SetTask) : (judgeStep f t s).2.slots = s.slots := by
  simp only [judgeStep]
  split <;> simp

@[simp] theorem slots_judgeSteps {f : StepSetParams} {l : List SetTask} : (judgeSteps f l s).2.slots = s.slots := by
  induction l generalizing s with
  | nil => rfl
  | cons x l ih => simp only [judgeSteps]; split <;> simp [ih]

@[simp] theorem slots_judgeLoads {l : List SetTask} : (judgeLoads l s).2.slots = s.slots := by
  induction l generalizing s with
  | nil => rfl
  | cons x l ih =>
    simp only [judgeLoads]
    repeat' split
    all_goals simp [ih]

@[simp] theorem slotData_registerSet (f : StepSetParams) (capacity : Nat) (ks : List (Nat × Task)) :
    slotData (registerSet f capacity ks s).slots = slotData s.slots := by
  simp only [registerSet]
  split <;> simp

@[simp] theorem slotData_register (f : StepSetParams) : slotData (register f s).state.slots = slotData s.slots := by
  simp only [register]
  repeat' split
  all_goals simp

@[simp] theorem slotData_releaseSet (job : Nat) : slotData (releaseSet job s).state.slots = slotData s.slots := by
  simp [releaseSet]

@[simp] theorem slots_resumeJob (job : Nat) : (resumeJob job s).state.slots = s.slots := by simp [resumeJob]
@[simp] theorem slots_drain (x : EngineSel) : (drain q x s).state.slots = s.slots := by simp [drain]

@[simp] theorem slots_abortParked (x : EngineSel) : (abortParked x s).slots = s.slots := by
  simp only [abortParked]
  repeat' split
  all_goals simp

@[simp] theorem slots_liftDrain (x : EngineSel) : (liftDrain x s).slots = s.slots := by
  simp only [liftDrain]
  split <;> simp

@[simp] theorem slotData_engineAbort (x : EngineSel) : slotData (engineAbort x s).state.slots = slotData s.slots := by
  simp [engineAbort]

@[simp] theorem slots_loadConfig (i : Nat) (c : List Byte) : (loadConfig i c s).state.slots = s.slots := by
  simp [loadConfig]

@[simp] theorem slots_shadowTable (img : List Byte) : (shadowTable slot img s).slots = s.slots := by simp [shadowTable]

@[simp] theorem slotData_loadTable : slotData (loadTable q slot dpa s).state.slots = slotData s.slots := by
  simp [loadTable]

@[simp] theorem slots_readTable : (readTable kind index s).state.slots = s.slots := by simp [readTable]
@[simp] theorem slots_setFence (v : BitVec 64) : (setFence c v s).state.slots = s.slots := by simp [setFence]

@[simp] theorem slots_readFences (count : Nat) : (readFences first count s).state.slots = s.slots := by
  simp [readFences]

@[simp] theorem slotData_configBarrier (b : BarrierParams) :
    slotData (configBarrier b s).state.slots = slotData s.slots := by
  simp [configBarrier]

/-! ### Firmware -/

@[simp] theorem slots_eraseSlot : (eraseSlot slot s).slots = s.slots := by simp [eraseSlot]

@[simp] theorem slots_openTransfer (owner size : Nat) : (openTransfer owner slot size s).2.slots = s.slots := by
  simp [openTransfer]

@[simp] theorem slots_fwBegin (size : Nat) : (fwBegin q slot size s).state.slots = s.slots := by simp [fwBegin]

theorem slots_takeChunk {x : Transfer} {full offset : Nat} {data : List Byte} {t : State}
    (h : takeChunk x full offset data s = some t) : t.slots = s.slots := by
  simp only [takeChunk] at h
  repeat' split at h
  all_goals cases h
  all_goals simp

@[simp] theorem slots_fwTransfer {id offset : Nat} {data : List Byte} :
    (fwTransfer id offset data s).state.slots = s.slots := by
  simp only [fwTransfer]
  split
  · rfl
  · split
    · exact slots_takeChunk ‹_›
    · rfl

@[simp] theorem slots_markVerified (t : Transfer) (version svn : Nat) :
    (markVerified t version svn s).slots = s.slots := by
  simp [markVerified]

@[simp] theorem slots_fwVerify (verdict version svn : Nat) :
    (fwVerify id verdict version svn s).state.slots = s.slots := by
  simp only [fwVerify]
  split <;> simp

@[simp] theorem slots_cancelTransfer (t : Transfer) : (cancelTransfer t s).slots = s.slots := by simp [cancelTransfer]
@[simp] theorem slots_fwCancel : (fwCancel id s).state.slots = s.slots := by simp only [fwCancel]; split <;> simp
@[simp] theorem slots_pldmAnswer (ok : Bool) : (pldmAnswer ok s).slots = s.slots := by simp [pldmAnswer]

@[simp] theorem slots_pldmUpdate {f : State → Option State} (h : ∀ s t, f s = some t → t.slots = s.slots) :
    (pldmUpdate f s).slots = s.slots := by
  simp only [pldmUpdate]
  split
  · rfl
  · split
    · simp
    · split
      · simp [h _ _ ‹_›]
      · simp

theorem slots_requestUpdate {slot size : Nat} {t : State}
    (h : requestUpdate slot size s = some t) :
    t.slots = s.slots := by
  simp only [requestUpdate] at h
  split at h
  · cases h; simp
  · cases h

@[simp] theorem slots_pldmVerify (verdict version svn : Nat) : (pldmVerify verdict version svn s).slots = s.slots := by
  simp only [pldmVerify]
  split <;> simp

@[simp] theorem slots_firmwareData {offset verdict version svn : Nat} {data : List Byte} :
    (firmwareData offset data verdict version svn s).slots = s.slots := by
  simp only [firmwareData]
  split
  · split
    · rfl
    · split
      · simp [slots_takeChunk ‹_›]
      · rfl
  · rfl

theorem slots_activateFirmware {selfContained : Bool} {t : State} (h : activateFirmware selfContained s = some t) :
    t.slots = s.slots := by
  simp only [activateFirmware] at h
  repeat' split at h
  all_goals cases h
  simp

theorem slots_cancelUpdate {t : State} (h : cancelUpdate s = some t) : t.slots = s.slots := by
  obtain ⟨x, -, rfl⟩ := Option.map_eq_some_iff.mp h
  simp

/-! ### Memory controllers and sensors -/

@[simp] theorem slots_takeSlot : (takeSlot t c cls s).slots = s.slots := by simp [takeSlot]

@[simp] theorem slotData_serveAccum : slotData (serveAccum t c s).slots = slotData s.slots := by
  simp only [serveAccum]; split <;> simp

@[simp] theorem slots_serveReq : (serveReq t c s).slots = s.slots := by simp only [serveReq]; split <;> simp
@[simp] theorem slots_promoteReq : (promoteReq t c s).slots = s.slots := by simp only [promoteReq]; split <;> simp
@[simp] theorem slots_refreshChan : (refreshChan t c s).slots = s.slots := by simp [refreshChan]
@[simp] theorem slots_relaxBand : (relaxBand t s).slots = s.slots := by simp [relaxBand]

@[simp] theorem slots_crossed (sensor limit old new : Nat) : (crossed sensor limit old new s).slots = s.slots := by
  simp [crossed]

@[simp] theorem slots_samplePower (mv ma : Nat) : (samplePower mv ma s).slots = s.slots := by
  simp only [samplePower]
  repeat' split
  all_goals simp

@[simp] theorem slots_grantBudgets (asked : Bool) (grants : List Nat) :
    (grantBudgets asked grants s).slots = s.slots := by
  simp [grantBudgets]

@[simp] theorem slots_heartbeat : (heartbeat s).slots = s.slots := by simp [heartbeat]

/-! ### Registers -/

@[simp] theorem slots_statusW1c (mb1 : Bool) (bits : Nat) : (statusW1c mb1 bits s).slots = s.slots := by
  simp [statusW1c]

@[simp] theorem slots_overrunMb (mb1 : Bool) : (overrunMb mb1 s).slots = s.slots := by simp [overrunMb]
@[simp] theorem slots_esClear (bits : BitVec 64) : (esClear bits s).slots = s.slots := by simp [esClear]

@[simp] theorem slots_ovfClear (bank : Nat) (bits : BitVec 16) : (ovfClear bank bits s).slots = s.slots := by
  simp [ovfClear]

@[simp] theorem slots_selWrite (bank : Nat) (v : BitVec 64) : (selWrite bank index v s).slots = s.slots := by
  simp [selWrite]

@[simp] theorem slots_selBusWrite (bank size : Nat) (v : BitVec 64) :
    (selBusWrite bank index size v s).slots = s.slots := by
  simp [selBusWrite]

@[simp] theorem slots_evcZero : (evcZero s).slots = s.slots := by simp [evcZero]
@[simp] theorem slots_evcHold (on : Bool) : (evcHold on s).slots = s.slots := by simp [evcHold]

/-! ### The recovery dump -/

@[simp] theorem slots_dumpEngines : (dumpEngines s).2.slots = s.slots := by simp [dumpEngines]

@[simp] theorem slots_freeWalk {p : PoolParams} {page : Nat} : (freeWalk p n page s).2.slots = s.slots := by
  induction n generalizing page s with
  | zero => rfl
  | succ n ih =>
    simp only [freeWalk]
    repeat' split
    all_goals simp [ih]

@[simp] theorem slots_dumpFennelTile (p : PoolParams) : (dumpFennelTile p t s).2.slots = s.slots := by
  simp [dumpFennelTile]

@[simp] theorem slots_dumpFennel : (dumpFennel s).2.slots = s.slots := by
  simp only [dumpFennel]
  split
  · rfl
  · rw [slots_foldl_snd]
    simp

@[simp] theorem slots_writeSections {l : List (Nat × Bool × List Byte)} {at0 : Nat} :
    (writeSections l at0 s).2.slots = s.slots := by
  induction l generalizing at0 s with
  | nil => rfl
  | cons x l ih => simp [writeSections, ih]

@[simp] theorem slots_writeDump (aon : Bool) : (writeDump aon s).2.slots = s.slots := by simp [writeDump]
@[simp] theorem slots_collect (aon : Bool) : (collect aon s).2.slots = s.slots := by simp [collect]

/-! ### Monitoring, tests and the sideband -/

@[simp] theorem slots_logOf (log : Nat) : (logOf log tile s).2.slots = s.slots := by
  simp only [logOf]
  repeat' split
  all_goals simp

@[simp] theorem slots_logRead (log : Nat) : (logRead log tile first s).state.slots = s.slots := by simp [logRead]
@[simp] theorem slots_logClear (log : Nat) : (logClear log tile s).state.slots = s.slots := by simp [logClear]

@[simp] theorem slots_counterConfig (bank : Nat) (v : BitVec 64) :
    (counterConfig bank index v s).state.slots = s.slots := by
  simp [counterConfig]

@[simp] theorem slots_counterRead (count : Nat) : (counterRead first count s).state.slots = s.slots := by
  simp [counterRead]

@[simp] theorem slots_scrubConfig (hours : Nat) : (scrubConfig hours s).state.slots = s.slots := by simp [scrubConfig]
@[simp] theorem slots_recoveryCollect : (recoveryCollect q s).state.slots = s.slots := by simp [recoveryCollect]

@[simp] theorem slotData_standbyEnter : slotData (standbyEnter q s).state.slots = slotData s.slots := by
  simp [standbyEnter]

@[simp] theorem slots_standbyExit : (standbyExit q s).state.slots = s.slots := by simp [standbyExit]

@[simp] theorem slots_cascadeReset (pos level : Nat) : (cascadeReset q pos level s).state.slots = s.slots := by
  simp [cascadeReset]

@[simp] theorem slotData_flipMask (slot : Bool) (unit : Nat) (mask : List Byte) :
    slotData (flipMask slot tile unit mask s).state.slots = slotData s.slots := by
  simp [flipMask]

@[simp] theorem slots_testStarts (test : Nat) : (testStarts test s).slots = s.slots := by simp [testStarts]

@[simp] theorem slots_testBist (tiles memory patterns : Nat) :
    (testBist q tiles memory patterns s).state.slots = s.slots := by
  simp [testBist]

@[simp] theorem slots_sendTests : (sendTests s).slots = s.slots := by simp [sendTests]
@[simp] theorem slots_sendBoard : (sendBoard s).slots = s.slots := by simp [sendBoard]

@[simp] theorem slots_testLoopback (board : Bool) (mask : Nat) :
    (testLoopback q board mask s).state.slots = s.slots := by
  simp [testLoopback]

@[simp] theorem slots_testResult (test : Nat) : (testResult test s).state.slots = s.slots := by simp [testResult]
@[simp] theorem slots_entDaa : (entDaa addr s).slots = s.slots := by simp [entDaa]
@[simp] theorem slots_setDasa (static : Nat) : (setDasa static addr s).slots = s.slots := by simp [setDasa]
@[simp] theorem slots_setEid (eid : Nat) : (setEid eid s).slots = s.slots := by simp [setEid]
@[simp] theorem slots_pldmBase (command : Nat) : (pldmBase command s).slots = s.slots := by simp [pldmBase]
@[simp] theorem slots_pldmSensor (sensor : Nat) : (pldmSensor sensor s).slots = s.slots := by simp [pldmSensor]
@[simp] theorem slots_setReceiver (eid : Nat) : (setReceiver eid s).slots = s.slots := by simp [setReceiver]

/-! ### The meanings of commands -/

end

/-- An outcome whose next state, if there is one, holds the bytes of slot memory that `s` does. -/
def KeepsSlotData (s : State) (o : Host.Outcome State Fault Refusal) : Prop :=
  ∀ t, o = .next t → slotData t.slots = slotData s.slots

theorem keepsSlotData_next {s t : State} : KeepsSlotData s (.next t) ↔ slotData t.slots = slotData s.slots := by
  simp [KeepsSlotData]

/-- A command leaves every byte of slot memory, unless it is of the list. The meanings that split on more than a condition,
or that go on with the state of a message received, have cases of their own; every other is `.next` of one operation,
whose rule closes its case. -/
theorem keepsSlotData_exec {c : Instr} (s : State) (h : mayWriteSlotBytes c = false) : KeepsSlotData s (exec c s) := by
  cases c
  all_goals simp only [mayWriteSlotBytes, Bool.true_eq_false] at h
  all_goals refine keepsSlotData_next.mpr ?_
  case noOp | ctlFenceWait | fenceWaitRelease | ctlFenceSignal | ctlBarrierArrive | ctlBarrierWait | ctlStepLoop
    | ctlStepLoopEnd | busyResendTimer | slotWindowClaim | trainingStepTimeout | portRetrainTimer | laneFail =>
    split <;> simp
  case ctlFenceSignalRemote | paResp =>
    repeat' split
    all_goals simp
  case msgStepHeader | msgTokenList =>
    split
    · refine slotData_withSnoop fun a => ?_
      split
      · simp [slots_stepRecv ‹_›]
      · simp
    · rfl
  case msgCommit =>
    refine slotData_withSnoop fun a => ?_
    repeat' split
    · rfl
    · simp [slots_stepRecv ‹_›]
    · simp
  case msgAbort =>
    repeat' split
    · rfl
    · simp [slots_stepRecv ‹_›]
    · simp
  case msgResult | msgFault | msgAbortDone =>
    split
    · split
      · simp
      · have hrecv := slots_stepRecv ‹_›
        repeat' split
        all_goals simp [hrecv]
    · rfl
  case windowNotice | releaseNotice | pairRekey =>
    split
    · simp [slots_mgmtRecv ‹_›]
    · simp
  case requestUpdate => exact congrArg slotData (slots_pldmUpdate fun _ _ => slots_requestUpdate)
  case activateFirmware => exact congrArg slotData (slots_pldmUpdate fun _ _ => slots_activateFirmware)
  case cancelUpdate => exact congrArg slotData (slots_pldmUpdate fun _ _ => slots_cancelUpdate)
  all_goals simp

/-! ### O52 -/

/-- Settles O52: the bytes of a tile's slot memory are those of the table of slot memories, which such a command keeps. -/
theorem slotMemoryFrame : Obligations.SlotMemoryFrame := by
  unfold Obligations.SlotMemoryFrame
  intro c s t hc ht k
  exact congrFun (keepsSlotData_exec s hc t ht) k

end Sys2Proof.Machine
end

section
/-!
# Fence counters (R140)

What an increment does to the counters and to the error summary. Settles O41 by induction over the list of increments.
-/
namespace Sys2Proof.Machine

/-! ### The counters -/

section
variable (c n d : Nat) (s : State)

@[simp] theorem fences_noteWaits : (noteWaits s).fences = s.fences := forAll_keeps State.fences (by intros; rfl) s

@[simp] theorem es_noteWaits : (noteWaits s).es = s.es := forAll_keeps State.es (by intros; rfl) s

theorem fenceVal_lt : fenceVal s c < 2 ^ 64 := (mapGet 0 s.fences.counters c).isLt

theorem fenceVal_of_fences_eq {s t : State} (h : t.fences = s.fences) : fenceVal t c = fenceVal s c := by
  rw [fenceVal, h, fenceVal]

theorem fenceVal_fencePut {v : Nat} (hv : v < 2 ^ 64) :
    fenceVal (fencePut c v s) d = if d = c then v else fenceVal s d := by
  rw [fenceVal, fencePut, mapGet_mapSet]
  split
  · rw [BitVec.toNat_ofNat, Nat.mod_eq_of_lt hv]
  · rfl

/-- An increment moves its own counter only, to the sum capped at the largest value. -/
theorem fenceVal_fenceAdd :
    fenceVal (fenceAdd c n s) d = if d = c then min (fenceVal s c + n) (2 ^ 64 - 1) else fenceVal s d := by
  rw [fenceAdd, fenceVal_of_fences_eq d (fences_noteWaits _)]
  split
  case isTrue hfits => rw [fenceVal_fencePut c d s hfits, Nat.min_eq_left (Nat.le_sub_one_of_lt hfits)]
  case isFalse hover =>
    have hraise (t : State) : (esRaise 3 t).fences = t.fences := by simp
    have hcap : 2 ^ 64 - 1 ≤ fenceVal s c + n := (Nat.sub_le _ 1).trans (Nat.le_of_not_lt hover)
    rw [fenceVal_of_fences_eq d (hraise _), fenceVal_fencePut c d s (by decide), Nat.min_eq_right hcap]

end

/-! ### The fence-overflow bit of the error summary -/

/-- The fence-overflow bit, `ES_BITS[3]` (R618). -/
abbrev Overflowed (s : State) : Prop := bit s.es.bits.toNat 3 = true

theorem bit_eq_testBit (x i : Nat) : bit x i = x.testBit i := by
  rw [bit, Nat.testBit_eq_decide_div_mod_eq, beq_eq_decide]

theorem overflowed_esRaise (s : State) : Overflowed (esRaise 3 s) := by
  rw [esRaise]
  split
  case isTrue hset => exact hset
  case isFalse =>
    have hmask : Nat.testBit 8 3 = true := by decide
    simp [Overflowed, bit_eq_testBit, hmask]

theorem overflowed_fenceAdd_of_sum (c n : Nat) {s : State} (h : 2 ^ 64 ≤ fenceVal s c + n) :
    Overflowed (fenceAdd c n s) := by
  rw [fenceAdd, Overflowed, es_noteWaits, if_neg (Nat.not_lt.mpr h)]
  exact overflowed_esRaise _

theorem overflowed_fenceAdd (c n : Nat) {s : State} (h : Overflowed s) : Overflowed (fenceAdd c n s) := by
  rw [fenceAdd, Overflowed, es_noteWaits]
  split
  · exact h
  · exact overflowed_esRaise _

/-! ### Increments one after another -/

section
variable (c d : Nat) (l : List Nat) (s : State)

theorem fenceVal_foldl_fenceAdd :
    fenceVal (l.foldl (fun a n => fenceAdd c n a) s) c = min (fenceVal s c + l.sum) (2 ^ 64 - 1) := by
  induction l generalizing s with
  | nil => exact (Nat.min_eq_left (Nat.le_sub_one_of_lt (fenceVal_lt c s))).symm
  | cons n l ih =>
    rw [List.foldl_cons, ih, fenceVal_fenceAdd, if_pos rfl, List.sum_cons, ← Nat.add_assoc, ← Nat.add_min_add_right,
      Nat.min_assoc, Nat.min_eq_right (Nat.le_add_right _ l.sum)]

theorem fenceVal_foldl_fenceAdd_of_ne (h : d ≠ c) :
    fenceVal (l.foldl (fun a n => fenceAdd c n a) s) d = fenceVal s d :=
  foldl_keeps (fenceVal · d) (fun a n => (fenceVal_fenceAdd c n d a).trans (if_neg h)) s

theorem overflowed_foldl_fenceAdd {s : State} (h : Overflowed s) :
    Overflowed (l.foldl (fun a n => fenceAdd c n a) s) := by
  induction l generalizing s with
  | nil => exact h
  | cons n l ih => exact ih (overflowed_fenceAdd c n h)

/-- A sum past the largest value sets the bit at one of its increments, and none after it clears the bit. -/
theorem overflowed_foldl_fenceAdd_of_sum {s : State} (h : 2 ^ 64 ≤ fenceVal s c + l.sum) :
    Overflowed (l.foldl (fun a n => fenceAdd c n a) s) := by
  induction l generalizing s with
  | nil => exact absurd h (Nat.not_le.mpr (fenceVal_lt c s))
  | cons n l ih =>
    rw [List.foldl_cons]
    by_cases hnow : 2 ^ 64 ≤ fenceVal s c + n
    · exact overflowed_foldl_fenceAdd c l (overflowed_fenceAdd_of_sum c n hnow)
    · refine ih ?_
      rwa [fenceVal_fenceAdd, if_pos rfl, Nat.min_eq_left (Nat.le_sub_one_of_lt (Nat.lt_of_not_le hnow)),
        Nat.add_assoc, ← List.sum_cons]

end

/-- Settles O41: a run of increments leaves the capped sum, which does not depend on their order. -/
theorem fenceIncrementsAdd : Obligations.FenceIncrementsAdd := by
  unfold Obligations.FenceIncrementsAdd
  refine ⟨fun s c l => ⟨fenceVal_foldl_fenceAdd c l s, fun d hd => fenceVal_foldl_fenceAdd_of_ne c d l s hd,
    overflowed_foldl_fenceAdd_of_sum c l⟩, fun s c l k hperm => ?_⟩
  rw [fenceVal_foldl_fenceAdd, fenceVal_foldl_fenceAdd, hperm.sum_eq]

end Sys2Proof.Machine
end

section
/-!
# Who changes fences and barriers (R139, R148)

The frame of the fence and barrier unit: counters, step bases, waiting increments and barriers. One rule `fences_…` per
operation that the commands of O55 run, in the order of the model's files; the rules are `simp` lemmas, so the rule of
an operation follows from those of the operations that it calls. A rule of every command, and with it O55, comes at the
end.
-/
namespace Sys2Proof.Machine

/-! ### Branches and folds -/

section
variable {α β : Type} {xs : List α}

@[simp] theorem fences_ite (c : Prop) [Decidable c] (s t : State) :
    (if c then s else t).fences = if c then s.fences else t.fences := apply_ite State.fences c s t

@[simp] theorem fences_forAll {f : State → α → State} (h : ∀ s x, (f s x).fences = s.fences) {s : State} :
    (forAll xs f s).fences = s.fences := forAll_keeps State.fences h s

@[simp] theorem fences_foldl {f : State → α → State} (h : ∀ s x, (f s x).fences = s.fences) {s : State} :
    (xs.foldl f s).fences = s.fences := foldl_keeps State.fences h s

@[simp] theorem fences_foldl_snd {f : β × State → α → β × State} (h : ∀ a x, (f a x).2.fences = a.2.fences)
    {a : β × State} : (xs.foldl f a).2.fences = a.2.fences := foldl_keeps (fun a => a.2.fences) h a

end

section
variable {s : State} {e : Entry} {q : Req}
  {tile uid cls code k n w c t b a m g who port ring slot index dpa addr off hint id cq stream first
   kind seq cause peer : Nat}

/-! ### Outputs, event counters, interrupts, logs, module state -/

@[simp] theorem fences_modTask (f : Task → Task) : (modTask s t k f).fences = s.fences := by simp [modTask]

@[simp] theorem fences_modEngine (inst : Nat) (f : Engine → Engine) : (modEngine s t cls inst f).fences = s.fences := by
  simp [modEngine]

@[simp] theorem fences_askDescs : (askDescs s ring).fences = s.fences := by simp [askDescs]
@[simp] theorem fences_askAll : (askAll s).fences = s.fences := fences_foldl fun _ _ => fences_askDescs ..
@[simp] theorem fences_settleReady : (settleReady s).fences = s.fences := by simp only [settleReady]; split <;> simp

/-! ### Package memory, slot memory, tags and claims -/

@[simp] theorem fences_noteBad : (noteBad dpa s).fences = s.fences := by simp only [noteBad]; split <;> simp
@[simp] theorem fences_pkgPoison (b : Bool) : (pkgPoison c b s).fences = s.fences := by simp [pkgPoison]
@[simp] theorem fences_pkgError (e : Nat) : (pkgError c e s).fences = s.fences := by simp [pkgError]
@[simp] theorem fences_pkgBytes (bs : List Byte) : (pkgBytes a bs s).fences = s.fences := by simp [pkgBytes]
@[simp] theorem fences_dramWrite : (dramWrite cls c s).fences = s.fences := by simp [dramWrite]

@[simp] theorem fences_dramRead : (dramRead cls c dpa s).2.fences = s.fences := by
  simp only [dramRead]
  repeat' split
  all_goals simp

@[simp] theorem fences_putCache (l : List CacheLine) : (putCache c l s).fences = s.fences := by simp [putCache]
@[simp] theorem fences_bare : (bare c s).fences = s.fences := by simp only [bare]; split <;> simp
@[simp] theorem fences_cover : (cover c s).fences = s.fences := fences_dramWrite ..

@[simp] theorem fences_cacheUe : (cacheUe c s).fences = s.fences := by simp [cacheUe]

@[simp] theorem fences_writeBack (key : Nat) (l : CacheLine) : (writeBack key l s).fences = s.fences := by
  simp [writeBack]

@[simp] theorem fences_cacheAlloc (keep dirty : Bool) : (cacheAlloc c keep dirty s).fences = s.fences := by
  simp only [cacheAlloc]
  repeat' split
  all_goals simp

@[simp] theorem fences_cacheHit (write : Bool) : (cacheHit c hint write s).fences = s.fences := by
  simp only [cacheHit]
  split <;> simp

@[simp] theorem fences_checkLine : (checkLine c s).fences = s.fences := by simp only [checkLine]; split <;> simp

@[simp] theorem fences_cacheAccess (write whole : Bool) : (cacheAccess cls c hint write whole s).fences = s.fences := by
  simp [cacheAccess]

@[simp] theorem fences_noteTouch (write : Bool) : (noteTouch dpa write s).fences = s.fences := by simp [noteTouch]

@[simp] theorem fences_readCw : (readCw cls hint dpa s).2.fences = s.fences := by
  simp only [readCw]
  repeat' split
  all_goals simp

@[simp] theorem fences_readCws : (readCws cls hint w n s).2.fences = s.fences := by
  induction n generalizing w s with
  | zero => rfl
  | succ n ih => simp [readCws, ih]

@[simp] theorem fences_pkgRead : (pkgRead cls hint dpa n s).2.fences = s.fences := fences_readCws ..

@[simp] theorem fences_writeCw (bs : List Byte) (bad inLine : Bool) :
    (writeCw cls dpa bs bad inLine s).fences = s.fences := by
  simp [writeCw]

@[simp] theorem fences_writeLine (bs : List Byte) (bad : Bool) :
    (writeLine cls hint dpa bs bad s).fences = s.fences := by
  simp [writeLine]

@[simp] theorem fences_writeLines {bs : List Byte} {bad : Bool} :
    (writeLines cls hint dpa bs bad n s).fences = s.fences := by
  induction n generalizing dpa bs s with
  | zero => rfl
  | succ n ih => simp [writeLines, ih]

@[simp] theorem fences_pkgWrite (bs : List Byte) (bad : Bool) : (pkgWrite cls hint dpa bs bad s).fences = s.fences :=
  fences_writeLines ..

@[simp] theorem fences_pkgWord : (pkgWord cls dpa n s).2.fences = s.fences := fences_pkgRead ..

@[simp] theorem fences_pkgFill : (pkgFill s).fences = s.fences := by simp [pkgFill]
@[simp] theorem fences_slotFill : (slotFill s).fences = s.fences := by simp [slotFill]
@[simp] theorem fences_clearFlips : (clearFlips s).fences = s.fences := by simp [clearFlips]
@[simp] theorem fences_setTag (t : BitVec 8) : (setTag tile g t s).fences = s.fences := by simp [setTag]
@[simp] theorem fences_tagRead : (tagRead tile g s).fences = s.fences := by simp [tagRead]
@[simp] theorem fences_slotError (h e : Nat) : (slotError tile h e s).fences = s.fences := by simp [slotError]
@[simp] theorem fences_slotPut (bs : List Byte) : (slotPut tile a bs s).fences = s.fences := by simp [slotPut]
@[simp] theorem fences_halfWrite (h : Nat) : (halfWrite tile h s).fences = s.fences := by simp [halfWrite]

@[simp] theorem fences_halfFind (h : Nat) : (halfFind tile h s).2.fences = s.fences := by
  simp only [halfFind]
  repeat' split
  all_goals simp

@[simp] theorem fences_halfRead (h : Nat) : (halfRead tile h s).2.fences = s.fences := by simp [halfRead]

@[simp] theorem fences_halfReads {h : Nat} : (halfReads tile h n s).2.fences = s.fences := by
  induction n generalizing h s with
  | zero => rfl
  | succ n ih => simp [halfReads, ih]

@[simp] theorem fences_slotRead : (slotRead who tile a n s).2.fences = s.fences := by simp [slotRead]

@[simp] theorem fences_mergeHalf (h : Nat) (bs : List Byte) (bad : Bool) :
    (mergeHalf tile h a bs bad s).fences = s.fences := by
  simp [mergeHalf]

@[simp] theorem fences_slotLine (bs : List Byte) : (slotLine who tile a bs s).2.fences = s.fences := by
  simp only [slotLine]
  repeat' split
  all_goals simp

@[simp] theorem fences_slotLines {bs : List Byte} : (slotLines who tile a bs n s).2.fences = s.fences := by
  induction n generalizing a bs s with
  | zero => rfl
  | succ n ih => simp only [slotLines]; split <;> simp [ih]

@[simp] theorem fences_slotWrite (bs : List Byte) : (slotWrite who tile a bs s).2.fences = s.fences := by
  simp [slotWrite]

@[simp] theorem fences_claimOut (owner : Nat) : (claimOut owner tile g s).fences = s.fences := by simp [claimOut]
@[simp] theorem fences_unclaimOut (owner : Nat) : (unclaimOut owner tile g s).fences = s.fences := by simp [unclaimOut]
@[simp] theorem fences_unclaimIn : (unclaimIn tile g s).fences = s.fences := by simp [unclaimIn]

/-! ### Op lists and descriptors, as PEPPER reads them -/

@[simp] theorem fences_readOps : (readOps dpa n s).2.fences = s.fences := fences_readCws ..

@[simp] theorem fences_readDesc : (readDesc addr s).2.fences = s.fences := by simp [readDesc]

@[simp] theorem fences_admission (own : Nat) (set : Option StepSetParams) :
    (admission own addr set s).2.fences = s.fences := by
  simp only [admission]
  repeat' split
  all_goals simp

/-! ### Frames, packets and messages that go out -/

@[simp] theorem fences_sendFrame (payload : List Byte) : (sendFrame port kind seq payload s).fences = s.fences := by
  simp [sendFrame]

@[simp] theorem fences_pumpFrames : (pumpFrames port n s).fences = s.fences := by
  induction n generalizing s with
  | zero => rfl
  | succ n ih => simp [pumpFrames, ih]

@[simp] theorem fences_handOver (bytes : List Byte) : (handOver port bytes s).fences = s.fences := fences_pumpFrames ..

@[simp] theorem fences_putOut (op : Nat) (p : Packet) (wire : List Byte) :
    (putOut port op p wire s).fences = s.fences := by
  simp [putOut]

@[simp] theorem fences_mgmtVia (counter : Nat) (body : List Nat) :
    (mgmtVia port peer counter code body s).fences = s.fences := by
  simp [mgmtVia]

@[simp] theorem fences_mgmtSend (body : List Nat) : (mgmtSend peer code body s).fences = s.fences := by
  simp only [mgmtSend]
  split <;> simp

@[simp] theorem fences_reportSend (o : Nat → Out) : (reportSend o s).fences = s.fences := by
  simp only [reportSend]
  split <;> simp

@[simp] theorem fences_askRekey : (askRekey k s).fences = s.fences := fences_mgmtSend ..

@[simp] theorem fences_nextSeq : (nextSeq k s).fences = s.fences := by simp [nextSeq]
@[simp] theorem fences_beginRoll : (beginRoll k s).fences = s.fences := by simp [beginRoll]

@[simp] theorem fences_pumpOne : (pumpOne k s).fences = s.fences := by
  simp only [pumpOne]
  repeat' split
  all_goals simp

@[simp] theorem fences_pumpMany : (pumpMany k n s).fences = s.fences := by
  induction n generalizing s with
  | zero => rfl
  | succ n ih => simp [pumpMany, ih]

@[simp] theorem fences_pump : (pump k s).fences = s.fences := by simp [pump]
@[simp] theorem fences_pumpPort : (pumpPort port s).fences = s.fences := fences_foldl fun _ _ => by simp
@[simp] theorem fences_sendReply (b : PktBody) : (sendReply k b s).fences = s.fences := fences_putOut ..

@[simp] theorem fences_stepSendOut (member : Nat) (o : Out) : (stepSendOut member code o s).fences = s.fences := by
  simp [stepSendOut]

@[simp] theorem fences_stepSend (member : Nat) (body : List Nat) : (stepSend member code body s).fences = s.fences :=
  fences_stepSendOut ..

/-! ### Completion records -/

@[simp] theorem fences_d2hDone : (d2hDone id s).fences = s.fences := by simp [d2hDone]

@[simp] theorem fences_queueRecord (r : RecFields) : (queueRecord cq index r s).fences = s.fences := by
  simp only [queueRecord]
  split <;> simp

@[simp] theorem fences_taskRecord (fault taskId opIx : Nat) (st : EngStatus) :
    (taskRecord ring index fault taskId opIx tile st s).fences = s.fences := fences_queueRecord ..

@[simp] theorem fences_updateRecord (status : Nat) : (updateRecord ring index slot status s).fences = s.fences :=
  fences_queueRecord ..

@[simp] theorem fences_ringError (tail : Nat) : (ringError ring cause tail s).fences = s.fences := by
  simp only [ringError]
  split <;> simp

@[simp] theorem fences_retire : (retire ring index s).fences = s.fences := by simp [retire]
@[simp] theorem fences_announce (fault : Nat) : (announce cq fault s).fences = s.fences := by simp [announce]
@[simp] theorem fences_startRecord : (startRecord cq s).fences = s.fences := by simp only [startRecord]; split <;> simp

@[simp] theorem fences_recordLineDone : (recordLineDone cq s).fences = s.fences := by
  simp only [recordLineDone]
  repeat' split
  all_goals simp

@[simp] theorem fences_recordDone : (recordDone cq s).fences = s.fences := by simp only [recordDone]; split <;> simp

/-! ### Window entries, tasks, faults, the ends of ops, the edges of a step -/

@[simp] theorem fences_modEntry (f : Entry → Entry) : (modEntry tile uid f s).fences = s.fences := by simp [modEntry]
@[simp] theorem fences_dropEntry : (dropEntry tile uid s).fences = s.fences := by simp [dropEntry]
@[simp] theorem fences_headWord : (headWord addr s).2.fences = s.fences := by simp [headWord]
@[simp] theorem fences_releaseClaims : (releaseClaims tile e s).fences = s.fences := by simp [releaseClaims]
@[simp] theorem fences_freeInstance : (freeInstance tile e s).fences = s.fences := by simp [freeInstance]
@[simp] theorem fences_cancelOps : (cancelOps tile k s).fences = s.fences := fences_forAll fun _ _ => by simp
@[simp] theorem fences_winClaim : (winClaim w s).fences = s.fences := by simp only [winClaim]; split <;> simp
@[simp] theorem fences_winBegin : (winBegin w s).fences = s.fences := fences_winClaim ..

/-! ### PEPPER: admission, filling, issue -/

@[simp] theorem fences_pllOn : (pllOn tile s).fences = s.fences := by simp [pllOn]
@[simp] theorem fences_addTask (k : Task) : (addTask tile k s).fences = s.fences := by simp [addTask]
@[simp] theorem fences_waitingPrio (w : Waiting) : (waitingPrio w s).2.fences = s.fences := fences_headWord ..

@[simp] theorem fences_nextAdmit : (nextAdmit s tile).2.fences = s.fences := by
  simp only [nextAdmit]
  split
  · rfl
  · split
    · rfl
    · refine fences_foldl_snd fun a w => ?_
      split <;> simp

@[simp] theorem fences_refuseTask (src : TaskSource) (d : DescWord) :
    (refuseTask tile src d code index s).fences = s.fences := by
  simp only [refuseTask]
  split <;> simp

@[simp] theorem fences_admitNext : (admitNext tile s).fences = s.fences := by
  have hnext := fences_nextAdmit (s := s) (tile := tile)
  simp only [admitNext]
  split
  · rfl
  · split <;> rename_i heq <;> (rw [heq] at hnext; dsimp only at hnext)
    · exact hnext
    · split <;> simp [hnext]

@[simp] theorem fences_startGroup : (startGroup tile s).fences = s.fences := fences_forAll fun _ _ => fences_modEntry ..

/-! ### FENNEL -/

@[simp] theorem fences_fnWord : (fnWord addr n s).2.fences = s.fences := fences_pkgWord ..

@[simp] theorem fences_fnPut (v : Nat) : (fnPut addr n v s).fences = s.fences := fences_pkgWrite ..

@[simp] theorem fences_setFreeHead (h : Nat) : (setFreeHead tile h s).fences = s.fences := by simp [setFreeHead]
@[simp] theorem fences_setDead (l : List Nat) : (setDead tile l s).fences = s.fences := by simp [setDead]
@[simp] theorem fences_setWork (l : List FoldWork) : (setWork tile l s).fences = s.fences := by simp [setWork]

@[simp] theorem fences_pushFree (p : PoolParams) (page : Nat) : (pushFree tile p page s).fences = s.fences :=
  (fences_setFreeHead ..).trans (fences_pkgWrite ..)

@[simp] theorem fences_decPage (p : PoolParams) (page : Nat) : (decPage tile p page s).fences = s.fences := by
  simp [decPage]

@[simp] theorem fences_workEntry (p : PoolParams) (w : FoldWork) : (workEntry tile p w s).2.fences = s.fences := by
  simp only [workEntry]
  split <;> simp

@[simp] theorem fences_foldStep (p : PoolParams) : (foldStep tile p s).fences = s.fences := by
  simp only [foldStep]
  split <;> simp

@[simp] theorem fences_foldMany {p : PoolParams} : (foldMany tile p n s).fences = s.fences := by
  induction n generalizing s with
  | zero => rfl
  | succ n ih => simp [foldMany, ih]

@[simp] theorem fences_foldAll (p : PoolParams) : (foldAll tile p s).fences = s.fences := fences_foldMany ..

@[simp] theorem fences_foldTiles : (foldTiles s).fences = s.fences := by simp only [foldTiles]; split <;> simp

@[simp] theorem fences_reclaim (p : PoolParams) : (reclaim tile p s).fences = s.fences := by
  simp only [reclaim]
  split <;> simp

@[simp] theorem fences_background : (background tile s).fences = s.fences := by simp only [background]; split <;> simp

/-! ### Snoops -/

@[simp] theorem fences_snoopLine (entry : Nat) (x : Nat × Bool) : (snoopLine tile entry s x).fences = s.fences := by
  simp [snoopLine]

@[simp] theorem fences_withSnoopAt {i : Instr} {f : State → State} (h : ∀ s, (f s).fences = s.fences) :
    (withSnoopAt n i f s).fences = s.fences := by
  simp [withSnoopAt, h]

@[simp] theorem fences_withSnoop {i : Instr} {f : State → State} (h : ∀ s, (f s).fences = s.fences) :
    (withSnoop i f s).fences = s.fences := fences_withSnoopAt h

/-! ### The conductor and a member's side of a step -/

@[simp] theorem fences_learnMember : (learnMember s m).fences = s.fences := by simp [learnMember]
@[simp] theorem fences_learnMembers : (learnMembers s).fences = s.fences := by simp only [learnMembers]; split <;> simp
@[simp] theorem fences_addNotice (n : PageNotice) : (addNotice n s).fences = s.fences := by simp [addNotice]
@[simp] theorem fences_newSeqApply (n : NewSeq) : (newSeqApply n s).fences = s.fences := by simp [newSeqApply]
@[simp] theorem fences_newSeq (n : NewSeq) : (newSeq n s).2.fences = s.fences := by simp only [newSeq]; split <;> simp
@[simp] theorem fences_endSeq (status : Nat) : (endSeq slot status s).fences = s.fences := fences_addNotice ..

@[simp] theorem fences_finishSeq : (finishSeq slot s).2.fences = s.fences := by
  simp only [finishSeq]
  repeat' split
  all_goals simp

@[simp] theorem fences_sampleSeq (sample : Nat) : (sampleSeq slot sample s).2.fences = s.fences := by
  simp only [sampleSeq]
  repeat' split
  all_goals simp

@[simp] theorem fences_admitFrom {l : Seqs} : (admitFrom l s).fences = s.fences := by
  induction l generalizing s with
  | nil => rfl
  | cons x l ih => simp [admitFrom, ih]

@[simp] theorem fences_admitSeqs : (admitSeqs s).fences = s.fences := fences_admitFrom ..

@[simp] theorem fences_askPrompt (line : Nat) : (askPrompt slot s line).fences = s.fences := by
  simp only [askPrompt]
  simp

@[simp] theorem fences_beginForm (p : StepSetParams) (pool : PoolParams) (xs : List SeqPlace) :
    (beginForm p pool xs s).fences = s.fences := by
  simp [beginForm]

@[simp] theorem fences_sendRun (r : RetStep) (rerun : Bool) : (sendRun r rerun s).fences = s.fences := by
  simp only [sendRun]
  split <;> simp

@[simp] theorem fences_finishForm : (finishForm s).fences = s.fences := by simp only [finishForm]; split <;> simp

@[simp] theorem fences_formStep : (formStep s).fences = s.fences := by
  simp only [formStep]
  repeat' split
  all_goals simp

@[simp] theorem fences_promptData (data : List Byte) : (promptData id data s).fences = s.fences := fences_finishForm ..

@[simp] theorem fences_sendCommit (step : Nat) (ns : List PageNotice) : (sendCommit step ns s m).fences = s.fences :=
  fences_stepSendOut ..

theorem fences_stepRecv {src num : Nat} {t : State} (h : stepRecv src num s = some t) : t.fences = s.fences := by
  simp only [stepRecv] at h
  split at h
  · cases h; rfl
  · split at h
    · cases h; simp
    · cases h

@[simp] theorem fences_cancelSteps : (cancelSteps s).fences = s.fences := by simp [cancelSteps]

@[simp] theorem fences_abortIn (step : Nat) : (abortIn step code s).fences = s.fences := by
  simp only [abortIn]
  split <;> simp

@[simp] theorem fences_rerunStep : (rerunStep s).fences = s.fences := by simp only [rerunStep]; split <;> simp

/-! ### The host link -/

@[simp] theorem fences_fetchTail (r : Nat) : (fetchTail r s).fences = s.fences := by simp [fetchTail]
@[simp] theorem fences_fetchHead : (fetchHead c s).fences = s.fences := by simp [fetchHead]
@[simp] theorem fences_watcherWake (head : Bool) : (watcherWake head ring s).fences = s.fences := by simp [watcherWake]
@[simp] theorem fences_newTail : (newTail ring n s).fences = s.fences := by simp [newTail]

@[simp] theorem fences_readData (data : List Byte) : (readData id data s).fences = s.fences := by
  simp only [readData]
  split <;> simp

@[simp] theorem fences_writeDone : (writeDone id s).fences = s.fences := by simp only [writeDone]; split <;> simp
@[simp] theorem fences_takeDesc : (takeDesc ring index s).fences = s.fences := by simp [takeDesc]

@[simp] theorem fences_faultDesc (fault : Nat) (d : DescSlot) : (faultDesc ring fault d s).fences = s.fences := by
  simp [faultDesc]

@[simp] theorem fences_withDesc {want : DescSlot → Bool} {f : DescSlot → State → State}
    (h : ∀ d s, (f d s).fences = s.fences) : (withDesc ring want f s).fences = s.fences := by
  unfold withDesc
  repeat' split
  all_goals simp [h]

@[simp] theorem fences_submitTask (d : DescSlot) : (submitTask ring d s).fences = s.fences := by simp [submitTask]
@[simp] theorem fences_noteUpdate : (noteUpdate slot index s).fences = s.fences := by simp [noteUpdate]

@[simp] theorem fences_applyUpdate (d : DescSlot) (r : Nat × State) : (applyUpdate ring d r).fences = r.2.fences := by
  simp [applyUpdate]

@[simp] theorem fences_hdmCommit (base : Nat) : (hdmCommit base s).fences = s.fences := by simp [hdmCommit]
@[simp] theorem fences_listLine (line : Nat) : (listLine line s).fences = s.fences := by
  simp only [listLine]

@[simp] theorem fences_hostReadNow (line : Nat) (caches : Bool) :
    (hostRead.hostReadNow line caches s).fences = s.fences := by
  simp [hostRead.hostReadNow]

@[simp] theorem fences_hostRead {i : Instr} {caches : Bool} : (hostRead i off caches s).fences = s.fences := by
  simp only [hostRead]
  repeat' split
  all_goals simp

@[simp] theorem fences_hostWrite (c : Instr) (data : List Byte) (poison : Bool) :
    (hostWrite c off data poison s).fences = s.fences := by
  simp [hostWrite]

@[simp] theorem fences_snoopAnswer (line : Nat) (dirty : List Byte) : (snoopAnswer line dirty s).fences = s.fences := by
  unfold snoopAnswer
  split <;> simp

@[simp] theorem fences_keyProg (dir sub keySet refresh key : Nat) :
    (keyProg stream dir sub keySet refresh key s).fences = s.fences := by
  simp only [keyProg]
  split <;> simp

@[simp] theorem fences_keyGo (keySet : Nat) : (keyGo stream keySet s).fences = s.fences := by simp [keyGo]
@[simp] theorem fences_moderationEnds : (moderationEnds cq s).fences = s.fences := by simp [moderationEnds]
@[simp] theorem fences_holdoffEnds : (holdoffEnds s).fences = s.fences := by simp [holdoffEnds]

/-! ### Mailboxes -/

@[simp] theorem fences_refuse (status : Nat) : (refuse status s).state.fences = s.fences := by simp [refuse]
@[simp] theorem fences_accept : (accept s).state.fences = s.fences := by simp [accept]

@[simp] theorem fences_runMail {via states : Nat} {auth claim : Bool} {f : State → Answer}
    (h : ∀ s, (f s).state.fences = s.fences) :
    (runMail code via states auth claim q f s).fences = s.fences := by
  have hf := h s
  simp only [runMail]
  cases hfs : f s <;> simp_all

@[simp] theorem fences_runGuarded {i : Instr} {via states : Nat} {auth claim : Bool} {f : State → Answer}
    (h : ∀ s, (f s).state.fences = s.fences) :
    (runGuarded i code via states auth claim q f s).fences = s.fences := by
  simp [runGuarded, h]

@[simp] theorem fences_mailbox {i : Instr} {via states : Nat} {auth claim : Bool} {f : State → Answer}
    (h : ∀ s, (f s).state.fences = s.fences) :
    (mailbox i code via states auth claim q f s).fences = s.fences := by
  simp [mailbox, h]

@[simp] theorem fences_freeExecutor : (freeExecutor s).fences = s.fences := by simp [freeExecutor]

/-! ### Packets that come in -/

@[simp] theorem fences_resendAll (rs : List Retained) : (resendAll k rs s).fences = s.fences := by simp [resendAll]
@[simp] theorem fences_resendFrom : (resendFrom k n s).fences = s.fences := fences_resendAll ..

@[simp] theorem fences_growCap : (growCap port peer s).fences = s.fences := fences_pumpPort ..

@[simp] theorem fences_sendAck : (sendAck k s).fences = s.fences := by simp [sendAck]
@[simp] theorem fences_sendNak : (sendNak k s).fences = s.fences := by simp [sendNak]
@[simp] theorem fences_arrive (op : Nat) (p : Packet) : (arrive port op p s).fences = s.fences := by simp [arrive]

@[simp] theorem fences_screen (op : Nat) (p : Packet) : (screen port op p s).2.fences = s.fences := by
  simp only [screen]
  repeat' split
  all_goals simp

@[simp] theorem fences_outOfSequence {op : Nat} {p : Packet} {f : Nat → State → State}
    (h : ∀ k s, (f k s).fences = s.fences) : (outOfSequence port op p f s).fences = s.fences := by
  have hscreen := fences_screen (port := port) (op := op) (p := p) (s := s)
  simp only [outOfSequence]
  split <;> rename_i heq <;> (rw [heq] at hscreen; dsimp only at hscreen)
  · exact hscreen
  · simp [h, hscreen]

@[simp] theorem fences_onNak (p : Packet) : (onNak p k s).fences = s.fences := by simp [onNak]

@[simp] theorem fences_endOpen (status : Nat) : (endOpen k status s).fences = s.fences := by
  simp only [endOpen]
  split <;> simp

/-! ### Members, channels, peers -/

@[simp] theorem fences_openChan (low high : Nat) : (openChan k port low high s).fences = s.fences := by simp [openChan]
@[simp] theorem fences_peerOpens : (peerOpens k s).fences = s.fences := by simp [peerOpens]
@[simp] theorem fences_reopenChan : (reopenChan k s).fences = s.fences := fences_openChan ..

@[simp] theorem fences_reopenWhere (f : Nat → Bool) : (reopenWhere f s).fences = s.fences :=
  fences_forAll fun _ _ => fences_reopenChan ..

@[simp] theorem fences_reopenAll : (reopenAll s).fences = s.fences := fences_reopenWhere ..

@[simp] theorem fences_serveAgain (was : ModState) : (serveAgain was s).fences = s.fences := by
  simp only [serveAgain]
  repeat' split
  all_goals simp

@[simp] theorem fences_backReady : (backReady s).fences = s.fences :=
  (fences_serveAgain ..).trans (fences_settleReady ..)

@[simp] theorem fences_resendStep : (resendStep m s).fences = s.fences := by
  simp only [resendStep]
  repeat' split
  all_goals simp

@[simp] theorem fences_payOwed : (payOwed m s).fences = s.fences := by simp [payOwed]
@[simp] theorem fences_sendNotice : (sendNotice w peer s).fences = s.fences := by simp only [sendNotice]; split <;> simp
@[simp] theorem fences_memberUp : (memberUp m s).fences = s.fences := by simp [memberUp]
@[simp] theorem fences_settlePair : (settlePair m s).fences = s.fences := by simp [settlePair]

theorem fences_mgmtRecv {m counter : Nat} {tagOk : Bool} {t : State} (h : mgmtRecv m counter tagOk s = some t) :
    t.fences = s.fences := by
  simp only [mgmtRecv] at h
  split at h
  · cases h; simp
  · cases h

@[simp] theorem fences_rekeyPair (secret : Nat) : (rekeyPair m secret s).fences = s.fences :=
  fences_forAll fun _ _ => by simp

/-! ### Ports -/

@[simp] theorem fences_startTraining : (startTraining port s).fences = s.fences := by simp [startTraining]

@[simp] theorem fences_lightPort (lasersOk lanesOk : Nat) : (lightPort lasersOk lanesOk s port).fences = s.fences := by
  simp [lightPort]

/-! ### Long commands -/

@[simp] theorem fences_closeWin : (closeWin w s).fences = s.fences := by
  simp only [closeWin]
  repeat' split
  all_goals simp

@[simp] theorem fences_cleanEvict : (cleanEvict addr s).fences = s.fences := by
  simp only [cleanEvict]
  simp
@[simp] theorem fences_endRing : (endRing ring s).2.fences = s.fences := by
  simp only [endRing]
  simp
@[simp] theorem fences_endCq : (endCq c s).fences = s.fences := by
  simp only [endCq]
  simp
@[simp] theorem fences_releaseGranule : (releaseGranule tile g s).fences = s.fences := by simp [releaseGranule]

@[simp] theorem fences_swapTable (engine : Nat) : (swapTable tile engine slot s).fences = s.fences := by
  simp [swapTable]

@[simp] theorem fences_finishLong (body : List Byte) : (finishLong q body s).fences = s.fences := by simp [finishLong]

/-- Of the commands that wait, only `CHANNEL_CLOSE` changes a waiting increment as it finishes. -/
@[simp] theorem fences_beginLong {l : LongCmd} (h : ∀ q k, l ≠ .chanClose q k) :
    (beginLong l s).state.fences = s.fences := by
  rw [beginLong, Answer.state_later]
  cases l
  case chanClose q k => exact absurd rfl (h q k)
  all_goals simp [tryFinish]

@[simp] theorem fences_collected (aon : Bool) (state : Nat) : (collected aon state s).fences = s.fences := by
  simp [collected]

/-! ### Resets, boot, standby -/

@[simp] theorem fences_fetchWatched : (fetchWatched s).fences = s.fences := by simp [fetchWatched]

@[simp] theorem fences_modFwSlot (i : Nat) (f : FwSlot → FwSlot) : (modFwSlot i f s).fences = s.fences := by
  simp [modFwSlot]

@[simp] theorem fences_dropTransfer : (dropTransfer s).fences = s.fences := by simp only [dropTransfer]; split <;> simp
@[simp] theorem fences_dropPending : (dropPending s).fences = s.fences := by simp [dropPending]
@[simp] theorem fences_extendMeas (i d : Nat) : (extendMeas i d s).fences = s.fences := by simp [extendMeas]
@[simp] theorem fences_measureBoot (ds : List Nat) : (measureBoot ds s).fences = s.fences := by
  simp only [measureBoot]
  simp
@[simp] theorem fences_logFallback : (logFallback s).fences = s.fences := by simp [logFallback]
@[simp] theorem fences_bootRuns (ds : List Nat) : (bootRuns ds s).fences = s.fences := fences_measureBoot ..

@[simp] theorem fences_bootDead : (bootDead s).fences = s.fences := by simp [bootDead]

@[simp] theorem fences_bootActive (activeOk otherOk : Bool) (ds : List Nat) :
    (bootActive activeOk otherOk ds s).fences = s.fences := by
  simp [bootActive]

@[simp] theorem fences_bootVerify (pendingOk activeOk otherOk : Bool) (ds : List Nat) :
    (bootVerify pendingOk activeOk otherOk ds s).fences = s.fences := by
  simp only [bootVerify]
  split <;> simp

@[simp] theorem fences_bootFree : (bootFree s).fences = s.fences := fences_bootVerify ..

@[simp] theorem fences_exitStandby : (exitStandby s).fences = s.fences := by simp [exitStandby]

/-! ### The board cascade -/

@[simp] theorem fences_cfSend (body : List Nat) : (cfSend code addr body s).fences = s.fences := by simp [cfSend]
@[simp] theorem fences_cfUp (body : List Nat) : (cfUp code body s).fences = s.fences := fences_cfSend ..

@[simp] theorem fences_cfAll (body : List Nat) : (cfAll code body s).fences = s.fences := fences_cfSend ..

@[simp] theorem fences_cfRelay (src : Nat) (body : List Nat) : (cfRelay code src body s).fences = s.fences :=
  fences_cfSend ..

@[simp] theorem fences_cfOn (body : List Nat) : (cfOn code body s).fences = s.fences := by simp [cfOn]
@[simp] theorem fences_cascadeFault : (cascadeFault s).fences = s.fences := by simp [cascadeFault]
@[simp] theorem fences_sendLoops : (sendLoops s).fences = s.fences := fences_forAll fun _ _ => fences_cfAll ..
@[simp] theorem fences_finishRamp : (finishRamp s).fences = s.fences := by simp [finishRamp]
@[simp] theorem fences_grantNext : (grantNext s).fences = s.fences := by simp only [grantNext]; split <;> simp
@[simp] theorem fences_masterWaited : (masterWaited s).fences = s.fences := by simp [masterWaited]

@[simp] theorem fences_slotEnds : (slotEnds s).fences = s.fences := by
  simp only [slotEnds]
  repeat' split
  all_goals simp

@[simp] theorem fences_takeGrant : (takeGrant slot s).fences = s.fences := by simp [takeGrant]
@[simp] theorem fences_grantTimeout : (grantTimeout s).fences = s.fences := by simp [grantTimeout]
@[simp] theorem fences_soloRamp : (soloRamp s).fences = s.fences := by simp [soloRamp]
@[simp] theorem fences_rampDoneIn (p : Nat) : (rampDoneIn p s).fences = s.fences := by simp [rampDoneIn]
@[simp] theorem fences_rampDone : (rampDone s).fences = s.fences := by simp [rampDone]

@[simp] theorem fences_helloIn (p serial : Nat) (onUp : Bool) : (helloIn p serial onUp s).fences = s.fences := by
  simp [helloIn]

@[simp] theorem fences_boardIn (p : Nat) (present : Bool) (serial : Nat) :
    (boardIn p present serial s).fences = s.fences := by
  simp [boardIn]

@[simp] theorem fences_countLoop (p : Nat) (good : Bool) : (countLoop p seq good s).fences = s.fences := by
  simp [countLoop]

@[simp] theorem fences_loopIn (p pattern : Nat) : (loopIn p seq pattern s).fences = s.fences := by simp [loopIn]
@[simp] theorem fences_faultIn (p : Nat) : (faultIn p cause s).fences = s.fences := by simp [faultIn]

@[simp] theorem fences_cascadeResend : (cascadeResend s).fences = s.fences := by
  simp only [cascadeResend]
  split <;> simp

/-! ### Ends of drains -/

@[simp] theorem fences_drainDone : (drainDone t s).fences = s.fences := by simp only [drainDone]; split <;> simp
@[simp] theorem fences_sessionExpires : (sessionExpires s).fences = s.fences := by simp [sessionExpires]

/-! ### Start-up -/

@[simp] theorem fences_inputIn (pos : Nat) : (inputIn pos s).fences = s.fences := by simp [inputIn]

@[simp] theorem fences_perstOff (pendingOk activeOk otherOk : Bool) (ds : List Nat) :
    (perstOff pendingOk activeOk otherOk ds s).fences = s.fences := by
  simp [perstOff]

@[simp] theorem fences_fillDone : (fillDone s).fences = s.fences := by
  unfold fillDone
  split <;> simp

@[simp] theorem fences_portsMayTrain : (portsMayTrain s).fences = s.fences := fences_backReady ..

@[simp] theorem fences_checkerEntry (tiles : Nat) : (checkerEntry tiles s).2.fences = s.fences := by
  simp only [checkerEntry]
  simp

@[simp] theorem fences_checkerDone (tiles fails : Nat) : (checkerDone tiles fails s).fences = s.fences := by
  simp [checkerDone]

/-! ### Scrubbers, self-tests, reloads -/

@[simp] theorem fences_promoteTest (loc : Loc) : (promoteTest loc s).fences = s.fences := by
  simp only [promoteTest]
@[simp] theorem fences_scrubSlot : (scrubSlot t s).fences = s.fences := by simp [scrubSlot]
@[simp] theorem fences_lapOverdue (slot : Bool) : (lapOverdue t slot s).fences = s.fences := by simp [lapOverdue]

@[simp] theorem fences_loopbackDone (board : Bool) (lostPos lostPlane : List Nat) (elapsed : Nat) :
    (loopbackDone board lostPos lostPlane elapsed s).fences = s.fences := by
  simp only [loopbackDone]
  split <;> simp

/-! ### Tenancy -/

@[simp] theorem fences_readCert (offset : Nat) : (readCert index offset s).state.fences = s.fences := by simp [readCert]

@[simp] theorem fences_attestNow (nonce mask : Nat) : (attestNow nonce mask s).state.fences = s.fences := by
  simp [attestNow]

@[simp] theorem fences_answerPeer (nonce ek : Nat) : (answerPeer m nonce ek s).fences = s.fences := by
  simp only [answerPeer]
  repeat' split
  all_goals simp

@[simp] theorem fences_openPart0 (pk ek : Nat) : (openPart0 pk ek s).state.fences = s.fences := fences_accept ..

@[simp] theorem fences_newSession (pk ek : Nat) : (newSession pk ek s).2.2.fences = s.fences := by
  simp only [newSession]

@[simp] theorem fences_openPart1 (sigOk rsvZero : Bool) : (openPart1 sigOk rsvZero s).state.fences = s.fences := by
  simp only [openPart1]
  split <;> simp

@[simp] theorem fences_openSession (part pk ek : Nat) (sigOk : Bool) :
    (openSession q part pk ek sigOk s).state.fences = s.fences := by
  simp [openSession]

@[simp] theorem fences_claimFor (x : Session) (policy nfw : Nat) (allow : List Nat) :
    (claimFor x policy nfw allow s).fences = s.fences := by
  simp [claimFor]

@[simp] theorem fences_claim (session policy nfw : Nat) (allow : List Nat) :
    (claim session policy nfw allow s).state.fences = s.fences := by
  simp only [claim]
  split <;> simp

/-! ### Memory, rings and pools, as group 4 sets them -/

@[simp] theorem fences_setRegions (l : List RegionEntry) : (setRegions l s).state.fences = s.fences := by
  simp [setRegions]

@[simp] theorem fences_setHdmSize (units : Nat) : (setHdmSize units s).state.fences = s.fences := by simp [setHdmSize]

@[simp] theorem fences_setArb (share threshold : Nat) : (setArb share threshold s).state.fences = s.fences := by
  simp [setArb]

@[simp] theorem fences_setTimeout (ms : Nat) : (setTimeout ms s).state.fences = s.fences := by simp [setTimeout]
@[simp] theorem fences_createRing (r : RingParams) : (createRing r s).state.fences = s.fences := by simp [createRing]
@[simp] theorem fences_createCq (r : RingParams) : (createCq r s).state.fences = s.fences := by simp [createCq]
@[simp] theorem fences_destroyRing : (destroyRing q ring s).state.fences = s.fences := by simp [destroyRing]
@[simp] theorem fences_destroyCq : (destroyCq q c s).state.fences = s.fences := by simp [destroyCq]
@[simp] theorem fences_zeroRange (base len : Nat) : (zeroRange base len s).fences = s.fences := by simp [zeroRange]

@[simp] theorem fences_linkPages (p : PoolParams) : (linkPages p s tile).fences = s.fences :=
  fences_forAll fun _ _ => fences_pushFree ..

@[simp] theorem fences_configPool (p : PoolParams) : (configPool p s).state.fences = s.fences := by simp [configPool]

@[simp] theorem fences_releaseSlots (count : Nat) : (releaseSlots q tile first count s).state.fences = s.fences := by
  simp [releaseSlots]

@[simp] theorem fences_setWeights (w : WeightParams) : (setWeights w s).state.fences = s.fences := by simp [setWeights]

/-! ### Plan, jobs, channels, windows and ports, as group 5 sets them -/

@[simp] theorem fences_setMembers (ids : List Nat) : (setMembers ids s).state.fences = s.fences := by simp [setMembers]

@[simp] theorem fences_joinJob (job : Nat) (members : List Nat) (manager : Nat) :
    (joinJob job members manager s).state.fences = s.fences := by
  simp [joinJob]

@[simp] theorem fences_openChannel (number low high : Nat) :
    (openChannel q number peer port low high s).state.fences = s.fences := by
  simp [openChannel]

@[simp] theorem fences_openWindow (w : WindowParams) : (openWindow w s).state.fences = s.fences := by simp [openWindow]
@[simp] theorem fences_closeWindow : (closeWindow q w s).state.fences = s.fences := by simp [closeWindow]
@[simp] theorem fences_windowStatus : (windowStatus w s).state.fences = s.fences := by simp [windowStatus]

@[simp] theorem fences_trustJob (job : Nat) : (trustJob job s).state.fences = s.fences := by
  simp only [trustJob]
  split <;> simp

@[simp] theorem fences_overPorts {mask : Nat} {f : Nat → State → State} (h : ∀ p s, (f p s).fences = s.fences) :
    (overPorts mask f s).state.fences = s.fences := by
  simp [overPorts, h]

@[simp] theorem fences_enablePort (p : Nat) : (enablePort p s).fences = s.fences := by simp [enablePort]

/-! ### Step task sets, drains, configurations and tables, as group 6 sets them -/

@[simp] theorem fences_readCaps : (readCaps cls s).state.fences = s.fences := by simp [readCaps]
@[simp] theorem fences_resumeJob (job : Nat) : (resumeJob job s).state.fences = s.fences := by simp [resumeJob]
@[simp] theorem fences_drain (x : EngineSel) : (drain q x s).state.fences = s.fences := by simp [drain]

@[simp] theorem fences_loadConfig (i : Nat) (c : List Byte) : (loadConfig i c s).state.fences = s.fences := by
  simp [loadConfig]

@[simp] theorem fences_shadowTable (img : List Byte) : (shadowTable slot img s).fences = s.fences := by
  simp [shadowTable]

@[simp] theorem fences_loadTable : (loadTable q slot dpa s).state.fences = s.fences := by simp [loadTable]
@[simp] theorem fences_readTable : (readTable kind index s).state.fences = s.fences := by simp [readTable]

@[simp] theorem fences_readFences (count : Nat) : (readFences first count s).state.fences = s.fences := by
  simp [readFences]

/-! ### Firmware -/

@[simp] theorem fences_eraseSlot : (eraseSlot slot s).fences = s.fences := by simp [eraseSlot]

@[simp] theorem fences_openTransfer (owner size : Nat) : (openTransfer owner slot size s).2.fences = s.fences := by
  simp only [openTransfer]
  simp

@[simp] theorem fences_fwBegin (size : Nat) : (fwBegin q slot size s).state.fences = s.fences := by simp [fwBegin]

theorem fences_takeChunk {x : Transfer} {full offset : Nat} {data : List Byte} {t : State}
    (h : takeChunk x full offset data s = some t) : t.fences = s.fences := by
  simp only [takeChunk] at h
  repeat' split at h
  all_goals cases h
  all_goals simp

@[simp] theorem fences_fwTransfer {id offset : Nat} {data : List Byte} :
    (fwTransfer id offset data s).state.fences = s.fences := by
  simp only [fwTransfer]
  split
  · rfl
  · split
    · exact fences_takeChunk ‹_›
    · rfl

@[simp] theorem fences_markVerified (t : Transfer) (version svn : Nat) :
    (markVerified t version svn s).fences = s.fences := fences_modFwSlot ..

@[simp] theorem fences_fwVerify (verdict version svn : Nat) :
    (fwVerify id verdict version svn s).state.fences = s.fences := by
  simp only [fwVerify]
  split <;> simp

@[simp] theorem fences_cancelTransfer (t : Transfer) : (cancelTransfer t s).fences = s.fences := by
  simp only [cancelTransfer]
  simp

@[simp] theorem fences_fwCancel : (fwCancel id s).state.fences = s.fences := by simp only [fwCancel]; split <;> simp
@[simp] theorem fences_pldmAnswer (ok : Bool) : (pldmAnswer ok s).fences = s.fences := by simp [pldmAnswer]

@[simp] theorem fences_pldmUpdate {f : State → Option State} (h : ∀ s t, f s = some t → t.fences = s.fences) :
    (pldmUpdate f s).fences = s.fences := by
  simp only [pldmUpdate]
  split
  · rfl
  · split
    · simp
    · split
      · simp [h _ _ ‹_›]
      · simp

theorem fences_requestUpdate {slot size : Nat} {t : State} (h : requestUpdate slot size s = some t) :
    t.fences = s.fences := by
  simp only [requestUpdate] at h
  split at h
  · cases h; simp
  · cases h

@[simp] theorem fences_pldmVerify (verdict version svn : Nat) :
    (pldmVerify verdict version svn s).fences = s.fences := by
  simp only [pldmVerify]
  split <;> simp

@[simp] theorem fences_firmwareData {offset verdict version svn : Nat} {data : List Byte} :
    (firmwareData offset data verdict version svn s).fences = s.fences := by
  simp only [firmwareData]
  split
  · split
    · rfl
    · split
      · simp [fences_takeChunk ‹_›]
      · rfl
  · rfl

theorem fences_activateFirmware {selfContained : Bool} {t : State} (h : activateFirmware selfContained s = some t) :
    t.fences = s.fences := by
  simp only [activateFirmware] at h
  repeat' split at h
  all_goals cases h
  simp

theorem fences_cancelUpdate {t : State} (h : cancelUpdate s = some t) : t.fences = s.fences := by
  obtain ⟨x, -, rfl⟩ := Option.map_eq_some_iff.mp h
  simp

/-! ### Memory controllers and sensors -/

@[simp] theorem fences_takeSlot : (takeSlot t c cls s).fences = s.fences := by simp [takeSlot]
@[simp] theorem fences_serveReq : (serveReq t c s).fences = s.fences := by simp only [serveReq]; split <;> simp
@[simp] theorem fences_promoteReq : (promoteReq t c s).fences = s.fences := by simp only [promoteReq]; split <;> simp
@[simp] theorem fences_refreshChan : (refreshChan t c s).fences = s.fences := by simp [refreshChan]
@[simp] theorem fences_relaxBand : (relaxBand t s).fences = s.fences := by simp [relaxBand]

@[simp] theorem fences_crossed (sensor limit old new : Nat) : (crossed sensor limit old new s).fences = s.fences := by
  simp [crossed]

@[simp] theorem fences_samplePower (mv ma : Nat) : (samplePower mv ma s).fences = s.fences := by
  simp only [samplePower]
  repeat' split
  all_goals simp

@[simp] theorem fences_grantBudgets (asked : Bool) (grants : List Nat) :
    (grantBudgets asked grants s).fences = s.fences :=
  fences_forAll fun _ _ => by simp

@[simp] theorem fences_heartbeat : (heartbeat s).fences = s.fences := by simp [heartbeat]

/-! ### Registers -/

@[simp] theorem fences_statusW1c (mb1 : Bool) (bits : Nat) : (statusW1c mb1 bits s).fences = s.fences := by
  simp [statusW1c]

@[simp] theorem fences_overrunMb (mb1 : Bool) : (overrunMb mb1 s).fences = s.fences := by simp [overrunMb]

@[simp] theorem fences_shadowWrite (mb1 : Bool) (at0 : Nat) (bs : List Byte) :
    (shadowWrite mb1 at0 bs s).fences = s.fences := by
  simp [shadowWrite]

@[simp] theorem fences_doorbell (mb1 : Bool) : (doorbell mb1 s).fences = s.fences := by simp [doorbell]

@[simp] theorem fences_mbWrite (mb1 : Bool) (value : Nat) : (mbWrite mb1 off value s).fences = s.fences := by
  simp [mbWrite]

@[simp] theorem fences_esClear (bits : BitVec 64) : (esClear bits s).fences = s.fences := by simp [esClear]

@[simp] theorem fences_ovfClear (bank : Nat) (bits : BitVec 16) : (ovfClear bank bits s).fences = s.fences := by
  simp [ovfClear]

@[simp] theorem fences_selWrite (bank : Nat) (v : BitVec 64) : (selWrite bank index v s).fences = s.fences := by
  simp only [selWrite]

@[simp] theorem fences_selBusWrite (bank size : Nat) (v : BitVec 64) :
    (selBusWrite bank index size v s).fences = s.fences := by
  simp [selBusWrite]

@[simp] theorem fences_evcZero : (evcZero s).fences = s.fences := by simp [evcZero]
@[simp] theorem fences_evcHold (on : Bool) : (evcHold on s).fences = s.fences := by simp [evcHold]
@[simp] theorem fences_evcWrite (value : Nat) : (evcWrite off value s).fences = s.fences := by simp [evcWrite]
@[simp] theorem fences_msixWrite (value : Nat) : (msixWrite k value s).fences = s.fences := by simp [msixWrite]
@[simp] theorem fences_write4 (value : Nat) : (write4 off value s).fences = s.fences := by simp [write4]

@[simp] theorem fences_bar0Write (size value : Nat) : (bar0Write off size value s).fences = s.fences := by
  simp only [bar0Write]
  repeat' split
  all_goals simp

@[simp] theorem fences_bar2Control (bs : List Byte) : (bar2Control off bs s).fences = s.fences := by simp [bar2Control]

@[simp] theorem fences_apertureRead (at0 : Nat) : (apertureRead at0 n s).2.fences = s.fences := by
  simp only [apertureRead]
  repeat' split
  all_goals simp

@[simp] theorem fences_apertureWrite (at0 : Nat) (bs : List Byte) : (apertureWrite at0 bs s).fences = s.fences := by
  simp [apertureWrite]

@[simp] theorem fences_bar2Closed (write : Bool) (size : Nat) : (bar2Closed write size s).fences = s.fences := by
  simp [bar2Closed]

@[simp] theorem fences_bar2Go (write : Bool) (size : Nat) (data : List Byte) :
    (bar2Go write off size data s).fences = s.fences := by
  simp [bar2Go]

/-! ### The recovery dump -/

@[simp] theorem fences_dumpEngines : (dumpEngines s).2.fences = s.fences := by simp [dumpEngines]

@[simp] theorem fences_freeWalk {p : PoolParams} {page : Nat} : (freeWalk p n page s).2.fences = s.fences := by
  induction n generalizing page s with
  | zero => rfl
  | succ n ih =>
    simp only [freeWalk]
    repeat' split
    all_goals simp [ih]

@[simp] theorem fences_dumpFennelTile (p : PoolParams) : (dumpFennelTile p t s).2.fences = s.fences := by
  simp only [dumpFennelTile]
  simp

@[simp] theorem fences_dumpFennel : (dumpFennel s).2.fences = s.fences := by
  simp only [dumpFennel]
  split
  · rfl
  · rw [fences_foldl_snd]
    simp

@[simp] theorem fences_writeSections {l : List (Nat × Bool × List Byte)} {at0 : Nat} :
    (writeSections l at0 s).2.fences = s.fences := by
  induction l generalizing at0 s with
  | nil => rfl
  | cons x l ih => simp [writeSections, ih]

@[simp] theorem fences_writeDump (aon : Bool) : (writeDump aon s).2.fences = s.fences := by simp [writeDump]
@[simp] theorem fences_collect (aon : Bool) : (collect aon s).2.fences = s.fences := by simp [collect]

/-! ### Monitoring, tests and the sideband -/

@[simp] theorem fences_logOf (log : Nat) : (logOf log tile s).2.fences = s.fences := by
  simp only [logOf]
  repeat' split
  all_goals simp

@[simp] theorem fences_logRead (log : Nat) : (logRead log tile first s).state.fences = s.fences := by simp [logRead]
@[simp] theorem fences_logClear (log : Nat) : (logClear log tile s).state.fences = s.fences := by simp [logClear]

@[simp] theorem fences_counterConfig (bank : Nat) (v : BitVec 64) :
    (counterConfig bank index v s).state.fences = s.fences := by
  simp [counterConfig]

@[simp] theorem fences_counterRead (count : Nat) : (counterRead first count s).state.fences = s.fences := by
  simp [counterRead]

@[simp] theorem fences_scrubConfig (hours : Nat) : (scrubConfig hours s).state.fences = s.fences := by
  simp [scrubConfig]

@[simp] theorem fences_recoveryCollect : (recoveryCollect q s).state.fences = s.fences := by simp [recoveryCollect]
@[simp] theorem fences_standbyExit : (standbyExit q s).state.fences = s.fences := by simp [standbyExit]

@[simp] theorem fences_cascadeReset (pos level : Nat) : (cascadeReset q pos level s).state.fences = s.fences := by
  simp [cascadeReset]

@[simp] theorem fences_flipMask (slot : Bool) (unit : Nat) (mask : List Byte) :
    (flipMask slot tile unit mask s).state.fences = s.fences := by
  simp [flipMask]

@[simp] theorem fences_testStarts (test : Nat) : (testStarts test s).fences = s.fences := by simp [testStarts]

@[simp] theorem fences_testBist (tiles memory patterns : Nat) :
    (testBist q tiles memory patterns s).state.fences = s.fences := by
  simp [testBist]

@[simp] theorem fences_sendTests : (sendTests s).fences = s.fences := fences_forAll fun _ _ => by simp
@[simp] theorem fences_sendBoard : (sendBoard s).fences = s.fences := by simp [sendBoard]

@[simp] theorem fences_testLoopback (board : Bool) (mask : Nat) :
    (testLoopback q board mask s).state.fences = s.fences := by
  simp [testLoopback]

@[simp] theorem fences_testResult (test : Nat) : (testResult test s).state.fences = s.fences := by simp [testResult]
@[simp] theorem fences_entDaa : (entDaa addr s).fences = s.fences := by simp [entDaa]
@[simp] theorem fences_setDasa (static : Nat) : (setDasa static addr s).fences = s.fences := by simp [setDasa]
@[simp] theorem fences_setEid (eid : Nat) : (setEid eid s).fences = s.fences := by simp [setEid]
@[simp] theorem fences_pldmBase (command : Nat) : (pldmBase command s).fences = s.fences := by simp [pldmBase]
@[simp] theorem fences_pldmSensor (sensor : Nat) : (pldmSensor sensor s).fences = s.fences := by simp [pldmSensor]
@[simp] theorem fences_setReceiver (eid : Nat) : (setReceiver eid s).fences = s.fences := by simp [setReceiver]

/-! ### The meanings of commands -/

/-- An outcome whose next state, if there is one, holds the fences and barriers that `s` does. -/
def KeepsFences (s : State) (o : Host.Outcome State Fault Refusal) : Prop :=
  ∀ t, o = .next t → t.fences = s.fences

theorem keepsFences_next {t : State} (h : t.fences = s.fences) : KeepsFences s (.next t) := by
  rintro _ ⟨⟩
  exact h

theorem keepsFences_of_listed {c : Instr} (h : mayChangeFences c = false) (hc : mayChangeFences c = true) :
    KeepsFences s (exec c s) :=
  nomatch hc.symm.trans h

theorem keepsFences_refused (r : Refusal) : KeepsFences s (.refused r) := by simp [KeepsFences]

theorem keepsFences_execBar2Access (write : Bool) (offset size : Nat) (data : List Byte) :
    KeepsFences s (execBar2Access write offset size data s) := by
  rw [execBar2Access]
  split
  · exact keepsFences_refused _
  · exact keepsFences_next (by simp)

theorem keepsFences_execRegisterWrite (bar2 : Bool) (offset size value : Nat) :
    KeepsFences s (execRegisterWrite bar2 offset size value s) := by
  rw [execRegisterWrite]
  split <;> split
  · exact keepsFences_refused _
  · exact keepsFences_next (by simp)
  · exact keepsFences_refused _
  · exact keepsFences_next (by simp)

end

-- The arguments of the commands are never named below: without hygiene the file keeps no generated names for them.
set_option tactic.hygienic false in
/-- A command leaves fences and barriers, unless it is of the list. The meanings that may refuse, that split on more
than a condition, or that go on with the state of a message received, have cases of their own; every other is `.next` of
one operation, whose rule closes its case. -/
theorem keepsFences_exec {c : Instr} (s : State) (h : mayChangeFences c = false) : KeepsFences s (exec c s) := by
  cases c
  all_goals try exact keepsFences_of_listed h rfl
  case bar2Access => exact keepsFences_execBar2Access _ _ _ _
  case registerWrite => exact keepsFences_execRegisterWrite _ _ _ _
  all_goals refine keepsFences_next ?_
  case busyResendTimer | slotWindowClaim | portRetrainTimer => split <;> simp
  case msgResult | msgAbortDone =>
    split
    · split
      · simp
      · have hrecv := fences_stepRecv ‹_›
        repeat' split
        all_goals exact hrecv
    · rfl
  case msgAbort =>
    repeat' split
    · rfl
    · simp [fences_stepRecv ‹_›]
    · simp
  case windowNotice | pairRekey =>
    split
    · simp [fences_mgmtRecv ‹_›]
    · simp
  case requestUpdate => exact fences_pldmUpdate fun _ _ => fences_requestUpdate
  case activateFirmware => exact fences_pldmUpdate fun _ _ => fences_activateFirmware
  case cancelUpdate => exact fences_pldmUpdate fun _ _ => fences_cancelUpdate
  all_goals try refine fences_mailbox fun _ => ?_
  all_goals simp

/-! ### O55 -/

/-- Settles O55: a command that is not of the list keeps the unit, whatever it runs. -/
theorem fencesFrame : Obligations.FencesFrame := by
  unfold Obligations.FencesFrame
  intro c s t hc ht
  exact keepsFences_exec s hc t ht

end Sys2Proof.Machine
end

section
/-!
# Packing of elements (R163)

A packing group is a number written in base `2 ^ w`, least significant element first; a row of whole groups is packed and
unpacked group by group. Settles O48 by induction over the groups.
-/
namespace Sys2Proof.Machine

/-! ### Pieces of a list -/

theorem chunkGo_fuel {α : Type} {k n m : Nat} {l : List α} (hk : 0 < k) (hn : l.length ≤ n) (hm : l.length ≤ m) :
    chunkGo k n l = chunkGo k m l := by
  induction n generalizing m l with
  | zero =>
    obtain rfl := List.length_eq_zero_iff.mp (Nat.le_zero.mp hn)
    cases m <;> rfl
  | succ n ih =>
    cases m with
    | zero =>
      obtain rfl := List.length_eq_zero_iff.mp (Nat.le_zero.mp hm)
      rfl
    | succ m => rw [chunkGo, chunkGo, ih (m := m) (by simp; omega) (by simp; omega)]

@[simp] theorem chunk_nil {α : Type} (k : Nat) : chunk k ([] : List α) = [] := rfl

theorem chunk_append {α : Type} {k : Nat} {b : List α} (l : List α) (hk : 0 < k) (hb : b.length = k) :
    chunk k (b ++ l) = b :: chunk k l := by
  obtain ⟨n, rfl⟩ : ∃ n, k = n + 1 := ⟨k - 1, by omega⟩
  have hlen : (b ++ l).length = n + l.length + 1 := by simp; omega
  have hne : (b ++ l).isEmpty = false :=
    List.isEmpty_eq_false_iff.mpr (List.length_pos_iff.mp (hlen ▸ Nat.succ_pos _))
  rw [chunk, hlen, chunkGo, hne, if_neg Bool.false_ne_true, List.take_left' hb, List.drop_left' hb,
    chunkGo_fuel (m := l.length) hk (by omega) le_rfl, chunk]

/-- What holds of the empty list and is kept by a group of `g` in front holds of every list of whole groups. -/
theorem groups_induction {α : Type} {g : Nat} {P : List α → Prop} (nil : P [])
    (cons : ∀ c l, c.length = g → l.length % g = 0 → P l → P (c ++ l)) :
    ∀ l : List α, l.length % g = 0 → P l := by
  intro l hl
  obtain ⟨q, hq⟩ := Nat.dvd_of_mod_eq_zero hl
  induction q generalizing l with
  | zero =>
    obtain rfl := List.length_eq_zero_iff.mp hq
    exact nil
  | succ q ih =>
    have hrest : (l.drop g).length = g * q := by rw [List.length_drop, hq, Nat.mul_succ, Nat.add_sub_cancel]
    have hmod : (l.drop g).length % g = 0 := by rw [hrest, Nat.mul_mod_right]
    have hfirst : (l.take g).length = g := by rw [List.length_take, hq, Nat.mul_succ]; omega
    rw [← List.take_append_drop g l]
    exact cons _ _ hfirst hmod (ih _ hmod hrest)

/-! ### One group -/

/-- A group's bytes as a number: its elements are digits in base `2 ^ w`. -/
theorem foldl_zipIdx_eq_ofDigits {w : Nat} {c : List Nat} (k a : Nat) (hc : ∀ x ∈ c, x < 2 ^ w) :
    (c.zipIdx k).foldl (fun a x => a + x.1 % 2 ^ w * 2 ^ (w * x.2)) a = a + 2 ^ (w * k) * Nat.ofDigits (2 ^ w) c := by
  induction c generalizing k a with
  | nil => simp
  | cons x c ih =>
    have hx : x % 2 ^ w = x := Nat.mod_eq_of_lt (hc x (by simp))
    rw [List.zipIdx_cons, List.foldl_cons, ih _ _ fun y hy => hc y (List.mem_cons_of_mem _ hy), hx, Nat.ofDigits_cons]
    push_cast
    ring

/-- The digits of a number written in base `B` are read back by division and remainder. -/
theorem map_range_digits {B : Nat} {c : List Nat} (hB : 0 < B) (hc : ∀ x ∈ c, x < B) :
    (List.range c.length).map (fun i => Nat.ofDigits B c / B ^ i % B) = c := by
  refine List.ext_getElem (by simp) fun i _ hi => ?_
  rw [List.getElem_map, List.getElem_range, Nat.ofDigits_div_pow_eq_ofDigits_drop i hB c hc,
    List.drop_eq_getElem_cons hi, Nat.ofDigits_cons, Nat.add_mul_mod_self_left,
    Nat.mod_eq_of_lt (hc _ (List.getElem_mem hi))]

/-- The width of a format fills whole bytes with one packing group. -/
structure GroupFits (w : Nat) : Prop where
  width : 0 < w
  group : 0 < groupLen w
  bytes : 8 * (groupLen w * w / 8) = groupLen w * w

theorem groupFits_of_mem {w : Nat} (h : w ∈ [4, 6, 8, 16, 32]) : GroupFits w := by
  simp only [List.mem_cons, List.not_mem_nil, or_false] at h
  rcases h with rfl | rfl | rfl | rfl | rfl <;> constructor <;> decide

theorem GroupFits.bytes_pos {w : Nat} (h : GroupFits w) : 0 < groupLen w * w / 8 := by
  have hpos := Nat.mul_pos h.group h.width
  have hbytes := h.bytes
  omega

theorem ofBytes_le_ofDigits {w : Nat} {c : List Nat} (h : GroupFits w) (hlen : c.length = groupLen w)
    (hc : ∀ x ∈ c, x < 2 ^ w) : ofBytes (le (groupLen w * w / 8) (Nat.ofDigits (2 ^ w) c)) = Nat.ofDigits (2 ^ w) c := by
  have hlt : Nat.ofDigits (2 ^ w) c < (2 ^ w) ^ c.length :=
    Nat.ofDigits_lt_base_pow_length (Nat.one_lt_two_pow h.width.ne') hc
  rw [ofBytes_le, h.bytes, ← hlen, Nat.mul_comm c.length, Nat.pow_mul, Nat.mod_eq_of_lt hlt]

/-! ### Rows of groups -/

section
variable {w : Nat} {c : List Nat} (cs : List Nat) (h : GroupFits w) (hlen : c.length = groupLen w)
include h hlen

theorem packCodes_append (hc : ∀ x ∈ c, x < 2 ^ w) :
    packCodes w (c ++ cs) = le (groupLen w * w / 8) (Nat.ofDigits (2 ^ w) c) ++ packCodes w cs := by
  simp only [packCodes, chunk_append cs h.group hlen, List.flatMap_cons, foldl_zipIdx_eq_ofDigits 0 0 hc]
  simp

theorem rowBytes_add (n : Nat) : rowBytes w (c.length + n) = groupLen w * w / 8 + rowBytes w n := by
  have hceil : ceilDiv (groupLen w + n) (groupLen w) = ceilDiv n (groupLen w) + 1 := by
    have hsub : groupLen w + n + groupLen w - 1 = n + groupLen w - 1 + groupLen w := by have := h.group; omega
    rw [ceilDiv, hsub, Nat.add_div_right _ h.group, ceilDiv]
  rw [rowBytes, hlen, hceil, Nat.succ_mul, Nat.add_comm, rowBytes]

theorem codesOf_append (n : Nat) (hc : ∀ x ∈ c, x < 2 ^ w) (bs : List Byte) :
    codesOf w (c.length + n) (le (groupLen w * w / 8) (Nat.ofDigits (2 ^ w) c) ++ bs) = c ++ codesOf w n bs := by
  have hgroup := map_range_digits (Nat.two_pow_pos w) hc
  simp only [codesOf, chunk_append bs h.bytes_pos (length_le_bytes _ _), List.flatMap_cons, ofBytes_le_ofDigits h hlen hc,
    Nat.pow_mul]
  rw [← hlen, hgroup, List.take_length_add_append]

end

theorem rowBytes_zero {w : Nat} (h : GroupFits w) : rowBytes w 0 = 0 := by
  have hceil : ceilDiv 0 (groupLen w) = 0 := Nat.div_eq_of_lt (by have := h.group; omega)
  rw [rowBytes, hceil, Nat.zero_mul]

/-! ### O48 -/

/-- Settles O48, by induction over the packing groups of the row. -/
theorem packingRoundTrips : Obligations.PackingRoundTrips := by
  unfold Obligations.PackingRoundTrips
  intro w cs hw hg
  have h := groupFits_of_mem hw
  refine groups_induction (P := fun l => (∀ x ∈ l, x < 2 ^ w) →
    codesOf w l.length (packCodes w l) = l ∧ (packCodes w l).length = rowBytes w l.length) ?nil ?cons cs hg
  case nil => exact fun _ => ⟨rfl, (rowBytes_zero h).symm⟩
  case cons =>
    intro c l hlen _ ih hc
    obtain ⟨hfirst, hrest⟩ := List.forall_mem_append.mp hc
    obtain ⟨hcodes, hbytes⟩ := ih hrest
    rw [packCodes_append l h hlen hfirst, List.length_append, List.length_append, length_le_bytes]
    exact ⟨by rw [codesOf_append h hlen l.length hfirst, hcodes], by rw [hbytes, rowBytes_add h hlen]⟩

end Sys2Proof.Machine
end

section
/-!
# Element codes (R160 to R179)

What a code decodes to, said by its sign, exponent and mantissa fields, and that rounding and encoding lead back to the
code: the values that a format holds are fixed by its rounding. Settles O45, O46 and O47.
-/
namespace Sys2Proof.Machine

/-! ### Rows under block scales (R171) -/

theorem decodeScaled_nan (fmt c : Nat) : decodeScaled fmt c 0xFF = .nan := rfl

theorem decodeRow_getElem? {fmt blk i : Nat} {scaled : Bool} {scs cs : List Nat} (hi : i < cs.length) :
    (decodeRow fmt scaled blk scs cs)[i]? = some (decodeAt fmt scaled blk scs i cs[i]) := by
  simp [decodeRow, hi]

/-- Settles O45: each element is decoded under the scale code of its own block. -/
theorem nanScaleReadsNan : Obligations.NanScaleReadsNan := by
  unfold Obligations.NanScaleReadsNan
  intro fmt blk i scs cs hi hscale
  rw [decodeRow_getElem? hi, decodeAt, if_pos rfl, hscale, decodeScaled_nan]

/-! ### The fields of a code -/

/-- The sign, exponent and mantissa fields of a floating-point code. -/
def codeNeg (f : FloatFmt) (c : Nat) : Bool := c / 2 ^ (f.ebits + f.mbits) % 2 == 1
def codeExp (f : FloatFmt) (c : Nat) : Nat := c / 2 ^ f.mbits % 2 ^ f.ebits
def codeMant (f : FloatFmt) (c : Nat) : Nat := c % 2 ^ f.mbits

section
variable (f : FloatFmt) (c : Nat)

theorem codeExp_lt : codeExp f c < 2 ^ f.ebits := Nat.mod_lt _ (Nat.two_pow_pos _)

theorem codeMant_lt : codeMant f c < 2 ^ f.mbits := Nat.mod_lt _ (Nat.two_pow_pos _)

variable {f c} (hc : c < 2 ^ (1 + f.ebits + f.mbits))
include hc

/-- Above the other fields stands the sign alone. -/
theorem code_div_eq_zero_or_one : c / 2 ^ (f.ebits + f.mbits) = 0 ∨ c / 2 ^ (f.ebits + f.mbits) = 1 := by
  rw [Nat.add_assoc, Nat.pow_add, Nat.mul_comm] at hc
  exact Nat.le_one_iff_eq_zero_or_eq_one.mp (Nat.le_of_lt_succ (Nat.div_lt_of_lt_mul hc))

theorem codeNeg_eq_decide : codeNeg f c = decide (2 ^ (f.ebits + f.mbits) ≤ c) := by
  have hone : 2 ^ (f.ebits + f.mbits) ≤ c ↔ 1 ≤ c / 2 ^ (f.ebits + f.mbits) := by
    rw [Nat.le_div_iff_mul_le (Nat.two_pow_pos _), Nat.one_mul]
  simp only [codeNeg, hone]
  rcases code_div_eq_zero_or_one hc with h | h <;> simp [h]

theorem signBit_codeNeg : signBit f (codeNeg f c) = 2 ^ (f.ebits + f.mbits) * (c / 2 ^ (f.ebits + f.mbits)) := by
  rw [signBit, codeNeg]
  rcases code_div_eq_zero_or_one hc with h | h <;> simp [h]

/-- A code is put together from its fields. -/
theorem code_of_fields : signBit f (codeNeg f c) + codeExp f c * 2 ^ f.mbits + codeMant f c = c := by
  have hlow : codeExp f c * 2 ^ f.mbits + codeMant f c = c % 2 ^ (f.ebits + f.mbits) := by
    rw [codeExp, codeMant, Nat.add_comm f.ebits, Nat.pow_add, Nat.mod_mul, Nat.mul_comm, Nat.add_comm]
  rw [Nat.add_assoc, hlow, signBit_codeNeg hc, Nat.div_add_mod]

end

/-! ### Decoding -/

/-- The position of a format's finest step: that of its zero-exponent codes. -/
def finestExp (f : FloatFmt) : Int := 1 - (f.bias : Int) - f.mbits

/-- What a code of a format decodes to, by its fields. -/
inductive DecodesTo (f : FloatFmt) (c : Nat) : FVal → Prop where
  | nan (hexp : codeExp f c = 2 ^ f.ebits - 1) : DecodesTo f c .nan
  | inf (htop : f.top = .ieee) (hexp : codeExp f c = 2 ^ f.ebits - 1) (hmant : codeMant f c = 0) :
      DecodesTo f c (.inf (codeNeg f c))
  | flushed (hexp : codeExp f c = 0) (hflush : f.flushes = true) : DecodesTo f c (fzero (codeNeg f c))
  | grid (hexp : codeExp f c = 0) (hflush : f.flushes = false) :
      DecodesTo f c (.fin (codeNeg f c) (codeMant f c) (finestExp f))
  | normal (hexp : codeExp f c ≠ 0) (hieee : f.top = .ieee → codeExp f c ≠ 2 ^ f.ebits - 1)
      (he4m3 : f.top = .e4m3 → codeExp f c = 2 ^ f.ebits - 1 → codeMant f c ≠ 2 ^ f.mbits - 1) :
      DecodesTo f c (.fin (codeNeg f c) (2 ^ f.mbits + codeMant f c) ((codeExp f c : Int) - f.bias - f.mbits))

theorem decodesTo_decodeFloat (f : FloatFmt) (c : Nat) : DecodesTo f c (decodeFloat f c) := by
  simp only [decodeFloat, Bool.and_eq_true, beq_iff_eq]
  split
  next h =>
    obtain ⟨hexp, htop⟩ := h
    split
    next hmant => exact .inf htop hexp hmant
    next => exact .nan hexp
  next hieee =>
    split
    next h =>
      obtain ⟨⟨hexp, -⟩, -⟩ := h
      exact .nan hexp
    next he4m3 =>
      split
      next hexp =>
        split
        next hflush => exact .flushed hexp hflush
        next hflush => exact .grid hexp (Bool.eq_false_iff.mpr hflush)
      next hexp =>
        exact .normal hexp (fun htop hlast => hieee ⟨hlast, htop⟩)
          fun htop hlast hmant => he4m3 ⟨⟨hlast, htop⟩, hmant⟩

/-! ### Formats -/

/-- What the conversions need of a format: its fields have room, and its codes take the bits that R163 packs. -/
structure FmtFits (fmt : Nat) (f : FloatFmt) : Prop where
  format : floatFmt fmt = some f
  ebits : 2 ≤ f.ebits
  mbits : 0 < f.mbits
  bits : fmtBits fmt = 1 + f.ebits + f.mbits

theorem exists_fmtFits {fmt : Nat} (h : fmt < 8) : ∃ f, FmtFits fmt f := by
  interval_cases fmt <;> exact ⟨_, rfl, by decide, by decide, rfl⟩

section
variable {fmt : Nat} {f : FloatFmt} (h : floatFmt fmt = some f)
include h

theorem decodeElem_float (c : Nat) : decodeElem fmt c = decodeFloat f c := by rw [decodeElem, h]

theorem convElem_float (o : ConvOpt) (rd : Rounding) (v : FVal) : convElem fmt o rd v = convFloat fmt f o rd v := by
  rw [convElem, h]

end

/-! ### Zero exponents (R164) -/

theorem DecodesTo.eq_fzero {f : FloatFmt} {c : Nat} {v : FVal} (hv : DecodesTo f c v) (hbits : 0 < f.ebits)
    (hflush : f.flushes = true) (hexp : codeExp f c = 0) : v = fzero (codeNeg f c) := by
  have htop := Nat.one_lt_two_pow hbits.ne'
  cases hv with
  | nan htop' => omega
  | inf _ htop' _ => omega
  | flushed => rfl
  | grid _ hgrid => simp [hflush] at hgrid
  | normal hnormal => exact absurd hexp hnormal

theorem decodeFloat_expZero {f : FloatFmt} {c : Nat} (hbits : 0 < f.ebits) (hflush : f.flushes = true)
    (hc : c < 2 ^ (1 + f.ebits + f.mbits)) (hexp : c / 2 ^ f.mbits % 2 ^ f.ebits = 0) :
    decodeFloat f c = fzero (decide (2 ^ (f.ebits + f.mbits) ≤ c)) := by
  rw [(decodesTo_decodeFloat f c).eq_fzero hbits hflush hexp, codeNeg_eq_decide hc]

theorem exists_flushing_of_mem {fmt e m : Nat}
    (h : (fmt, e, m) ∈ [(0, 8, 23), (1, 8, 7), (2, 5, 10), (3, 4, 3), (4, 5, 2)]) :
    ∃ bias top, floatFmt fmt = some ⟨e, m, bias, true, top⟩ ∧ 0 < e := by
  simp only [List.mem_cons, Prod.mk.injEq, List.not_mem_nil, or_false] at h
  rcases h with ⟨rfl, rfl, rfl⟩ | ⟨rfl, rfl, rfl⟩ | ⟨rfl, rfl, rfl⟩ | ⟨rfl, rfl, rfl⟩ | ⟨rfl, rfl, rfl⟩ <;>
    exact ⟨_, _, rfl, by decide⟩

/-- Settles O46: of what a code can decode to, a zero exponent leaves the flushed zero alone. -/
theorem zeroExponentsReadZero : Obligations.ZeroExponentsReadZero := by
  unfold Obligations.ZeroExponentsReadZero
  refine ⟨fun fmt e m c hmem hc hexp => ?_, fun c hc hexp => ?_⟩
  · obtain ⟨bias, top, hfmt, hbits⟩ := exists_flushing_of_mem hmem
    rw [decodeElem_float hfmt]
    exact decodeFloat_expZero (f := ⟨e, m, bias, true, top⟩) hbits rfl hc hexp
  · exact decodeFloat_expZero (f := fp32) (by decide) rfl hc hexp

/-! ### Magnitudes -/

theorem bitLen_le {n k : Nat} (h : n < 2 ^ k) : bitLen n ≤ k := by
  rw [bitLen]
  split
  · exact Nat.zero_le k
  next hn => exact (Nat.log2_lt hn).mpr h

theorem bitLen_eq {n k : Nat} (hlo : 2 ^ k ≤ n) (hhi : n < 2 ^ (k + 1)) : bitLen n = k + 1 := by
  have hn : n ≠ 0 := (Nat.two_pow_pos k |>.trans_le hlo).ne'
  rw [bitLen, if_neg hn, (Nat.log2_eq_iff hn).mpr ⟨hlo, hhi⟩]

@[simp] theorem alignTo_self (rd : Rounding) (m : Nat) (e : Int) : alignTo rd m e e = m := by
  simp [alignTo]

theorem roundSig_none_of_cut {rd : Rounding} {p m : Nat} {e : Int} (hcut : e + bitLen m - p = e) :
    roundSig rd p none m e = (m, e) := by
  simp only [roundSig, hcut, alignTo_self]

theorem roundSig_some_of_cut {rd : Rounding} {p m : Nat} {e g : Int} (hcut : max (e + bitLen m - p) g = e) :
    roundSig rd p (some g) m e = (m, e) := by
  simp only [roundSig, hcut, alignTo_self]

/-- Once the larger exponent is brought down to the smaller, magnitudes compare as their integers. -/
theorem magLt_eq_false_of_exp_le {m n : Nat} {e g : Int} (he : g ≤ e) (h : n ≤ m * 2 ^ (e - g).toNat) :
    magLt m e n g = false := by
  rw [magLt]
  split
  next hle =>
    obtain rfl : e = g := le_antisymm hle he
    simpa using h
  next => simpa using h

theorem magLt_one_eq_false {m k : Nat} {e g : Int} (hm : 2 ^ k ≤ m) (he : g ≤ e + k) : magLt m e 1 g = false := by
  rw [magLt]
  split
  next hle =>
    have hpow : 2 ^ (g - e).toNat ≤ 2 ^ k := Nat.pow_le_pow_right Nat.two_pos (by omega)
    simpa using hpow.trans hm
  next => simpa using (Nat.two_pow_pos k).trans_le hm |>.ne'

/-! ### The values that a format holds -/

/-- The format holds m·2^e, and this is how it spells it: a normal significand, or a step of the grid. -/
structure Holds (f : FloatFmt) (m : Nat) (e : Int) : Prop where
  ne_zero : m ≠ 0
  spelling : (2 ^ f.mbits ≤ m ∧ m < 2 ^ (f.mbits + 1) ∧ finestExp f ≤ e)
    ∨ (f.flushes = false ∧ m < 2 ^ f.mbits ∧ e = finestExp f)
  not_above : magLt (maxFinite f).1 (maxFinite f).2 m e = false

/-- A value that the format holds already stands at the position where its rounding would cut it. -/
theorem Holds.roundSig_eq {f : FloatFmt} {m : Nat} {e : Int} (h : Holds f m e) (rd : Rounding) :
    roundSig rd (f.mbits + 1) (if f.flushes then none else some (finestExp f)) m e = (m, e) := by
  rcases h.spelling with ⟨hlo, hhi, he⟩ | ⟨hflush, hm, rfl⟩
  · have hcut : e + (bitLen m : Int) - (f.mbits + 1 : Nat) = e := by rw [bitLen_eq hlo hhi]; omega
    split
    · exact roundSig_none_of_cut hcut
    · exact roundSig_some_of_cut (by rw [hcut, max_eq_left he])
  · have hbits := bitLen_le hm
    rw [hflush, if_neg Bool.false_ne_true]
    exact roundSig_some_of_cut (max_eq_right (by omega))

theorem Holds.not_flushed {f : FloatFmt} {m : Nat} {e : Int} (h : Holds f m e) :
    (f.flushes && magLt m e 1 (1 - (f.bias : Int))) = false := by
  rcases h.spelling with ⟨hlo, -, he⟩ | ⟨hflush, -, -⟩
  · rw [magLt_one_eq_false hlo (by rw [finestExp] at he; omega), Bool.and_false]
  · rw [hflush, Bool.false_and]

/-- Rounding to a format leaves the values that it holds. -/
theorem Holds.roundFmt_eq {f : FloatFmt} {m : Nat} {e : Int} (h : Holds f m e) (rd : Rounding) (neg : Bool) :
    roundFmt f rd neg m e = ⟨.fin neg m e, false, false⟩ := by
  have hround := h.roundSig_eq rd
  rw [finestExp] at hround
  simp [roundFmt, hround, h.ne_zero, h.not_above, h.not_flushed]

theorem Holds.convFloat_eq {f : FloatFmt} {m : Nat} {e : Int} (h : Holds f m e) (fmt : Nat) (o : ConvOpt) (rd : Rounding)
    (neg : Bool) : (convFloat fmt f o rd (.fin neg m e)).1 = encodeFloat f neg m e := by
  simp [convFloat, h.roundFmt_eq]

/-! ### Encoding -/

theorem encodeFloat_normal {f : FloatFmt} {neg : Bool} {ex mant : Nat} (hex : ex ≠ 0) (hmant : mant < 2 ^ f.mbits) :
    encodeFloat f neg (2 ^ f.mbits + mant) ((ex : Int) - f.bias - f.mbits) = signBit f neg + ex * 2 ^ f.mbits + mant := by
  have hne : 2 ^ f.mbits + mant ≠ 0 := (Nat.add_pos_left (Nat.two_pow_pos _) _).ne'
  have hlen : bitLen (2 ^ f.mbits + mant) = f.mbits + 1 := bitLen_eq (Nat.le_add_right _ _) (by rw [Nat.pow_succ]; omega)
  have hk : (ex : Int) - f.bias - f.mbits + (f.mbits + 1 : Nat) - 1 = ex - f.bias := by omega
  have hmin : ¬ ((ex : Int) - f.bias < 1 - f.bias) := by omega
  simp only [encodeFloat, if_neg hne, hlen, hk, if_neg hmin, alignTo_self, Nat.add_sub_cancel_left]
  rw [Int.sub_add_cancel, Int.toNat_natCast]

theorem encodeFloat_grid {f : FloatFmt} {neg : Bool} {mant : Nat} (hne : mant ≠ 0) (hmant : mant < 2 ^ f.mbits) :
    encodeFloat f neg mant (finestExp f) = signBit f neg + mant := by
  have hlen := bitLen_le hmant
  have hk : finestExp f + (bitLen mant : Int) - 1 < 1 - f.bias := by rw [finestExp]; omega
  simp only [encodeFloat, if_neg hne, if_pos hk]
  rw [← finestExp, alignTo_self]

/-! ### The values of codes -/

theorem le_mul_two_pow {m n d : Nat} (h : m ≤ n) : m ≤ n * 2 ^ d :=
  h.trans (Nat.le_mul_of_pos_right _ (Nat.two_pow_pos d))

section
variable {fmt c : Nat} {f : FloatFmt} (h : FmtFits fmt f)
include h

theorem holds_grid (hflush : f.flushes = false) (hne : codeMant f c ≠ 0) : Holds f (codeMant f c) (finestExp f) where
  ne_zero := hne
  spelling := .inr ⟨hflush, codeMant_lt f c, rfl⟩
  not_above := by
    have hebits : 2 ^ 2 ≤ 2 ^ f.ebits := Nat.pow_le_pow_right Nat.two_pos h.ebits
    have hmant := codeMant_lt f c
    have hexp : finestExp f ≤ (maxFinite f).2 := by
      cases htop : f.top <;> simp only [maxFinite, htop, finestExp] <;> omega
    have hle : codeMant f c ≤ (maxFinite f).1 := by
      cases htop : f.top <;> simp only [maxFinite, htop, Nat.pow_succ] <;> omega
    exact magLt_eq_false_of_exp_le hexp (le_mul_two_pow hle)

theorem holds_normal (hexp : codeExp f c ≠ 0) (hieee : f.top = .ieee → codeExp f c ≠ 2 ^ f.ebits - 1)
    (he4m3 : f.top = .e4m3 → codeExp f c = 2 ^ f.ebits - 1 → codeMant f c ≠ 2 ^ f.mbits - 1) :
    Holds f (2 ^ f.mbits + codeMant f c) ((codeExp f c : Int) - f.bias - f.mbits) where
  ne_zero := (Nat.add_pos_left (Nat.two_pow_pos _) _).ne'
  spelling := .inl ⟨Nat.le_add_right _ _, by have := codeMant_lt f c; rw [Nat.pow_succ]; omega, by rw [finestExp]; omega⟩
  not_above := by
    have hmbits := Nat.one_lt_two_pow h.mbits.ne'
    have hmant := codeMant_lt f c
    have hlt := codeExp_lt f c
    refine magLt_eq_false_of_exp_le ?exp ?sig
    case exp => cases htop : f.top <;> simp only [maxFinite, htop, forall_const] at hieee ⊢ <;> omega
    case sig =>
      cases htop : f.top
      case ieee => exact le_mul_two_pow (by simp only [maxFinite, htop, Nat.pow_succ]; omega)
      case allFinite => exact le_mul_two_pow (by simp only [maxFinite, htop, Nat.pow_succ]; omega)
      case e4m3 =>
        by_cases hlast : codeExp f c = 2 ^ f.ebits - 1
        · have hnot_nan := he4m3 htop hlast
          exact le_mul_two_pow (by simp only [maxFinite, htop, Nat.pow_succ]; omega)
        · have hstep : 1 ≤ ((maxFinite f).2 - ((codeExp f c : Int) - f.bias - f.mbits)).toNat := by
            simp only [maxFinite, htop]
            omega
          have hpow := Nat.one_lt_two_pow (Nat.one_le_iff_ne_zero.mp hstep)
          have hdouble : 2 ^ f.mbits + codeMant f c ≤ (maxFinite f).1 * 2 := by
            simp only [maxFinite, htop, Nat.pow_succ]
            omega
          exact hdouble.trans (Nat.mul_le_mul_left _ hpow)

theorem DecodesTo.conv_eq {v : FVal} (hv : DecodesTo f c v) (hc : c < 2 ^ fmtBits fmt) (hzero : isZero v = false)
    (hnan : isNan v = false) : (convElem fmt {} .nearest v).1 = c := by
  rw [h.bits] at hc
  have hcode := code_of_fields hc
  rw [convElem_float h.format]
  cases hv with
  | nan => simp [isNan] at hnan
  | inf htop hexp hmant =>
    rw [hexp, hmant, Nat.add_zero] at hcode
    simpa [convFloat, htop, infCode] using hcode
  | flushed => simp [isZero, fzero] at hzero
  | grid hexp hflush =>
    have hne : codeMant f c ≠ 0 := by simpa [isZero] using hzero
    rw [(holds_grid h hflush hne).convFloat_eq, encodeFloat_grid hne (codeMant_lt f c)]
    simpa [hexp] using hcode
  | normal hexp hieee he4m3 =>
    rw [(holds_normal h hexp hieee he4m3).convFloat_eq, encodeFloat_normal hexp (codeMant_lt f c), hcode]

end

/-! ### Integers (R179) -/

theorem toIntRNE_self (v : Int) : toIntRNE (decide (v < 0)) v.natAbs 0 = v := by
  simp only [toIntRNE, alignTo_self, decide_eq_true_eq]
  split <;> omega

theorem convInt_of_fits {n : Nat} {v : Int} (hlo : -(2 ^ (n - 1) : Nat) ≤ v) (hhi : v ≤ (2 ^ (n - 1) : Nat) - 1) :
    (convInt n (fvalOfInt v)).1 = codeOfInt n v := by
  have hsat : satInt n v = (v, false) := by rw [satInt, if_neg (by omega), if_neg (by omega)]
  simp only [convInt, fvalOfInt, toIntRNE_self, hsat]

section
variable {n c : Nat} (hc : c < 2 ^ n)
include hc

theorem codeOfInt_signedOf : codeOfInt n (signedOf n c) = c := by
  have hcode : (c : Int) % (2 ^ n : Nat) = c := Int.emod_eq_of_lt (by omega) (by omega)
  rw [codeOfInt, signedOf, Nat.mod_eq_of_lt hc]
  split
  · rw [hcode, Int.toNat_natCast]
  · rw [Int.sub_emod_right, hcode, Int.toNat_natCast]

theorem convInt_signedOf (hn : 0 < n) : (convInt n (fvalOfInt (signedOf n c))).1 = c := by
  have hhalf : 2 ^ n = 2 ^ (n - 1) * 2 := by rw [← Nat.pow_succ, Nat.succ_eq_add_one, Nat.sub_add_cancel hn]
  obtain ⟨hlo, hhi⟩ : -(2 ^ (n - 1) : Nat) ≤ signedOf n c ∧ signedOf n c ≤ (2 ^ (n - 1) : Nat) - 1 := by
    rw [signedOf, Nat.mod_eq_of_lt hc]
    split <;> omega
  rw [convInt_of_fits hlo hhi, codeOfInt_signedOf hc]

end

/-! ### O47 -/

/-- Settles O47: a floating-point format holds the values of its codes, an integer format those of its integers. -/
theorem conversionKeepsExactValues : Obligations.ConversionKeepsExactValues := by
  unfold Obligations.ConversionKeepsExactValues
  intro fmt c hfmt hc hzero hnan
  by_cases hfloat : fmt < 8
  · obtain ⟨f, h⟩ := exists_fmtFits hfloat
    rw [decodeElem_float h.format] at hzero hnan ⊢
    exact (decodesTo_decodeFloat f c).conv_eq h hc hzero hnan
  · obtain rfl | rfl : fmt = 8 ∨ fmt = 9 := by omega
    · exact convInt_signedOf (n := 8) hc (by decide)
    · exact convInt_signedOf (n := 4) hc (by decide)

end Sys2Proof.Machine
end

section
/-!
# Integer products (R174, R203)

An integer element of CUMIN: what a product of two integers holds, what a run of products adds up to, and where the
one saturation cuts the total.
-/
namespace Sys2Proof.Machine

/-! ### Products (R174) -/

/-- R174: a product of two integers is exact, since its magnitude is the product of the magnitudes, its exponent stays
0 and it is negative where the signs differ. -/
theorem intOf_mulExact_fvalOfInt (a b : Int) : intOf (mulExact (fvalOfInt a) (fvalOfInt b)) = a * b := by
  simp only [fvalOfInt, mulExact, intOf, toIntRNE, Int.add_zero, alignTo_self, Int.natCast_mul, Int.natCast_natAbs]
  rcases lt_or_ge a 0 with ha | ha <;> rcases lt_or_ge b 0 with hb | hb
  · simp [ha, hb, abs_of_neg]
  · simp [ha, hb.not_gt, abs_of_neg, abs_of_nonneg hb]
  · simp [ha.not_gt, hb, abs_of_neg, abs_of_nonneg ha]
  · simp [ha.not_gt, hb.not_gt, abs_of_nonneg ha, abs_of_nonneg hb]

/-! ### Saturation (R174) -/

section
variable (n : Nat) (v : Int)

theorem satInt_fst :
    (satInt n v).1 = max (-((2 ^ (n - 1) : Nat) : Int)) (min (((2 ^ (n - 1) : Nat) : Int) - 1) v) := by
  have hpos := Nat.two_pow_pos (n - 1)
  simp only [satInt, apply_ite Prod.fst]
  split
  · omega
  · split <;> omega

theorem satInt_snd :
    (satInt n v).2 = decide (v < -((2 ^ (n - 1) : Nat) : Int) ∨ ((2 ^ (n - 1) : Nat) : Int) - 1 < v) := by
  simp only [satInt, apply_ite Prod.snd]
  split
  next hhi => exact (decide_eq_true (.inr hhi)).symm
  next hhi =>
    split
    next hlo => exact (decide_eq_true (.inl hlo)).symm
    next hlo => exact (decide_eq_false (not_or.mpr ⟨hlo, hhi⟩)).symm

end

/-! ### The sum of a row of products (R203) -/

theorem foldl_add_intOf (prods : List FVal) (i : Int) :
    prods.foldl (fun a p => a + intOf p) i = i + (prods.map intOf).sum := by
  induction prods generalizing i with
  | nil => exact (Int.add_zero i).symm
  | cons p ps ih => rw [List.foldl_cons, ih, List.map_cons, List.sum_cons, Int.add_assoc]

theorem cmInteger_eq (prods : List FVal) (c : Option Int) :
    cmInteger prods c = ⟨fvalOfInt (satInt 32 (c.getD 0 + (prods.map intOf).sum)).1, false, true,
      (satInt 32 (c.getD 0 + (prods.map intOf).sum)).2⟩ := by
  rw [cmInteger, foldl_add_intOf]

theorem map_intOf_products (xs : List (Int × Int)) :
    (xs.map (fun p => mulExact (fvalOfInt p.1) (fvalOfInt p.2))).map intOf = xs.map (fun p => p.1 * p.2) := by
  rw [List.map_map]
  exact List.map_congr_left fun p _ => intOf_mulExact_fvalOfInt p.1 p.2

/-- Settles O49: the total is a sum of integers, which no order of the products changes, and it is cut once. -/
theorem integerProductsSaturateOnce : Obligations.IntegerProductsSaturateOnce := by
  unfold Obligations.IntegerProductsSaturateOnce
  refine ⟨fun xs c => ?_, fun xs ys c hperm => ?_⟩
  · rw [cmInteger_eq, map_intOf_products]
    exact ⟨congrArg fvalOfInt (satInt_fst 32 _), satInt_snd 32 _⟩
  · rw [cmInteger_eq, cmInteger_eq, (hperm.map intOf).sum_eq]

end Sys2Proof.Machine
end

section
/-!
# Placement (R350 to R353)

Where a device physical address lies in a tile-local region and under the default table. A codeword's number packs
tile, channel and channel address side by side, so each can be read back while it stays in its field; an entry that R352
accepts keeps it there. O42 speaks also of entries that R352 refuses, and fails. Settles O42 and O43.
-/
namespace Sys2Proof.Machine

/-! ### A codeword's number -/

section
variable {tile chan addr : Nat} (ha : addr < 2 ^ 30)
include ha

theorem cwAddr_cwMake : cwAddr (cwMake tile chan addr) = addr / 64 * 64 := by
  unfold cwAddr cwMake
  omega

variable (hc : chan < 64)
include hc

theorem cwTile_cwMake : cwTile (cwMake tile chan addr) = tile := by
  unfold cwTile cwMake
  omega

theorem cwChan_cwMake : cwChan (cwMake tile chan addr) = chan := by
  unfold cwChan cwMake
  omega

end

/-! ### Tile-local regions (R353) -/

/-- What R353 adds by exclusive or to an address's bits 13 to 8, from its bits 14 up. -/
def chanMix (h : Nat) : Nat := h % 64 ^^^ h / 2 ^ 6 % 64 ^^^ h / 2 ^ 12 % 64 ^^^ h / 2 ^ 18 % 64

/-- R353's channel of an address. -/
def localChan (dpa : Nat) : Nat :=
  dpa / 2 ^ 8 % 64 ^^^ dpa / 2 ^ 14 % 64 ^^^ dpa / 2 ^ 20 % 64 ^^^ dpa / 2 ^ 26 % 64 ^^^ dpa / 2 ^ 32 % 64

/-- R353's channel address of an address, in a region from this slice. -/
def localAddr (slice dpa : Nat) : Nat := (slice * 8192 + dpa / 2 ^ 14 % 2 ^ 16) * 256 + dpa % 256

theorem localChan_eq_xor (dpa : Nat) : localChan dpa = dpa / 2 ^ 8 % 64 ^^^ chanMix (dpa / 2 ^ 14) := by
  simp only [localChan, chanMix, Nat.div_div_eq_div_mul, ← Nat.pow_add, Nat.xor_assoc]

theorem localChan_lt (dpa : Nat) : localChan dpa < 64 := by
  have hmod (n : Nat) : n % 64 < 2 ^ 6 := Nat.mod_lt _ (by omega)
  iterate 4 refine Nat.xor_lt_two_pow (n := 6) ?_ (hmod _)
  exact hmod _

theorem localAddr_lt {slice : Nat} (h : slice ≤ 504) (dpa : Nat) : localAddr slice dpa < 2 ^ 30 := by
  unfold localAddr
  omega

/-- From the default slice of its region, an address's channel address is made of its own bits. -/
theorem localAddr_of_default (dpa : Nat) :
    localAddr (dpa / 2 ^ 30 % 64 * 8) dpa = dpa / 2 ^ 14 % 2 ^ 22 * 256 + dpa % 256 := by
  rw [localAddr, show dpa / 2 ^ 30 = dpa / 2 ^ 14 / 2 ^ 16 by rw [Nat.div_div_eq_div_mul, ← Nat.pow_add]]
  generalize dpa / 2 ^ 14 = h
  omega

section
variable {s : State} {dpa : Nat} (hd : dpa < 2 ^ 39)
include hd

theorem cwOf_of_not_wide (hw : (regionOf s (dpa / 2 ^ 30)).wide = false) :
    cwOf s dpa = cwMake (regionOf s (dpa / 2 ^ 30)).tile (localChan dpa)
      (localAddr (regionOf s (dpa / 2 ^ 30)).slice dpa) := by
  have hregion : dpa / 2 ^ 30 % 512 = dpa / 2 ^ 30 := Nat.mod_eq_of_lt (by omega)
  rw [cwOf, hregion, hw]
  rfl

/-- R353 holds for each entry whose region ends within its tile. -/
theorem placed_of_slice_le (hw : (regionOf s (dpa / 2 ^ 30)).wide = false)
    (hs : (regionOf s (dpa / 2 ^ 30)).slice ≤ 504) :
    cwTile (cwOf s dpa) = (regionOf s (dpa / 2 ^ 30)).tile ∧ cwChan (cwOf s dpa) = localChan dpa
      ∧ cwAddr (cwOf s dpa) = localAddr (regionOf s (dpa / 2 ^ 30)).slice dpa / 64 * 64 := by
  rw [cwOf_of_not_wide hd hw]
  have haddr := localAddr_lt hs dpa
  exact ⟨cwTile_cwMake haddr (localChan_lt dpa), cwChan_cwMake haddr (localChan_lt dpa), cwAddr_cwMake haddr⟩

end

theorem slice_le_of_entryOk {e : RegionEntry} (hok : entryOk e = true) (hw : e.wide = false) : e.slice ≤ 504 := by
  simp only [entryOk, hw, Bool.and_eq_true, decide_eq_true_eq, beq_iff_eq, Bool.false_eq_true, if_false] at hok
  omega

/-- What O42 says holds of the entries that R352 accepts, whose slice is a multiple of 8. -/
theorem placed_of_entryOk {s : State} {dpa : Nat} (hd : dpa < 2 ^ 39)
    (hok : entryOk (regionOf s (dpa / 2 ^ 30)) = true) (hw : (regionOf s (dpa / 2 ^ 30)).wide = false) :
    cwTile (cwOf s dpa) = (regionOf s (dpa / 2 ^ 30)).tile ∧ cwChan (cwOf s dpa) = localChan dpa
      ∧ cwAddr (cwOf s dpa) = localAddr (regionOf s (dpa / 2 ^ 30)).slice dpa / 64 * 64 :=
  placed_of_slice_le hd hw (slice_le_of_entryOk hok hw)

/-- Refutes O42: a region from slice 511, which is no multiple of 8 and which R352 refuses, runs past the end of its
tile, and the channel address that R353 would give its last granules is beyond the channel's 1 GiB. -/
theorem not_tileLocalPlacement : ¬ Obligations.TileLocalPlacement := by
  unfold Obligations.TileLocalPlacement
  intro h
  obtain ⟨-, -, haddr⟩ := h { State.reset with pkg := { regions := [(0, ⟨false, 0, 511, false⟩)] } }
    (2 ^ 30 - 2 ^ 14) (by decide) (by decide) (by decide) (by decide)
  exact absurd haddr (by decide)

/-! ### The default table (R351) -/

section
variable {s : State} (hr : s.pkg.regions = [])
include hr

theorem regionOf_of_default (i : Nat) : regionOf s i = regionDefault i := by
  rw [regionOf, hr]
  rfl

/-- Under the default table each part of a place is made of the address's own bits. -/
theorem placed_of_default {a : Nat} (ha : a < 2 ^ 39) :
    cwTile (cwOf s a) = a / 2 ^ 36 ∧ cwChan (cwOf s a) = a / 2 ^ 8 % 64 ^^^ chanMix (a / 2 ^ 14)
      ∧ cwAddr (cwOf s a) = (a / 2 ^ 14 % 2 ^ 22 * 256 + a % 256) / 64 * 64 := by
  have hplaced := placed_of_slice_le (s := s) ha (by rw [regionOf_of_default hr]; rfl)
    (by rw [regionOf_of_default hr, regionDefault]; dsimp only; omega)
  rw [regionOf_of_default hr, regionDefault, localAddr_of_default, localChan_eq_xor, Nat.div_div_eq_div_mul] at hplaced
  exact hplaced

/-- Two addresses at one place share every bit but those within the codeword: tile and channel address give those from
14 up, with them the channel gives bits 13 to 8, and the channel address gives bits 7 and 6. -/
theorem div_eq_of_cwOf_eq {a b : Nat} (ha : a < 2 ^ 39) (hb : b < 2 ^ 39) (hab : cwOf s a = cwOf s b) :
    a / 64 = b / 64 := by
  obtain ⟨htile, hchan, haddr⟩ := placed_of_default hr ha
  obtain ⟨htile', hchan', haddr'⟩ := placed_of_default hr hb
  rw [hab] at htile hchan haddr
  have hhigh : a / 2 ^ 14 = b / 2 ^ 14 := by omega
  have hmid : a / 2 ^ 8 % 64 = b / 2 ^ 8 % 64 := by
    have hmix := hchan.symm.trans hchan'
    rwa [hhigh, Nat.xor_left_inj] at hmix
  omega

end

/-- Settles O43: the default table keeps each bit of an address in its place. -/
theorem defaultPlacement : Obligations.DefaultPlacement := by
  unfold Obligations.DefaultPlacement
  refine ⟨fun s i hr _ => ?entry, fun s a hr ha => ?tile, fun s a b hr ha hb hne hab => ?apart⟩
  case entry =>
    rw [regionOf_of_default hr]
    exact ⟨rfl, rfl, rfl⟩
  case tile =>
    obtain ⟨htile, -, -⟩ := placed_of_default hr ha
    exact htile
  case apart => exact hne (div_eq_of_cwOf_eq hr ha hb hab)

end Sys2Proof.Machine
end

section
/-!
# Who changes package memory (R371)

The frame of the data of package memory: bytes and poison marks. Most operations that the commands of O53 run leave
package memory as it is, its caches and controllers too: rules `pkg_…`. Others set its queues, its placement, its scrub
or what a command touches, and no byte and no mark: rules `pkgData_…`. A slot engine reads and writes slot memory alone.
The rules are `simp` lemmas in the order of the model's files, so the rule of an operation follows from those of the
operations that it calls; a rule of every command, and with it O53, comes at the end.
-/
namespace Sys2Proof.Machine

/-! ### The data of package memory -/

/-- What package memory holds: its bytes and its poison marks. -/
def pkgData (p : Pkg) : Mem × SMap Bool := (p.bytes, p.poison)

theorem pkgData_eq_iff {p r : Pkg} : pkgData p = pkgData r ↔ p.bytes = r.bytes ∧ p.poison = r.poison := Prod.mk_inj

/-- The data stay whatever else of package memory is set. -/
@[simp] theorem pkgData_update (p : Pkg) (errors : SMap Nat) (under : SMap (Bool × List Byte))
    (regions : SMap RegionEntry) (cache : SMap (List CacheLine)) (chans : SMap Channel) (band : SMap Nat)
    (share threshold : Nat) (verifying pkgOverdue : SMap Bool) (lapStart lapLast : SMap Nat) (lapHours : Nat)
    (touch : List (Nat × Bool)) :
    pkgData { p with
      errors, under, regions, cache, chans, band, share, threshold, verifying, pkgOverdue, lapStart, lapLast, lapHours
      touch } = pkgData p := rfl

/-! ### Branches and folds -/

@[simp] theorem pkg_ite (c : Prop) [Decidable c] (s t : State) :
    (if c then s else t).pkg = if c then s.pkg else t.pkg := apply_ite State.pkg c s t

@[simp] theorem pkgData_ite (c : Prop) [Decidable c] (p r : Pkg) :
    pkgData (if c then p else r) = if c then pkgData p else pkgData r := apply_ite pkgData c p r

section
variable {α β : Type} {xs : List α}

@[simp] theorem pkg_forAll {f : State → α → State} (h : ∀ s x, (f s x).pkg = s.pkg) {s : State} :
    (forAll xs f s).pkg = s.pkg := forAll_keeps State.pkg h s

@[simp] theorem pkgData_forAll {f : State → α → State} (h : ∀ s x, pkgData (f s x).pkg = pkgData s.pkg)
    {s : State} : pkgData (forAll xs f s).pkg = pkgData s.pkg := forAll_keeps (fun s => pkgData s.pkg) h s

@[simp] theorem pkg_foldl {f : State → α → State} (h : ∀ s x, (f s x).pkg = s.pkg) {s : State} :
    (xs.foldl f s).pkg = s.pkg := foldl_keeps State.pkg h s

@[simp] theorem pkg_foldl_snd {f : β × State → α → β × State} (h : ∀ a x, (f a x).2.pkg = a.2.pkg)
    {a : β × State} : (xs.foldl f a).2.pkg = a.2.pkg := foldl_keeps (fun a => a.2.pkg) h a

@[simp] theorem pkg_foldl_snd_snd {γ : Type} {f : β × γ × State → α → β × γ × State}
    (h : ∀ a x, (f a x).2.2.pkg = a.2.2.pkg) {a : β × γ × State} : (xs.foldl f a).2.2.pkg = a.2.2.pkg :=
  foldl_keeps (fun a => a.2.2.pkg) h a

end

section
variable {s : State} {r : Bool × State} {e : Entry} {q : Req}
  {tile uid cls code k n w c t b a m g who port ring slot index dpa addr off hint id cq stream first
   kind seq cause peer : Nat}

/-! ### Outputs, logs, module state -/

@[simp] theorem pkgData_modMc (f : Channel → Channel) : pkgData (modMc s t c f).pkg = pkgData s.pkg := by
  simp [pkgData]

@[simp] theorem pkg_modTask (f : Task → Task) : (modTask s t k f).pkg = s.pkg := by simp [modTask]

@[simp] theorem pkg_modEngine (inst : Nat) (f : Engine → Engine) : (modEngine s t cls inst f).pkg = s.pkg := by
  simp [modEngine]

@[simp] theorem pkg_esFault (task : Nat) : (esFault code task s).pkg = s.pkg := by simp [esFault]
@[simp] theorem pkg_askDescs : (askDescs s ring).pkg = s.pkg := by simp [askDescs]
@[simp] theorem pkg_askAll : (askAll s).pkg = s.pkg := pkg_foldl fun _ _ => pkg_askDescs ..
@[simp] theorem pkg_settleReady : (settleReady s).pkg = s.pkg := by simp only [settleReady]; split <;> simp

/-! ### Slot memory, tags and claims -/

@[simp] theorem pkgData_clearFlips : pkgData (clearFlips s).pkg = pkgData s.pkg := by simp [clearFlips]
@[simp] theorem pkg_setTag (t : BitVec 8) : (setTag tile g t s).pkg = s.pkg := by simp [setTag]
@[simp] theorem pkg_tagRead : (tagRead tile g s).pkg = s.pkg := by simp [tagRead]
@[simp] theorem pkg_slotError (h e : Nat) : (slotError tile h e s).pkg = s.pkg := by simp [slotError]
@[simp] theorem pkg_slotPut (bs : List Byte) : (slotPut tile a bs s).pkg = s.pkg := by simp [slotPut]
@[simp] theorem pkg_halfWrite (h : Nat) : (halfWrite tile h s).pkg = s.pkg := by simp [halfWrite]

@[simp] theorem pkg_halfFind (h : Nat) : (halfFind tile h s).2.pkg = s.pkg := by
  simp only [halfFind]
  repeat' split
  all_goals simp

@[simp] theorem pkg_halfRead (h : Nat) : (halfRead tile h s).2.pkg = s.pkg := by simp [halfRead]

@[simp] theorem pkg_halfReads {h : Nat} : (halfReads tile h n s).2.pkg = s.pkg := by
  induction n generalizing h s with
  | zero => rfl
  | succ n ih => simp [halfReads, ih]

@[simp] theorem pkg_slotRead : (slotRead who tile a n s).2.pkg = s.pkg := by simp [slotRead]

@[simp] theorem pkg_mergeHalf (h : Nat) (bs : List Byte) (bad : Bool) :
    (mergeHalf tile h a bs bad s).pkg = s.pkg := by
  simp [mergeHalf]

@[simp] theorem pkg_slotLine (bs : List Byte) : (slotLine who tile a bs s).2.pkg = s.pkg := by
  simp only [slotLine]
  repeat' split
  all_goals simp

@[simp] theorem pkg_slotLines {bs : List Byte} : (slotLines who tile a bs n s).2.pkg = s.pkg := by
  induction n generalizing a bs s with
  | zero => rfl
  | succ n ih => simp only [slotLines]; split <;> simp [ih]

@[simp] theorem pkg_slotWrite (bs : List Byte) : (slotWrite who tile a bs s).2.pkg = s.pkg := by simp [slotWrite]
@[simp] theorem pkg_claimOut (owner : Nat) : (claimOut owner tile g s).pkg = s.pkg := by simp [claimOut]
@[simp] theorem pkg_claimIn : (claimIn tile g s).pkg = s.pkg := by simp [claimIn]
@[simp] theorem pkg_unclaimOut (owner : Nat) : (unclaimOut owner tile g s).pkg = s.pkg := by simp [unclaimOut]
@[simp] theorem pkg_unclaimIn : (unclaimIn tile g s).pkg = s.pkg := by simp [unclaimIn]

/-! ### Frames, packets and messages that go out -/

@[simp] theorem pkg_sendFrame (payload : List Byte) : (sendFrame port kind seq payload s).pkg = s.pkg := by
  simp [sendFrame]

@[simp] theorem pkg_pumpFrames : (pumpFrames port n s).pkg = s.pkg := by
  induction n generalizing s with
  | zero => rfl
  | succ n ih => simp [pumpFrames, ih]

@[simp] theorem pkg_handOver (bytes : List Byte) : (handOver port bytes s).pkg = s.pkg := pkg_pumpFrames ..

@[simp] theorem pkg_putOut (op : Nat) (p : Packet) (wire : List Byte) : (putOut port op p wire s).pkg = s.pkg := by
  simp [putOut]

@[simp] theorem pkg_mgmtVia (counter : Nat) (body : List Nat) :
    (mgmtVia port peer counter code body s).pkg = s.pkg := by
  simp [mgmtVia]

@[simp] theorem pkg_mgmtSend (body : List Nat) : (mgmtSend peer code body s).pkg = s.pkg := by
  simp only [mgmtSend]
  split <;> simp

@[simp] theorem pkg_reportSend (o : Nat → Out) : (reportSend o s).pkg = s.pkg := by
  simp only [reportSend]
  split <;> simp

@[simp] theorem pkg_askRekey : (askRekey k s).pkg = s.pkg := pkg_mgmtSend ..
@[simp] theorem pkg_nextSeq : (nextSeq k s).pkg = s.pkg := by simp [nextSeq]
@[simp] theorem pkg_beginRoll : (beginRoll k s).pkg = s.pkg := by simp [beginRoll]

@[simp] theorem pkg_pumpOne : (pumpOne k s).pkg = s.pkg := by
  simp only [pumpOne]
  repeat' split
  all_goals simp

@[simp] theorem pkg_pumpMany : (pumpMany k n s).pkg = s.pkg := by
  induction n generalizing s with
  | zero => rfl
  | succ n ih => simp [pumpMany, ih]

@[simp] theorem pkg_pump : (pump k s).pkg = s.pkg := by simp [pump]
@[simp] theorem pkg_pumpPort : (pumpPort port s).pkg = s.pkg := pkg_foldl fun _ _ => by simp

@[simp] theorem pkg_sendPacket (owner : Nat) (b : PktBody) : (sendPacket k owner b s).pkg = s.pkg := by
  simp [sendPacket]

@[simp] theorem pkg_sendReply (b : PktBody) : (sendReply k b s).pkg = s.pkg := pkg_putOut ..

@[simp] theorem pkg_stepSendOut (member : Nat) (o : Out) : (stepSendOut member code o s).pkg = s.pkg := by
  simp [stepSendOut]

@[simp] theorem pkg_stepSend (member : Nat) (body : List Nat) : (stepSend member code body s).pkg = s.pkg :=
  pkg_stepSendOut ..

@[simp] theorem pkg_stepSendAll (body : List Nat) : (stepSendAll code body s).pkg = s.pkg := by
  simp only [stepSendAll]
  split <;> simp

/-! ### Fences and barriers -/

@[simp] theorem pkg_fencePut (v : Nat) : (fencePut c v s).pkg = s.pkg := by simp [fencePut]
@[simp] theorem pkg_noteWaits : (noteWaits s).pkg = s.pkg := forAll_keeps State.pkg (by intros; rfl) s
@[simp] theorem pkg_fenceAdd : (fenceAdd c n s).pkg = s.pkg := by simp [fenceAdd]
@[simp] theorem pkg_fenceLocal : (fenceLocal c n s).pkg = s.pkg := by simp [fenceLocal]
@[simp] theorem pkg_barReleased (failed : Bool) : (barReleased b g failed code s).pkg = s.pkg := by simp [barReleased]

@[simp] theorem pkg_barFinish (failed : Bool) (members : List Nat) :
    (barFinish b g failed code members s).pkg = s.pkg := by
  simp [barFinish]

@[simp] theorem pkg_rootArrive (member : Nat) : (rootArrive b member g s).pkg = s.pkg := by simp [rootArrive]
@[simp] theorem pkg_arriveLocal : (arriveLocal b s).pkg = s.pkg := by simp [arriveLocal]
@[simp] theorem pkg_barSetup (p : BarrierParams) : (barSetup p s).pkg = s.pkg := by simp [barSetup]
@[simp] theorem pkg_barPeerLost : (barPeerLost m s).pkg = s.pkg := by simp [barPeerLost]

/-! ### Completion records -/

@[simp] theorem pkg_d2hDone : (d2hDone id s).pkg = s.pkg := by simp [d2hDone]

@[simp] theorem pkg_queueRecord (r : RecFields) : (queueRecord cq index r s).pkg = s.pkg := by
  simp only [queueRecord]
  split <;> simp

@[simp] theorem pkg_taskRecord (fault taskId opIx : Nat) (st : EngStatus) :
    (taskRecord ring index fault taskId opIx tile st s).pkg = s.pkg := pkg_queueRecord ..

@[simp] theorem pkg_updateRecord (status : Nat) : (updateRecord ring index slot status s).pkg = s.pkg :=
  pkg_queueRecord ..

@[simp] theorem pkg_jobFaultRecord (step aborts : Nat) : (jobFaultRecord step code aborts s).pkg = s.pkg := by
  simp [jobFaultRecord]

@[simp] theorem pkg_ringError (tail : Nat) : (ringError ring cause tail s).pkg = s.pkg := by
  simp only [ringError]
  split <;> simp

@[simp] theorem pkg_cqError : (cqError cq s).pkg = s.pkg := by simp [cqError]
@[simp] theorem pkg_retire : (retire ring index s).pkg = s.pkg := by simp [retire]
@[simp] theorem pkg_announce (fault : Nat) : (announce cq fault s).pkg = s.pkg := by simp [announce]
@[simp] theorem pkg_startRecord : (startRecord cq s).pkg = s.pkg := by simp only [startRecord]; split <;> simp

@[simp] theorem pkg_recordLineDone : (recordLineDone cq s).pkg = s.pkg := by
  simp only [recordLineDone]
  repeat' split
  all_goals simp

@[simp] theorem pkg_recordDone : (recordDone cq s).pkg = s.pkg := by simp only [recordDone]; split <;> simp

/-! ### Window entries, tasks, faults, the ends of ops, the edges of a step -/

@[simp] theorem pkg_modEntry (f : Entry → Entry) : (modEntry tile uid f s).pkg = s.pkg := by simp [modEntry]
@[simp] theorem pkg_dropEntry : (dropEntry tile uid s).pkg = s.pkg := by simp [dropEntry]
@[simp] theorem pkg_freeTask : (freeTask tile k s).pkg = s.pkg := by simp [freeTask]
@[simp] theorem pkg_startTask : (startTask tile k s).pkg = s.pkg := by simp [startTask]
@[simp] theorem pkg_bindTask : (bindTask tile k s).pkg = s.pkg := by simp [bindTask]
@[simp] theorem pkg_parkTask : (parkTask tile k s).pkg = s.pkg := by simp [parkTask]
@[simp] theorem pkg_signalTask (d : DescWord) : (signalTask d s).pkg = s.pkg := by simp [signalTask]

@[simp] theorem pkg_completeTask : (completeTask tile k s).pkg = s.pkg := by
  simp only [completeTask]
  split <;> simp

@[simp] theorem pkg_endFaulted : (endFaulted tile k s).pkg = s.pkg := by simp only [endFaulted]; split <;> simp

@[simp] theorem pkg_settleTask : (settleTask tile k s).pkg = s.pkg := by
  simp only [settleTask]
  repeat' split
  all_goals simp

@[simp] theorem pkg_mgrAbort (weights : Bool) : (mgrAbort code weights s).pkg = s.pkg := by
  simp only [mgrAbort]
  split <;> simp

@[simp] theorem pkg_stepFault (taskId : Nat) (weights : Bool) :
    (stepFault code taskId tile weights s).pkg = s.pkg := by
  simp only [stepFault]
  repeat' split
  all_goals simp

@[simp] theorem pkg_faultTask (opIx : Nat) : (faultTask tile k code opIx s).pkg = s.pkg := by simp [faultTask]
@[simp] theorem pkg_releaseClaims : (releaseClaims tile e s).pkg = s.pkg := by simp [releaseClaims]
@[simp] theorem pkg_freeInstance : (freeInstance tile e s).pkg = s.pkg := by simp [freeInstance]
@[simp] theorem pkg_completeTags : (completeTags tile e s).pkg = s.pkg := by simp [completeTags]
@[simp] theorem pkg_countCross : (countCross tile e s).pkg = s.pkg := by simp [countCross]

@[simp] theorem pkg_failOp : (failOp tile uid code s).pkg = s.pkg := by simp only [failOp]; split <;> simp

@[simp] theorem pkg_completeOp (st : EngStatus) : (completeOp tile uid st s).pkg = s.pkg := by
  simp only [completeOp]
  split <;> simp

@[simp] theorem pkg_cancelOps : (cancelOps tile k s).pkg = s.pkg := pkg_forAll fun _ _ => by simp
@[simp] theorem pkg_sendForOp (b : PktBody) : (sendForOp k tile uid b s).pkg = s.pkg := by simp [sendForOp]

@[simp] theorem pkg_settlePacket (own : Nat) : (settlePacket own code s).pkg = s.pkg := by
  simp only [settlePacket]
  repeat' split
  all_goals simp

@[simp] theorem pkg_winClaim : (winClaim w s).pkg = s.pkg := by simp only [winClaim]; split <;> simp
@[simp] theorem pkg_winBegin : (winBegin w s).pkg = s.pkg := pkg_winClaim ..
@[simp] theorem pkg_winDiscard : (winDiscard w s).pkg = s.pkg := by simp [winDiscard]

/-! ### Operands of the slot engines -/

@[simp] theorem pkg_rd (p : SlotAt) : (rd who p n r).2.2.pkg = r.2.pkg := by simp only [rd]; split <;> simp

@[simp] theorem pkg_rdRows {fmt rowPitch rows : Nat} {p : SlotAt} :
    (rdRows who fmt n rowPitch p rows r).2.2.pkg = r.2.pkg := by
  induction rows generalizing p r with
  | zero => rfl
  | succ rows ih => simp [rdRows, ih]

@[simp] theorem pkg_rdScales (p : SlotAt) (rows per : Nat) : (rdScales who p rows per r).2.2.pkg = r.2.pkg := by
  simp [rdScales]

@[simp] theorem pkg_wr (p : SlotAt) (bs : List Byte) : (wr who p bs r).2.pkg = r.2.pkg := by
  simp only [wr]
  split <;> simp

@[simp] theorem pkg_wrRows {fmt rowPitch : Nat} {p : SlotAt} {rows : List (List Nat)} :
    (wrRows who fmt rowPitch p rows r).2.pkg = r.2.pkg := by
  induction rows generalizing p r with
  | nil => rfl
  | cons row rows ih => simp [wrRows, ih]

/-- Without a parity error an engine's op does what it is for. -/
theorem pkg_withParity {parity : Bool} {f : State → State} (hp : parity = false) (h : (f s).pkg = s.pkg) :
    (withParity tile uid cls code parity f s).pkg = s.pkg := by
  rw [withParity, hp, if_neg Bool.false_ne_true, h]

@[simp] theorem pkg_endOp (bad : Bool) (st : EngStatus) : (endOp tile uid bad st s).pkg = s.pkg := by simp [endOp]
@[simp] theorem pkg_endRun (r : EngRun) : (endRun tile uid r).pkg = r.2.2.pkg := by simp [endRun]

/-! ### Requests to package memory -/

@[simp] theorem pkgData_queueReq (owner : Nat) (write : Bool) :
    pkgData (queueReq cls tile hint owner write dpa s).pkg = pkgData s.pkg := by
  simp [queueReq]

@[simp] theorem pkgData_queueClove : pkgData (queueClove tile e s).pkg = pkgData s.pkg := by simp [queueClove]
@[simp] theorem pkg_sendReads : (sendReads tile e s).pkg = s.pkg := by simp only [sendReads]; split <;> simp

/-! ### PEPPER: issue -/

@[simp] theorem pkg_advanceTask : (advanceTask tile k s).pkg = s.pkg := by simp [advanceTask]
@[simp] theorem pkg_countIssue : (countIssue tile e s).pkg = s.pkg := by simp [countIssue]
@[simp] theorem pkg_completeCtl : (completeCtl tile e s).pkg = s.pkg := by simp [completeCtl]
@[simp] theorem pkg_markIssued : (markIssued tile uid s).pkg = s.pkg := by simp [markIssued]
@[simp] theorem pkg_barWait : (barWait tile e s).pkg = s.pkg := by simp [barWait]
@[simp] theorem pkg_releaseWaits : (releaseWaits s).pkg = s.pkg := by simp [releaseWaits]
@[simp] theorem pkg_sendResults : (sendResults s).pkg = s.pkg := by simp only [sendResults]; split <;> simp
@[simp] theorem pkg_arriveOp : (arriveOp tile e b s).pkg = s.pkg := by simp [arriveOp]
@[simp] theorem pkg_readRecord : (readRecord tile e s).pkg = s.pkg := by simp only [readRecord]; split <;> simp
@[simp] theorem pkg_startEngine (inst : Nat) : (startEngine tile cls inst uid s).pkg = s.pkg := by simp [startEngine]
@[simp] theorem pkg_charge (op : OpWord) : (charge tile op s).pkg = s.pkg := by simp [charge]

@[simp] theorem pkgData_issueOp {inst : Nat} : pkgData (issueOp tile e inst s).pkg = pkgData s.pkg := by
  simp only [issueOp]
  split
  · rename_i hclove
    simp [hclove]
  · split
    · rw [pkg_forAll]
      · simp
      · intro a c
        split <;> simp
    · simp

@[simp] theorem pkgData_issueNext : pkgData (issueNext tile cls s).pkg = pkgData s.pkg := by
  simp only [issueNext]
  repeat' split
  all_goals simp

@[simp] theorem pkg_startGroup : (startGroup tile s).pkg = s.pkg := pkg_forAll fun _ _ => pkg_modEntry ..

/-! ### SAFFRON -/

@[simp] theorem pkg_sfRead (fmt d : Nat) (scaled : Bool) (blk : Nat) (p ps : SlotAt) (r : Nat) (a : Bool × State) :
    (sfRead fmt d scaled blk p ps r a).2.2.pkg = a.2.pkg := by
  simp only [sfRead]
  split <;> simp

@[simp] theorem pkg_sfFloats (p : SlotAt) : (sfFloats p n r).2.2.pkg = r.2.pkg := by simp [sfFloats]
@[simp] theorem pkg_sfPut (p : SlotAt) (vs : List FVal) : (sfPut p vs r).2.pkg = r.2.pkg := by simp [sfPut]

@[simp] theorem pkg_rdMask {p : SlotAt} {lines : Nat} : (rdMask p lines n r).2.2.pkg = r.2.pkg := by
  induction n generalizing p r with
  | zero => rfl
  | succ n ih => simp [rdMask, ih]

@[simp] theorem pkg_sfReadKv (c : List Byte) (op : OpWord) (q : SfRows) (p : SlotAt) :
    (sfReadKv c op q p r).2.2.pkg = r.2.pkg := by
  simp only [sfReadKv]
  repeat' split
  all_goals simp

@[simp] theorem pkg_sfFreq (c : List Byte) (own base : Nat) (used : Bool) :
    (sfFreq c own base used r).2.2.pkg = r.2.pkg := by
  simp only [sfFreq]
  split <;> simp

@[simp] theorem pkg_sfStates (c : List Byte) (p : SlotAt) (r : Nat) (a : Bool × State) :
    (sfStates c p r a).2.2.pkg = a.2.pkg := by
  simp [sfStates]

@[simp] theorem pkg_sfWrite (c : List Byte) (op : OpWord) (p : SlotAt) (rs : List (SfState × SfFin)) :
    (sfWrite c op p rs r).2.2.pkg = r.2.pkg := by
  simp only [sfWrite]
  split <;> simp

@[simp] theorem pkg_sfForward : (sfForward tile e s).2.2.pkg = s.pkg := by simp only [sfForward]; split <;> simp
@[simp] theorem pkg_sfMergeOp : (sfMergeOp tile e s).2.2.pkg = s.pkg := by simp [sfMergeOp]

@[simp] theorem pkg_sfBackward : (sfBackward tile e s).2.2.pkg = s.pkg := by
  simp only [sfBackward]
  split <;> simp

@[simp] theorem pkg_sfRopeOp : (sfRopeOp tile e s).2.2.pkg = s.pkg := by simp [sfRopeOp]

@[simp] theorem pkg_sfWork : (sfWork code tile e s).2.2.pkg = s.pkg := by
  simp only [sfWork]
  repeat' split
  all_goals simp

@[simp] theorem pkg_sfFinish : (sfFinish tile uid code s).pkg = s.pkg := by simp only [sfFinish]; split <;> simp

/-! ### SUMAC -/

@[simp] theorem pkg_smRead (op : OpWord) (fmt : Nat) (scaled : Bool) (p ps : SlotAt) (r : Nat) (a : Bool × State) :
    (smRead op fmt scaled n p ps r a).2.2.pkg = a.2.pkg := by
  simp only [smRead]
  split <;> simp

@[simp] theorem pkg_smMask (op : OpWord) (p : SlotAt) (r : Nat) (a : Bool × State) :
    (smMask op p r a).2.2.pkg = a.2.pkg := by
  simp [smMask]

@[simp] theorem pkg_smReadB (op : OpWord) (p : SlotAt) : (smReadB op p r).2.2.pkg = r.2.pkg := by
  simp only [smReadB]
  split <;> simp

@[simp] theorem pkg_smReadC (op : OpWord) (p : SlotAt) : (smReadC op p r).2.2.pkg = r.2.pkg := by
  simp only [smReadC]
  split <;> simp

@[simp] theorem pkg_smWrite (f : OutFmt) (p : SlotAt) (rows : List (List SmVal)) :
    (smWrite f n p rows r).2.2.pkg = r.2.pkg := by
  simp only [smWrite]
  split <;> simp

@[simp] theorem pkg_smReadA (op : OpWord) (p : SlotAt) : (smReadA op p r).2.2.pkg = r.2.pkg := by simp [smReadA]

@[simp] theorem pkg_smRun (nanScale : Bool) (masked nans : Nat) (r : OpFlags × Bool × State) :
    (smRun nanScale masked nans r).2.2.pkg = r.2.2.pkg := by
  simp [smRun]

@[simp] theorem pkg_smMap : (smMap tile e s).2.2.pkg = s.pkg := by simp only [smMap]; split <;> simp
@[simp] theorem pkg_smCmpOp : (smCmpOp tile e s).2.2.pkg = s.pkg := by simp [smCmpOp]
@[simp] theorem pkg_smSelectOp : (smSelectOp tile e s).2.2.pkg = s.pkg := by simp [smSelectOp]

@[simp] theorem pkg_smReduce : (smReduce tile e s).2.2.pkg = s.pkg := by
  simp only [smReduce]
  repeat' split
  all_goals simp

@[simp] theorem pkg_smNorm : (smNorm tile e s).2.2.pkg = s.pkg := by simp only [smNorm]; split <;> simp

@[simp] theorem pkg_smSoftOp : (smSoftOp tile e s).2.2.pkg = s.pkg := by
  simp only [smSoftOp]
  repeat' split
  all_goals simp

@[simp] theorem pkg_smWork : (smWork code tile e s).2.2.pkg = s.pkg := by
  simp only [smWork]
  repeat' split
  all_goals simp

@[simp] theorem pkg_smFinish : (smFinish tile uid code s).pkg = s.pkg := by simp only [smFinish]; split <;> simp

/-! ### ANISE -/

@[simp] theorem pkg_anReportTo (f : TokenReport → TokenReport) : (anReportTo e f s).pkg = s.pkg := by
  simp [anReportTo]

@[simp] theorem pkg_anHistory (op : OpWord) (p : SlotAt) : (anHistory op p r).2.2.pkg = r.2.pkg := by
  simp only [anHistory]
  repeat' split
  all_goals simp

@[simp] theorem pkg_anRows_ (op : OpWord) (p : SlotAt) (r : Nat) (a : Bool × State) :
    (anRows_ op p r a).2.2.pkg = a.2.pkg := by
  simp [anRows_]

@[simp] theorem pkg_anEntry (op : OpWord) (p : SlotAt) : (anEntry op p r).2.2.pkg = r.2.pkg := by simp [anEntry]

@[simp] theorem pkg_sampleReport (op : OpWord) (rs : List AnRes) : (sampleReport op e rs s).pkg = s.pkg := by
  simp [sampleReport]

@[simp] theorem pkg_anSampleOp : (anSampleOp tile e s).2.2.pkg = s.pkg := by simp [anSampleOp]

@[simp] theorem pkg_anVerifyOp : (anVerifyOp tile e s).2.2.pkg = s.pkg := by
  simp only [anVerifyOp]
  split <;> simp

@[simp] theorem pkg_anWork : (anWork code tile e s).2.2.pkg = s.pkg := by
  simp only [anWork]
  repeat' split
  all_goals simp

@[simp] theorem pkg_anFinish : (anFinish tile uid code s).pkg = s.pkg := by simp only [anFinish]; split <;> simp

/-! ### Snoops -/

@[simp] theorem pkgData_clearTouch : pkgData (clearTouch s).pkg = pkgData s.pkg := by simp [clearTouch]
@[simp] theorem pkgData_endTouch : pkgData (endTouch n s).pkg = pkgData s.pkg := by simp [endTouch]

@[simp] theorem pkg_snoopLine (entry : Nat) (x : Nat × Bool) : (snoopLine tile entry s x).pkg = s.pkg := by
  simp [snoopLine]

@[simp] theorem pkgData_withSnoopAt {i : Instr} {f : State → State} (h : ∀ s, pkgData (f s).pkg = pkgData s.pkg) :
    pkgData (withSnoopAt n i f s).pkg = pkgData s.pkg := by
  simp [withSnoopAt, h]

@[simp] theorem pkgData_withSnoop {i : Instr} {f : State → State} (h : ∀ s, pkgData (f s).pkg = pkgData s.pkg) :
    pkgData (withSnoop i f s).pkg = pkgData s.pkg := pkgData_withSnoopAt h

/-! ### The conductor and a member's side of a step -/

@[simp] theorem pkg_learnMember : (learnMember s m).pkg = s.pkg := by simp [learnMember]
@[simp] theorem pkg_learnMembers : (learnMembers s).pkg = s.pkg := by simp only [learnMembers]; split <;> simp
@[simp] theorem pkg_addNotice (n : PageNotice) : (addNotice n s).pkg = s.pkg := by simp [addNotice]
@[simp] theorem pkg_newSeqApply (n : NewSeq) : (newSeqApply n s).pkg = s.pkg := by simp [newSeqApply]
@[simp] theorem pkg_newSeq (n : NewSeq) : (newSeq n s).2.pkg = s.pkg := by simp only [newSeq]; split <;> simp
@[simp] theorem pkg_endSeq (status : Nat) : (endSeq slot status s).pkg = s.pkg := pkg_addNotice ..

@[simp] theorem pkg_finishSeq : (finishSeq slot s).2.pkg = s.pkg := by
  simp only [finishSeq]
  repeat' split
  all_goals simp

@[simp] theorem pkg_sampleSeq (sample : Nat) : (sampleSeq slot sample s).2.pkg = s.pkg := by
  simp only [sampleSeq]
  repeat' split
  all_goals simp

@[simp] theorem pkg_admitFrom {l : Seqs} : (admitFrom l s).pkg = s.pkg := by
  induction l generalizing s with
  | nil => rfl
  | cons x l ih => simp [admitFrom, ih]

@[simp] theorem pkg_admitSeqs : (admitSeqs s).pkg = s.pkg := pkg_admitFrom ..

@[simp] theorem pkg_askPrompt (line : Nat) : (askPrompt slot s line).pkg = s.pkg := by simp [askPrompt]

@[simp] theorem pkg_beginForm (p : StepSetParams) (pool : PoolParams) (xs : List SeqPlace) :
    (beginForm p pool xs s).pkg = s.pkg := by
  simp [beginForm]

@[simp] theorem pkg_sendRun (r : RetStep) (rerun : Bool) : (sendRun r rerun s).pkg = s.pkg := by
  simp only [sendRun]
  split <;> simp

@[simp] theorem pkg_finishForm : (finishForm s).pkg = s.pkg := by simp only [finishForm]; split <;> simp

@[simp] theorem pkg_formStep : (formStep s).pkg = s.pkg := by
  simp only [formStep]
  repeat' split
  all_goals simp

@[simp] theorem pkg_promptData (data : List Byte) : (promptData id data s).pkg = s.pkg := pkg_finishForm ..
@[simp] theorem pkg_promptFailed : (promptFailed id s).pkg = s.pkg := by simp only [promptFailed]; split <;> simp

@[simp] theorem pkg_sendCommit (step : Nat) (ns : List PageNotice) : (sendCommit step ns s m).pkg = s.pkg :=
  pkg_stepSendOut ..

theorem pkg_stepRecv {src num : Nat} {t : State} (h : stepRecv src num s = some t) : t.pkg = s.pkg := by
  simp only [stepRecv] at h
  split at h
  · cases h; rfl
  · split at h
    · cases h; simp
    · cases h

@[simp] theorem pkg_cancelSteps : (cancelSteps s).pkg = s.pkg := by simp [cancelSteps]

@[simp] theorem pkg_abortIn (step : Nat) : (abortIn step code s).pkg = s.pkg := by
  simp only [abortIn]
  split <;> simp

@[simp] theorem pkg_memberFault (taskId : Nat) : (memberFault code taskId s).pkg = s.pkg := by simp [memberFault]
@[simp] theorem pkg_rerunStep : (rerunStep s).pkg = s.pkg := by simp only [rerunStep]; split <;> simp

/-! ### The host link -/

@[simp] theorem pkg_fetchTail (r : Nat) : (fetchTail r s).pkg = s.pkg := by simp [fetchTail]
@[simp] theorem pkg_fetchHead : (fetchHead c s).pkg = s.pkg := by simp [fetchHead]
@[simp] theorem pkg_watcherWake (head : Bool) : (watcherWake head ring s).pkg = s.pkg := by simp [watcherWake]
@[simp] theorem pkg_newTail : (newTail ring n s).pkg = s.pkg := by simp [newTail]

@[simp] theorem pkg_readData (data : List Byte) : (readData id data s).pkg = s.pkg := by
  simp only [readData]
  split <;> simp

@[simp] theorem pkg_writeDone : (writeDone id s).pkg = s.pkg := by simp only [writeDone]; split <;> simp

@[simp] theorem pkg_snoopTimeout (line entry : Nat) : (snoopTimeout line tile entry s).pkg = s.pkg := by
  simp [snoopTimeout]

@[simp] theorem pkg_hostTimeout : (hostTimeout id s).pkg = s.pkg := by
  simp only [hostTimeout]
  repeat' split
  all_goals simp

@[simp] theorem pkg_takeDesc : (takeDesc ring index s).pkg = s.pkg := by simp [takeDesc]

@[simp] theorem pkg_faultDesc (fault : Nat) (d : DescSlot) : (faultDesc ring fault d s).pkg = s.pkg := by
  simp [faultDesc]

@[simp] theorem pkg_withDesc {want : DescSlot → Bool} {f : DescSlot → State → State}
    (h : ∀ d s, (f d s).pkg = s.pkg) : (withDesc ring want f s).pkg = s.pkg := by
  unfold withDesc
  repeat' split
  all_goals simp [h]

@[simp] theorem pkg_submitTask (d : DescSlot) : (submitTask ring d s).pkg = s.pkg := by simp [submitTask]
@[simp] theorem pkg_noteUpdate : (noteUpdate slot index s).pkg = s.pkg := by simp [noteUpdate]

@[simp] theorem pkg_applyUpdate (d : DescSlot) (r : Nat × State) : (applyUpdate ring d r).pkg = r.2.pkg := by
  simp [applyUpdate]

@[simp] theorem pkg_hdmCommit (base : Nat) : (hdmCommit base s).pkg = s.pkg := by simp [hdmCommit]

@[simp] theorem pkg_keyProg (dir sub keySet refresh key : Nat) :
    (keyProg stream dir sub keySet refresh key s).pkg = s.pkg := by
  simp only [keyProg]
  split <;> simp

@[simp] theorem pkg_keyGo (keySet : Nat) : (keyGo stream keySet s).pkg = s.pkg := by simp [keyGo]
@[simp] theorem pkg_moderationEnds : (moderationEnds cq s).pkg = s.pkg := by simp [moderationEnds]
@[simp] theorem pkg_holdoffEnds : (holdoffEnds s).pkg = s.pkg := by simp [holdoffEnds]

/-! ### Mailboxes -/

@[simp] theorem pkg_refuse (status : Nat) : (refuse status s).state.pkg = s.pkg := by simp [refuse]
@[simp] theorem pkg_accept : (accept s).state.pkg = s.pkg := by simp [accept]

@[simp] theorem pkgData_runMail {via states : Nat} {auth claim : Bool} {f : State → Answer}
    (h : ∀ s, pkgData (f s).state.pkg = pkgData s.pkg) :
    pkgData (runMail code via states auth claim q f s).pkg = pkgData s.pkg := by
  have hf := h s
  simp only [runMail]
  cases hfs : f s <;> simp_all

@[simp] theorem pkgData_runGuarded {i : Instr} {via states : Nat} {auth claim : Bool} {f : State → Answer}
    (h : ∀ s, pkgData (f s).state.pkg = pkgData s.pkg) :
    pkgData (runGuarded i code via states auth claim q f s).pkg = pkgData s.pkg := by
  simp [runGuarded, h]

@[simp] theorem pkgData_mailbox {i : Instr} {via states : Nat} {auth claim : Bool} {f : State → Answer}
    (h : ∀ s, pkgData (f s).state.pkg = pkgData s.pkg) :
    pkgData (mailbox i code via states auth claim q f s).pkg = pkgData s.pkg := by
  simp [mailbox, h]

@[simp] theorem pkg_freeExecutor : (freeExecutor s).pkg = s.pkg := by simp [freeExecutor]

/-! ### Packets that come in -/

@[simp] theorem pkg_resendAll (rs : List Retained) : (resendAll k rs s).pkg = s.pkg := by simp [resendAll]
@[simp] theorem pkg_resendFrom : (resendFrom k n s).pkg = s.pkg := pkg_resendAll ..
@[simp] theorem pkg_settleAll (rs : List Retained) : (settleAll rs code s).pkg = s.pkg := by simp [settleAll]
@[simp] theorem pkg_ackUpTo : (ackUpTo k n s).pkg = s.pkg := by simp [ackUpTo]
@[simp] theorem pkg_halveCap : (halveCap port peer s).pkg = s.pkg := by simp [halveCap]
@[simp] theorem pkg_growCap : (growCap port peer s).pkg = s.pkg := pkg_pumpPort ..
@[simp] theorem pkg_dropUnsent (owner : Nat) : (dropUnsent k owner s).pkg = s.pkg := by simp [dropUnsent]

@[simp] theorem pkg_refusedAt (reason : Nat) : (refusedAt k n reason s).pkg = s.pkg := by
  simp only [refusedAt]
  split <;> simp

@[simp] theorem pkg_sendAck : (sendAck k s).pkg = s.pkg := by simp [sendAck]
@[simp] theorem pkg_sendNak : (sendNak k s).pkg = s.pkg := by simp [sendNak]
@[simp] theorem pkg_arrive (op : Nat) (p : Packet) : (arrive port op p s).pkg = s.pkg := by simp [arrive]

@[simp] theorem pkg_screen (op : Nat) (p : Packet) : (screen port op p s).2.pkg = s.pkg := by
  simp only [screen]
  repeat' split
  all_goals simp

@[simp] theorem pkg_outOfSequence {op : Nat} {p : Packet} {f : Nat → State → State}
    (h : ∀ k s, (f k s).pkg = s.pkg) : (outOfSequence port op p f s).pkg = s.pkg := by
  have hscreen := pkg_screen (port := port) (op := op) (p := p) (s := s)
  simp only [outOfSequence]
  split <;> rename_i heq <;> (rw [heq] at hscreen; dsimp only at hscreen)
  · exact hscreen
  · simp [h, hscreen]

@[simp] theorem pkg_onAck (p : Packet) : (onAck p k s).pkg = s.pkg := by simp [onAck]
@[simp] theorem pkg_onNak (p : Packet) : (onNak p k s).pkg = s.pkg := by simp [onNak]
@[simp] theorem pkg_onRefuse (p : Packet) : (onRefuse p k s).pkg = s.pkg := by simp [onRefuse]
@[simp] theorem pkg_freePending : (freePending k s).pkg = s.pkg := by simp [freePending]

@[simp] theorem pkg_endOpen (status : Nat) : (endOpen k status s).pkg = s.pkg := by
  simp only [endOpen]
  split <;> simp

@[simp] theorem pkg_resetChan : (resetChan k s).pkg = s.pkg := by simp [resetChan]

/-! ### Members of the fabric -/

@[simp] theorem pkg_rebuildRoutes : (rebuildRoutes s).pkg = s.pkg := by simp [rebuildRoutes]
@[simp] theorem pkg_openChan (low high : Nat) : (openChan k port low high s).pkg = s.pkg := by simp [openChan]
@[simp] theorem pkg_peerOpens : (peerOpens k s).pkg = s.pkg := by simp [peerOpens]
@[simp] theorem pkg_reopenChan : (reopenChan k s).pkg = s.pkg := pkg_openChan ..

@[simp] theorem pkg_reopenWhere (f : Nat → Bool) : (reopenWhere f s).pkg = s.pkg :=
  pkg_forAll fun _ _ => pkg_reopenChan ..

@[simp] theorem pkg_reopenAll : (reopenAll s).pkg = s.pkg := pkg_reopenWhere ..

@[simp] theorem pkg_serveAgain (was : ModState) : (serveAgain was s).pkg = s.pkg := by
  simp only [serveAgain]
  repeat' split
  all_goals simp

@[simp] theorem pkg_backReady : (backReady s).pkg = s.pkg := (pkg_serveAgain ..).trans (pkg_settleReady ..)

@[simp] theorem pkg_resendStep : (resendStep m s).pkg = s.pkg := by
  simp only [resendStep]
  repeat' split
  all_goals simp

@[simp] theorem pkg_payOwed : (payOwed m s).pkg = s.pkg := by simp [payOwed]
@[simp] theorem pkg_sendNotice : (sendNotice w peer s).pkg = s.pkg := by simp only [sendNotice]; split <;> simp
@[simp] theorem pkg_parkForManager : (parkForManager s).pkg = s.pkg := by simp [parkForManager]
@[simp] theorem pkg_memberDown : (memberDown m s).pkg = s.pkg := by simp [memberDown]
@[simp] theorem pkg_memberUp : (memberUp m s).pkg = s.pkg := by simp [memberUp]
@[simp] theorem pkg_endAdmission : (endAdmission m s).pkg = s.pkg := by simp [endAdmission]
@[simp] theorem pkg_settlePair : (settlePair m s).pkg = s.pkg := by simp [settlePair]

theorem pkg_mgmtRecv {m counter : Nat} {tagOk : Bool} {t : State} (h : mgmtRecv m counter tagOk s = some t) :
    t.pkg = s.pkg := by
  simp only [mgmtRecv] at h
  split at h
  · cases h; simp
  · cases h

@[simp] theorem pkg_rekeyPair (secret : Nat) : (rekeyPair m secret s).pkg = s.pkg := pkg_forAll fun _ _ => by simp

/-! ### Ports and links -/

@[simp] theorem pkg_portReport (before : Nat) : (portReport port before s).pkg = s.pkg := by simp [portReport]
@[simp] theorem pkg_abortStepTasks : (abortStepTasks s).pkg = s.pkg := by simp [abortStepTasks]
@[simp] theorem pkg_leaveUp : (leaveUp port s).pkg = s.pkg := by simp [leaveUp]
@[simp] theorem pkg_portDown : (portDown port cause s).pkg = s.pkg := by simp [portDown]
@[simp] theorem pkg_portQuarantine : (portQuarantine port cause s).pkg = s.pkg := by simp [portQuarantine]
@[simp] theorem pkg_portGoUp (minor : Nat) : (portGoUp port minor s).pkg = s.pkg := by simp [portGoUp]
@[simp] theorem pkg_startTraining : (startTraining port s).pkg = s.pkg := by simp [startTraining]

@[simp] theorem pkg_checkMapping (r : IdRecord) : (checkMapping port r s).pkg = s.pkg := by
  simp only [checkMapping]
  repeat' split
  all_goals simp

@[simp] theorem pkg_dropReach (r : IdRecord) : (dropReach port r s).pkg = s.pkg := by simp [dropReach]

@[simp] theorem pkg_endIdentity (loopNs : Nat) : (endIdentity port loopNs s).pkg = s.pkg := by
  simp only [endIdentity]
  split <;> simp

@[simp] theorem pkg_trainStep (loopNs : Nat) : (trainStep port loopNs s).pkg = s.pkg := by
  simp only [trainStep]
  repeat' split
  all_goals simp

@[simp] theorem pkg_identity (r : IdRecord) : (identity port r s).pkg = s.pkg := by simp [identity]

@[simp] theorem pkg_replanPort : (replanPort s port).pkg = s.pkg := by
  simp only [replanPort]
  repeat' split
  all_goals simp

@[simp] theorem pkg_frameAck (ack : Nat) : (frameAck port ack s).pkg = s.pkg := by simp [frameAck]
@[simp] theorem pkg_frameNak : (frameNak port seq s).pkg = s.pkg := by simp [frameNak]
@[simp] theorem pkg_nakFrame : (nakFrame port s).pkg = s.pkg := by simp [nakFrame]
@[simp] theorem pkg_msgsArrive (direct : List Nat) : (msgsArrive port direct s).pkg = s.pkg := by simp [msgsArrive]

@[simp] theorem pkg_frameIn (ack : Nat) (lanes direct : List Nat) :
    (frameIn port seq ack lanes direct s).pkg = s.pkg := by
  simp [frameIn]

@[simp] theorem pkg_codewords (errs : List (List Nat)) : (codewords port errs s).pkg = s.pkg := by simp [codewords]

@[simp] theorem pkg_frameArrives {crcOk : Bool} {errs : List (List Nat)} {f : State → State}
    (h : ∀ s, (f s).pkg = s.pkg) :
    (frameArrives port crcOk errs f s).pkg = s.pkg := by
  simp [frameArrives, h]

@[simp] theorem pkg_lightPort (lasersOk lanesOk : Nat) : (lightPort lasersOk lanesOk s port).pkg = s.pkg := by
  simp [lightPort]

/-! ### Closes and commands that wait -/

@[simp] theorem pkg_closeWin : (closeWin w s).pkg = s.pkg := by
  simp only [closeWin]
  repeat' split
  all_goals simp

@[simp] theorem pkg_closeChan : (closeChan k s).pkg = s.pkg := by simp [closeChan]

@[simp] theorem pkg_cleanEvict : (cleanEvict addr s).pkg = s.pkg := by simp [cleanEvict]

@[simp] theorem pkg_endRing : (endRing ring s).2.pkg = s.pkg := by simp [endRing]

@[simp] theorem pkg_endCq : (endCq c s).pkg = s.pkg := by simp [endCq]

@[simp] theorem pkg_releaseGranule : (releaseGranule tile g s).pkg = s.pkg := by simp [releaseGranule]
@[simp] theorem pkg_swapTable (engine : Nat) : (swapTable tile engine slot s).pkg = s.pkg := by simp [swapTable]
@[simp] theorem pkg_finishLong (body : List Byte) : (finishLong q body s).pkg = s.pkg := by simp [finishLong]

@[simp] theorem pkg_tryFinish : (tryFinish s).pkg = s.pkg := by simp only [tryFinish]; split <;> simp

@[simp] theorem pkg_beginLong (l : LongCmd) : (beginLong l s).state.pkg = s.pkg := by simp [beginLong]

/-! ### Boot and standby -/

@[simp] theorem pkg_fetchWatched : (fetchWatched s).pkg = s.pkg := by simp [fetchWatched]
@[simp] theorem pkg_modFwSlot (i : Nat) (f : FwSlot → FwSlot) : (modFwSlot i f s).pkg = s.pkg := by simp [modFwSlot]
@[simp] theorem pkg_dropTransfer : (dropTransfer s).pkg = s.pkg := by simp only [dropTransfer]; split <;> simp
@[simp] theorem pkg_dropPending : (dropPending s).pkg = s.pkg := by simp [dropPending]
@[simp] theorem pkg_extendMeas (i d : Nat) : (extendMeas i d s).pkg = s.pkg := by simp [extendMeas]

@[simp] theorem pkg_measureBoot (ds : List Nat) : (measureBoot ds s).pkg = s.pkg := by simp [measureBoot]

@[simp] theorem pkg_logFallback : (logFallback s).pkg = s.pkg := by simp [logFallback]
@[simp] theorem pkg_bootRuns (ds : List Nat) : (bootRuns ds s).pkg = s.pkg := pkg_measureBoot ..
@[simp] theorem pkg_bootDead : (bootDead s).pkg = s.pkg := by simp [bootDead]

@[simp] theorem pkg_bootActive (activeOk otherOk : Bool) (ds : List Nat) :
    (bootActive activeOk otherOk ds s).pkg = s.pkg := by
  simp [bootActive]

@[simp] theorem pkg_bootVerify (pendingOk activeOk otherOk : Bool) (ds : List Nat) :
    (bootVerify pendingOk activeOk otherOk ds s).pkg = s.pkg := by
  simp only [bootVerify]
  split <;> simp

@[simp] theorem pkg_bootFree : (bootFree s).pkg = s.pkg := pkg_bootVerify ..
@[simp] theorem pkgData_exitStandby : pkgData (exitStandby s).pkg = pkgData s.pkg := by simp [exitStandby]

/-! ### The board cascade -/

@[simp] theorem pkg_cfSend (body : List Nat) : (cfSend code addr body s).pkg = s.pkg := by simp [cfSend]
@[simp] theorem pkg_cfUp (body : List Nat) : (cfUp code body s).pkg = s.pkg := pkg_cfSend ..
@[simp] theorem pkg_cfAll (body : List Nat) : (cfAll code body s).pkg = s.pkg := pkg_cfSend ..
@[simp] theorem pkg_cfRelay (src : Nat) (body : List Nat) : (cfRelay code src body s).pkg = s.pkg := pkg_cfSend ..
@[simp] theorem pkg_cfOn (body : List Nat) : (cfOn code body s).pkg = s.pkg := by simp [cfOn]
@[simp] theorem pkg_cascadeFault : (cascadeFault s).pkg = s.pkg := by simp [cascadeFault]
@[simp] theorem pkg_sendLoops : (sendLoops s).pkg = s.pkg := pkg_forAll fun _ _ => pkg_cfAll ..
@[simp] theorem pkg_finishRamp : (finishRamp s).pkg = s.pkg := by simp [finishRamp]
@[simp] theorem pkg_grantNext : (grantNext s).pkg = s.pkg := by simp only [grantNext]; split <;> simp
@[simp] theorem pkg_masterWaited : (masterWaited s).pkg = s.pkg := by simp [masterWaited]

@[simp] theorem pkg_slotEnds : (slotEnds s).pkg = s.pkg := by
  simp only [slotEnds]
  repeat' split
  all_goals simp

@[simp] theorem pkg_takeGrant : (takeGrant slot s).pkg = s.pkg := by simp [takeGrant]
@[simp] theorem pkg_grantTimeout : (grantTimeout s).pkg = s.pkg := by simp [grantTimeout]
@[simp] theorem pkg_soloRamp : (soloRamp s).pkg = s.pkg := by simp [soloRamp]
@[simp] theorem pkg_rampDoneIn (p : Nat) : (rampDoneIn p s).pkg = s.pkg := by simp [rampDoneIn]
@[simp] theorem pkg_rampDone : (rampDone s).pkg = s.pkg := by simp [rampDone]

@[simp] theorem pkg_helloIn (p serial : Nat) (onUp : Bool) : (helloIn p serial onUp s).pkg = s.pkg := by
  simp [helloIn]

@[simp] theorem pkg_boardIn (p : Nat) (present : Bool) (serial : Nat) : (boardIn p present serial s).pkg = s.pkg := by
  simp [boardIn]

@[simp] theorem pkg_countLoop (p : Nat) (good : Bool) : (countLoop p seq good s).pkg = s.pkg := by simp [countLoop]
@[simp] theorem pkg_loopIn (p pattern : Nat) : (loopIn p seq pattern s).pkg = s.pkg := by simp [loopIn]
@[simp] theorem pkg_faultIn (p : Nat) : (faultIn p cause s).pkg = s.pkg := by simp [faultIn]

@[simp] theorem pkg_cascadeResend : (cascadeResend s).pkg = s.pkg := by
  simp only [cascadeResend]
  split <;> simp

/-! ### Drains -/

@[simp] theorem pkg_drainDone : (drainDone t s).pkg = s.pkg := by simp only [drainDone]; split <;> simp
@[simp] theorem pkg_drainFor : (drainFor kind index s).pkg = s.pkg := by simp [drainFor]

@[simp] theorem pkg_granuleFreed : (granuleFreed g s).pkg = s.pkg := by simp only [granuleFreed]; split <;> simp

@[simp] theorem pkg_bankSwap (engine : Nat) : (bankSwap t engine s).pkg = s.pkg := by
  simp only [bankSwap]
  split <;> simp

@[simp] theorem pkg_sessionExpires : (sessionExpires s).pkg = s.pkg := by simp [sessionExpires]

/-! ### CUMIN -/

@[simp] theorem pkg_cmReadA (op : OpWord) (p : SlotAt) : (cmReadA op p r).2.2.pkg = r.2.pkg := by
  simp only [cmReadA]
  split <;> simp

@[simp] theorem pkg_cmReadTile (op : OpWord) (p : SlotAt) (rows : Nat) :
    (cmReadTile op p rows n r).2.2.pkg = r.2.pkg := by
  simp only [cmReadTile]
  split <;> simp

@[simp] theorem pkg_cmReadB {op : OpWord} {p : SlotAt} {left : Nat} : (cmReadB op p left n r).2.2.pkg = r.2.pkg := by
  induction n generalizing p left r with
  | zero => rfl
  | succ n ih => simp [cmReadB, ih]

@[simp] theorem pkg_cmProblem (f : OutFmt) (op : OpWord) (pa pb pc po : SlotAt) (p : Nat)
    (acc : OpFlags × Bool × State) : (cmProblem f op pa pb pc po p acc).2.2.pkg = acc.2.2.pkg := by
  simp only [cmProblem]
  repeat' split
  all_goals simp

@[simp] theorem pkg_cmWork : (cmWork tile e s).2.2.pkg = s.pkg := by simp only [cmWork]; split <;> simp
@[simp] theorem pkg_cmFinish : (cmFinish tile uid s).pkg = s.pkg := by simp only [cmFinish]; split <;> simp

/-! ### Start-up -/

@[simp] theorem pkg_inputIn (pos : Nat) : (inputIn pos s).pkg = s.pkg := by simp [inputIn]

@[simp] theorem pkg_perstOff (pendingOk activeOk otherOk : Bool) (ds : List Nat) :
    (perstOff pendingOk activeOk otherOk ds s).pkg = s.pkg := by
  simp [perstOff]

@[simp] theorem pkg_portsMayTrain : (portsMayTrain s).pkg = s.pkg := pkg_backReady ..

@[simp] theorem pkg_checkerEntry (tiles : Nat) : (checkerEntry tiles s).2.pkg = s.pkg := by simp [checkerEntry]

@[simp] theorem pkg_checkerDone (tiles fails : Nat) : (checkerDone tiles fails s).pkg = s.pkg := by simp [checkerDone]

/-! ### Scrubbers and self-tests -/

@[simp] theorem pkg_promoteTest (loc : Loc) : (promoteTest loc s).pkg = s.pkg := by simp only [promoteTest]
@[simp] theorem pkg_scrubSlot : (scrubSlot t s).pkg = s.pkg := by simp [scrubSlot]

@[simp] theorem pkgData_lapOverdue (slot : Bool) : pkgData (lapOverdue t slot s).pkg = pkgData s.pkg := by
  simp [lapOverdue]

@[simp] theorem pkg_loopbackDone (board : Bool) (lostPos lostPlane : List Nat) (elapsed : Nat) :
    (loopbackDone board lostPos lostPlane elapsed s).pkg = s.pkg := by
  simp only [loopbackDone]
  split <;> simp

/-! ### Tenancy -/

@[simp] theorem pkg_readCert (offset : Nat) : (readCert index offset s).state.pkg = s.pkg := by simp [readCert]
@[simp] theorem pkg_attestNow (nonce mask : Nat) : (attestNow nonce mask s).state.pkg = s.pkg := by simp [attestNow]

@[simp] theorem pkg_answerPeer (nonce ek : Nat) : (answerPeer m nonce ek s).pkg = s.pkg := by
  simp only [answerPeer]
  repeat' split
  all_goals simp

@[simp] theorem pkg_openPart0 (pk ek : Nat) : (openPart0 pk ek s).state.pkg = s.pkg := pkg_accept ..
@[simp] theorem pkg_newSession (pk ek : Nat) : (newSession pk ek s).2.2.pkg = s.pkg := by simp only [newSession]

@[simp] theorem pkg_openPart1 (sigOk rsvZero : Bool) : (openPart1 sigOk rsvZero s).state.pkg = s.pkg := by
  simp only [openPart1]
  split <;> simp

@[simp] theorem pkg_openSession (part pk ek : Nat) (sigOk : Bool) :
    (openSession q part pk ek sigOk s).state.pkg = s.pkg := by
  simp [openSession]

@[simp] theorem pkgData_claimFor (x : Session) (policy nfw : Nat) (allow : List Nat) :
    pkgData (claimFor x policy nfw allow s).pkg = pkgData s.pkg := by
  simp [claimFor]

@[simp] theorem pkgData_claim (session policy nfw : Nat) (allow : List Nat) :
    pkgData (claim session policy nfw allow s).state.pkg = pkgData s.pkg := by
  simp only [claim]
  split <;> simp

/-! ### Memory and rings, as group 4 sets them -/

@[simp] theorem pkgData_setRegions (l : List RegionEntry) : pkgData (setRegions l s).state.pkg = pkgData s.pkg := by
  simp [setRegions]

@[simp] theorem pkg_setHdmSize (units : Nat) : (setHdmSize units s).state.pkg = s.pkg := by simp [setHdmSize]

@[simp] theorem pkgData_setArb (share threshold : Nat) :
    pkgData (setArb share threshold s).state.pkg = pkgData s.pkg := by
  simp [setArb]

@[simp] theorem pkg_setTimeout (ms : Nat) : (setTimeout ms s).state.pkg = s.pkg := by simp [setTimeout]
@[simp] theorem pkg_createRing (r : RingParams) : (createRing r s).state.pkg = s.pkg := by simp [createRing]
@[simp] theorem pkg_createCq (r : RingParams) : (createCq r s).state.pkg = s.pkg := by simp [createCq]
@[simp] theorem pkg_destroyRing : (destroyRing q ring s).state.pkg = s.pkg := by simp [destroyRing]
@[simp] theorem pkg_destroyCq : (destroyCq q c s).state.pkg = s.pkg := by simp [destroyCq]

@[simp] theorem pkg_releaseSlots (count : Nat) : (releaseSlots q tile first count s).state.pkg = s.pkg := by
  simp [releaseSlots]

@[simp] theorem pkg_setWeights (w : WeightParams) : (setWeights w s).state.pkg = s.pkg := by simp [setWeights]

/-! ### Plan, jobs, channels, windows and ports, as group 5 sets them -/

@[simp] theorem pkg_setPlan (fabricId generation : Nat) (plan : List PlanEntry) :
    (setPlan fabricId generation plan s).state.pkg = s.pkg := by
  simp [setPlan]

@[simp] theorem pkg_setMembers (ids : List Nat) : (setMembers ids s).state.pkg = s.pkg := by simp [setMembers]
@[simp] theorem pkg_attestPeer : (attestPeer q peer s).state.pkg = s.pkg := by simp [attestPeer]

@[simp] theorem pkg_joinJob (job : Nat) (members : List Nat) (manager : Nat) :
    (joinJob job members manager s).state.pkg = s.pkg := by
  simp [joinJob]

@[simp] theorem pkg_openChannel (number low high : Nat) :
    (openChannel q number peer port low high s).state.pkg = s.pkg := by
  simp [openChannel]

@[simp] theorem pkg_closeChannel (number : Nat) : (closeChannel q number peer s).state.pkg = s.pkg := by
  simp [closeChannel]

@[simp] theorem pkg_openWindow (w : WindowParams) : (openWindow w s).state.pkg = s.pkg := by simp [openWindow]
@[simp] theorem pkg_closeWindow : (closeWindow q w s).state.pkg = s.pkg := by simp [closeWindow]
@[simp] theorem pkg_windowStatus : (windowStatus w s).state.pkg = s.pkg := by simp [windowStatus]

@[simp] theorem pkg_trustJob (job : Nat) : (trustJob job s).state.pkg = s.pkg := by
  simp only [trustJob]
  split <;> simp

@[simp] theorem pkg_overPorts {mask : Nat} {f : Nat → State → State} (h : ∀ p s, (f p s).pkg = s.pkg) :
    (overPorts mask f s).state.pkg = s.pkg := by
  simp [overPorts, h]

@[simp] theorem pkg_retrainPort (p : Nat) : (retrainPort p s).pkg = s.pkg := by simp [retrainPort]
@[simp] theorem pkg_disablePort (p : Nat) : (disablePort p s).pkg = s.pkg := by simp [disablePort]
@[simp] theorem pkg_enablePort (p : Nat) : (enablePort p s).pkg = s.pkg := by simp [enablePort]

/-! ### Drains, configurations and tables, as group 6 sets them -/

@[simp] theorem pkg_readCaps : (readCaps cls s).state.pkg = s.pkg := by simp [readCaps]
@[simp] theorem pkg_resumeJob (job : Nat) : (resumeJob job s).state.pkg = s.pkg := by simp [resumeJob]
@[simp] theorem pkg_drain (x : EngineSel) : (drain q x s).state.pkg = s.pkg := by simp [drain]

@[simp] theorem pkg_loadConfig (i : Nat) (c : List Byte) : (loadConfig i c s).state.pkg = s.pkg := by
  simp [loadConfig]

@[simp] theorem pkg_readTable : (readTable kind index s).state.pkg = s.pkg := by simp [readTable]
@[simp] theorem pkg_setFence (v : BitVec 64) : (setFence c v s).state.pkg = s.pkg := by simp [setFence]
@[simp] theorem pkg_readFences (count : Nat) : (readFences first count s).state.pkg = s.pkg := by simp [readFences]

@[simp] theorem pkg_configBarrier (b : BarrierParams) : (configBarrier b s).state.pkg = s.pkg := by
  simp [configBarrier]

/-! ### Firmware -/

@[simp] theorem pkg_eraseSlot : (eraseSlot slot s).pkg = s.pkg := by simp [eraseSlot]

@[simp] theorem pkg_openTransfer (owner size : Nat) : (openTransfer owner slot size s).2.pkg = s.pkg := by
  simp [openTransfer]

@[simp] theorem pkg_fwBegin (size : Nat) : (fwBegin q slot size s).state.pkg = s.pkg := by simp [fwBegin]

theorem pkg_takeChunk {x : Transfer} {full offset : Nat} {data : List Byte} {t : State}
    (h : takeChunk x full offset data s = some t) : t.pkg = s.pkg := by
  simp only [takeChunk] at h
  repeat' split at h
  all_goals cases h
  all_goals simp

@[simp] theorem pkg_fwTransfer {id offset : Nat} {data : List Byte} :
    (fwTransfer id offset data s).state.pkg = s.pkg := by
  simp only [fwTransfer]
  split
  · rfl
  · split
    · exact pkg_takeChunk ‹_›
    · rfl

@[simp] theorem pkg_markVerified (t : Transfer) (version svn : Nat) :
    (markVerified t version svn s).pkg = s.pkg := pkg_modFwSlot ..

@[simp] theorem pkg_fwVerify (verdict version svn : Nat) : (fwVerify id verdict version svn s).state.pkg = s.pkg := by
  simp only [fwVerify]
  split <;> simp

@[simp] theorem pkg_cancelTransfer (t : Transfer) : (cancelTransfer t s).pkg = s.pkg := by simp [cancelTransfer]

@[simp] theorem pkg_fwCancel : (fwCancel id s).state.pkg = s.pkg := by simp only [fwCancel]; split <;> simp
@[simp] theorem pkg_pldmAnswer (ok : Bool) : (pldmAnswer ok s).pkg = s.pkg := by simp [pldmAnswer]

@[simp] theorem pkg_pldmUpdate {f : State → Option State} (h : ∀ s t, f s = some t → t.pkg = s.pkg) :
    (pldmUpdate f s).pkg = s.pkg := by
  simp only [pldmUpdate]
  split
  · rfl
  · split
    · simp
    · split
      · simp [h _ _ ‹_›]
      · simp

theorem pkg_requestUpdate {slot size : Nat} {t : State} (h : requestUpdate slot size s = some t) : t.pkg = s.pkg := by
  simp only [requestUpdate] at h
  split at h
  · cases h; simp
  · cases h

@[simp] theorem pkg_pldmVerify (verdict version svn : Nat) : (pldmVerify verdict version svn s).pkg = s.pkg := by
  simp only [pldmVerify]
  split <;> simp

@[simp] theorem pkg_firmwareData {offset verdict version svn : Nat} {data : List Byte} :
    (firmwareData offset data verdict version svn s).pkg = s.pkg := by
  simp only [firmwareData]
  split
  · split
    · rfl
    · split
      · simp [pkg_takeChunk ‹_›]
      · rfl
  · rfl

theorem pkg_activateFirmware {selfContained : Bool} {t : State} (h : activateFirmware selfContained s = some t) :
    t.pkg = s.pkg := by
  simp only [activateFirmware] at h
  repeat' split at h
  all_goals cases h
  simp

theorem pkg_cancelUpdate {t : State} (h : cancelUpdate s = some t) : t.pkg = s.pkg := by
  obtain ⟨x, -, rfl⟩ := Option.map_eq_some_iff.mp h
  simp

/-! ### Memory controllers and sensors -/

@[simp] theorem pkgData_promoteReq : pkgData (promoteReq t c s).pkg = pkgData s.pkg := by
  simp only [promoteReq]
  split <;> simp

@[simp] theorem pkgData_refreshChan : pkgData (refreshChan t c s).pkg = pkgData s.pkg := by simp [refreshChan]
@[simp] theorem pkgData_relaxBand : pkgData (relaxBand t s).pkg = pkgData s.pkg := by simp [relaxBand]

@[simp] theorem pkg_crossed (sensor limit old new : Nat) : (crossed sensor limit old new s).pkg = s.pkg := by
  simp [crossed]

@[simp] theorem pkg_samplePower (mv ma : Nat) : (samplePower mv ma s).pkg = s.pkg := by
  simp only [samplePower]
  repeat' split
  all_goals simp

@[simp] theorem pkg_grantBudgets (asked : Bool) (grants : List Nat) :
    (grantBudgets asked grants s).pkg = s.pkg :=
  pkg_forAll fun _ _ => by simp

@[simp] theorem pkg_heartbeat : (heartbeat s).pkg = s.pkg := by simp [heartbeat]

/-! ### Registers -/

@[simp] theorem pkg_statusW1c (mb1 : Bool) (bits : Nat) : (statusW1c mb1 bits s).pkg = s.pkg := by simp [statusW1c]
@[simp] theorem pkg_overrunMb (mb1 : Bool) : (overrunMb mb1 s).pkg = s.pkg := by simp [overrunMb]
@[simp] theorem pkg_esClear (bits : BitVec 64) : (esClear bits s).pkg = s.pkg := by simp [esClear]

@[simp] theorem pkg_ovfClear (bank : Nat) (bits : BitVec 16) : (ovfClear bank bits s).pkg = s.pkg := by
  simp [ovfClear]

@[simp] theorem pkg_selWrite (bank : Nat) (v : BitVec 64) : (selWrite bank index v s).pkg = s.pkg := by
  simp only [selWrite]

@[simp] theorem pkg_selBusWrite (bank size : Nat) (v : BitVec 64) :
    (selBusWrite bank index size v s).pkg = s.pkg := by
  simp [selBusWrite]

@[simp] theorem pkg_evcZero : (evcZero s).pkg = s.pkg := by simp [evcZero]
@[simp] theorem pkg_evcHold (on : Bool) : (evcHold on s).pkg = s.pkg := by simp [evcHold]

/-! ### Monitoring, tests and the sideband -/

@[simp] theorem pkg_logOf (log : Nat) : (logOf log tile s).2.pkg = s.pkg := by
  simp only [logOf]
  repeat' split
  all_goals simp

@[simp] theorem pkg_logRead (log : Nat) : (logRead log tile first s).state.pkg = s.pkg := by simp [logRead]
@[simp] theorem pkg_logClear (log : Nat) : (logClear log tile s).state.pkg = s.pkg := by simp [logClear]

@[simp] theorem pkg_counterConfig (bank : Nat) (v : BitVec 64) :
    (counterConfig bank index v s).state.pkg = s.pkg := by
  simp [counterConfig]

@[simp] theorem pkg_counterRead (count : Nat) : (counterRead first count s).state.pkg = s.pkg := by simp [counterRead]

@[simp] theorem pkgData_scrubConfig (hours : Nat) : pkgData (scrubConfig hours s).state.pkg = pkgData s.pkg := by
  simp [scrubConfig]

@[simp] theorem pkgData_standbyExit : pkgData (standbyExit q s).state.pkg = pkgData s.pkg := by simp [standbyExit]

@[simp] theorem pkg_cascadeReset (pos level : Nat) : (cascadeReset q pos level s).state.pkg = s.pkg := by
  simp [cascadeReset]

@[simp] theorem pkgData_flipMask (slot : Bool) (unit : Nat) (mask : List Byte) :
    pkgData (flipMask slot tile unit mask s).state.pkg = pkgData s.pkg := by
  simp [flipMask]

@[simp] theorem pkg_testStarts (test : Nat) : (testStarts test s).pkg = s.pkg := by simp [testStarts]

@[simp] theorem pkg_testBist (tiles memory patterns : Nat) :
    (testBist q tiles memory patterns s).state.pkg = s.pkg := by
  simp [testBist]

@[simp] theorem pkg_sendTests : (sendTests s).pkg = s.pkg := pkg_forAll fun _ _ => by simp
@[simp] theorem pkg_sendBoard : (sendBoard s).pkg = s.pkg := by simp [sendBoard]

@[simp] theorem pkg_testLoopback (board : Bool) (mask : Nat) : (testLoopback q board mask s).state.pkg = s.pkg := by
  simp [testLoopback]

@[simp] theorem pkg_testResult (test : Nat) : (testResult test s).state.pkg = s.pkg := by simp [testResult]
@[simp] theorem pkg_entDaa : (entDaa addr s).pkg = s.pkg := by simp [entDaa]
@[simp] theorem pkg_setDasa (static : Nat) : (setDasa static addr s).pkg = s.pkg := by simp [setDasa]
@[simp] theorem pkg_setEid (eid : Nat) : (setEid eid s).pkg = s.pkg := by simp [setEid]
@[simp] theorem pkg_pldmBase (command : Nat) : (pldmBase command s).pkg = s.pkg := by simp [pldmBase]
@[simp] theorem pkg_pldmSensor (sensor : Nat) : (pldmSensor sensor s).pkg = s.pkg := by simp [pldmSensor]
@[simp] theorem pkg_setReceiver (eid : Nat) : (setReceiver eid s).pkg = s.pkg := by simp [setReceiver]

end

/-! ### The meanings of commands -/

/-- An outcome whose next state, if there is one, holds the data of package memory that `s` does. -/
def KeepsPkgData (s : State) (o : Host.Outcome State Fault Refusal) : Prop :=
  ∀ t, o = .next t → pkgData t.pkg = pkgData s.pkg

theorem keepsPkgData_next {s t : State} (h : pkgData t.pkg = pkgData s.pkg) : KeepsPkgData s (.next t) := by
  rintro _ ⟨⟩
  exact h

theorem keepsPkgData_of_listed {s : State} {c : Instr} (h : mayWritePackage c = false) (hc : mayWritePackage c = true) :
    KeepsPkgData s (exec c s) :=
  nomatch hc.symm.trans h

-- The arguments of the commands are never named below: without hygiene the file keeps no generated names for them.
set_option tactic.hygienic false in
/-- A command leaves the data of package memory, unless it is of the list. A slot engine's op does so without a parity
error. The meanings that split on more than a condition, or that go on with the state of a message received, have cases
of their own; every other is `.next` of one operation, whose rule closes its case. -/
theorem keepsPkgData_exec {c : Instr} (s : State) (h : mayWritePackage c = false) : KeepsPkgData s (exec c s) := by
  cases c
  all_goals try exact keepsPkgData_of_listed h rfl
  all_goals refine keepsPkgData_next ?_
  case cmMm | sfAttnFwd | sfAttnBwd | sfMerge | sfRope | smAdd | smMul | smMax | smMin | smCmp | smSelect | smConvert
    | smFunc | smGate | smRowsum | smRowmax | smRowdot | smRmsnorm | smLayernorm | smSoftmax | anSample | anVerify =>
    exact congrArg pkgData (pkg_withParity h (by simp))
  case noOp | ctlFenceWait | fenceWaitRelease | ctlFenceSignal | ctlBarrierArrive | ctlBarrierWait | ctlStepLoop
    | ctlStepLoopEnd | busyResendTimer | slotWindowClaim | trainingStepTimeout | portRetrainTimer | laneFail =>
    split <;> simp
  case ctlFenceSignalRemote | paResp =>
    repeat' split
    all_goals simp
  case msgAbort =>
    repeat' split
    · rfl
    · simp [pkg_stepRecv ‹_›]
    · simp
  case msgResult | msgFault | msgAbortDone =>
    split
    · split
      · simp
      · have hrecv := pkg_stepRecv ‹_›
        repeat' split
        all_goals simp [hrecv]
    · rfl
  case windowNotice | pairRekey =>
    split
    · simp [pkg_mgmtRecv ‹_›]
    · simp
  case requestUpdate => exact congrArg pkgData (pkg_pldmUpdate fun _ _ => pkg_requestUpdate)
  case activateFirmware => exact congrArg pkgData (pkg_pldmUpdate fun _ _ => pkg_activateFirmware)
  case cancelUpdate => exact congrArg pkgData (pkg_pldmUpdate fun _ _ => pkg_cancelUpdate)
  all_goals simp

/-! ### O53 -/

/-- Settles O53: a command that is not of the list keeps bytes and poison marks, whatever it runs. -/
theorem packageMemoryFrame : Obligations.PackageMemoryFrame := by
  unfold Obligations.PackageMemoryFrame
  intro c s t hc ht
  exact pkgData_eq_iff.mp (keepsPkgData_exec s hc t ht)

end Sys2Proof.Machine
end

section
/-!
The accesses of BAR0 and BAR2 on which the model stops (R457, R628): what decides each, and that nothing else of
`BAR2_ACCESS` and `REGISTER_WRITE` does.
-/
namespace Sys2Proof.Machine

/-- R457: the CXL component registers are the range of BAR0 from `0xA000` to `0xAFFF`. -/
theorem isComponent_iff {off : Nat} : isComponent off = true ↔ 0xA000 ≤ off ∧ off < 0xB000 := by
  simp [isComponent]

/-- R628: internal state is target 3 of an open aperture, past the control page, under debug scope bit 0. -/
theorem internalAccess_iff {off : Nat} {s : State} :
    internalAccess off s = true ↔ bar0Open s = true ∧ bar2Open s = true ∧ 0x10000 ≤ off ∧ s.sens.dgTarget = 3
      ∧ bit s.sec.debugScope 0 = true := by
  simp [internalAccess, and_assoc]

theorem internalAccess_eq_false {off : Nat} {s : State}
    (h : off < 0x10000 ∨ s.sens.dgTarget ≠ 3 ∨ bit s.sec.debugScope 0 = false) : internalAccess off s = false := by
  refine Bool.eq_false_iff.mpr fun hi => ?_
  obtain ⟨-, -, hoff, htarget, hscope⟩ := internalAccess_iff.mp hi
  rcases h with h | h | h
  · omega
  · exact h htarget
  · exact absurd hscope (by simp [h])

section
variable {s : State} {w : Bool} {off size v : Nat} {bs : List Byte}

theorem exec_bar2Access_refused (h : internalAccess off s = true) :
    exec (.bar2Access w off size bs) s = .refused .internalStateAperture := if_pos h

theorem exec_bar2Access_next (h : internalAccess off s = false) : ∃ t, exec (.bar2Access w off size bs) s = .next t :=
  ⟨_, if_neg (Bool.eq_false_iff.mp h)⟩

theorem exec_registerWrite_bar2_refused (h : internalAccess off s = true) :
    exec (.registerWrite true off size v) s = .refused .internalStateAperture := if_pos h

theorem exec_registerWrite_bar2_next (h : internalAccess off s = false) :
    ∃ t, exec (.registerWrite true off size v) s = .next t :=
  ⟨_, if_neg (Bool.eq_false_iff.mp h)⟩

theorem exec_registerWrite_bar0_refused (hc : isComponent off = true) (ho : bar0Open s = true) :
    exec (.registerWrite false off size v) s = .refused .cxlComponentRegister :=
  if_pos (by simp [hc, ho])

theorem exec_registerWrite_bar0_next (hc : isComponent off = false) :
    ∃ t, exec (.registerWrite false off size v) s = .next t :=
  ⟨_, if_neg (by simp [hc])⟩

end

/-! ### O11 -/

/-- Settles O11: the two conditions on which the commands stop, and their failures. -/
theorem registerCommandsStop : Obligations.RegisterCommandsStop := by
  unfold Obligations.RegisterCommandsStop
  refine ⟨fun s off size v ho hlo hhi => ?component, fun s w off size bs ho ho2 hoff ht hb => ?access,
    fun s off size v ho ho2 hoff ht hb => ?write, fun s off size v h => ?writeNext, fun s off size v h => ?bar0Next,
    fun s w off size bs h => ?accessNext⟩
  case component => exact exec_registerWrite_bar0_refused (isComponent_iff.mpr ⟨hlo, hhi⟩) ho
  case access => exact exec_bar2Access_refused (internalAccess_iff.mpr ⟨ho, ho2, hoff, ht, hb⟩)
  case write => exact exec_registerWrite_bar2_refused (internalAccess_iff.mpr ⟨ho, ho2, hoff, ht, hb⟩)
  case writeNext => exact exec_registerWrite_bar2_next (internalAccess_eq_false h)
  case bar0Next =>
    refine exec_registerWrite_bar0_next (Bool.eq_false_iff.mpr fun hc => ?_)
    have := isComponent_iff.mp hc
    omega
  case accessNext => exact exec_bar2Access_next (internalAccess_eq_false h)

end Sys2Proof.Machine
end

section
/-!
The configuration space (R456) under every operation. Training of the link alone writes it, and there the two `Capable`
bits (R454); a module reset and the loss of input power put it back to its reset value; everything else leaves
`s.host.space` as it was. One rule per operation says so, in the order of the model's files, and the rules are `simp`
lemmas: those of `Laws` where they have one, else those below. A helper that one operation alone calls is unfolded in
that operation's rule. The commands and the empty queue follow at the end, and with them O59.
-/
namespace Sys2Proof.Machine

-- Many rules elaborated at once take more memory than the check of the whole text has left.
set_option Elab.async false

/-! ### R456's values -/

/-- R456's values are read from configuration space alone. -/
theorem spaceFixed_of_eq {s t : State} (h : t.host.space = s.host.space) (hs : SpaceFixed s) : SpaceFixed t := by
  rwa [SpaceFixed, h]

/-- A host link at reset has R456's values. -/
theorem spaceFixed_of_reset {s : State} (h : s.host.space = {}) : SpaceFixed s := by simp [SpaceFixed, h]

/-! ### Branches and folds -/

@[simp] theorem space_ite (c : Prop) [Decidable c] (s t : State) :
    (if c then s else t).host.space = if c then s.host.space else t.host.space := apply_ite (·.host.space) c s t

section
variable {α β γ : Type} {xs : List α}

@[simp] theorem space_forAll {f : State → α → State} (h : ∀ s x, (f s x).host.space = s.host.space) {s : State} :
    (forAll xs f s).host.space = s.host.space := forAll_keeps (·.host.space) h s

@[simp] theorem space_foldl {f : State → α → State} (h : ∀ s x, (f s x).host.space = s.host.space) {s : State} :
    (xs.foldl f s).host.space = s.host.space := forAll_keeps (·.host.space) h s

/-- The rule of a fold whose accumulator carries the state in its component `g`. -/
theorem space_foldl_of (g : β → State) {f : β → α → β} (h : ∀ a x, (g (f a x)).host.space = (g a).host.space) (a : β) :
    (g (xs.foldl f a)).host.space = (g a).host.space := by
  induction xs generalizing a with
  | nil => rfl
  | cons x xs ih => exact (ih (f a x)).trans (h a x)

@[simp] theorem space_foldl_snd {f : β × State → α → β × State} (h : ∀ a x, (f a x).2.host.space = a.2.host.space)
    {a : β × State} : (xs.foldl f a).2.host.space = a.2.host.space := space_foldl_of (·.2) h a

@[simp] theorem space_foldl_snd_snd {f : β × γ × State → α → β × γ × State}
    (h : ∀ a x, (f a x).2.2.host.space = a.2.2.host.space) {a : β × γ × State} :
    (xs.foldl f a).2.2.host.space = a.2.2.host.space := space_foldl_of (·.2.2) h a

@[simp] theorem space_foldl_run {f : FnRun → α → FnRun} (h : ∀ a x, (f a x).s.host.space = a.s.host.space) {a : FnRun} :
    (xs.foldl f a).s.host.space = a.s.host.space := space_foldl_of FnRun.s h a

end

section
variable {s : State} {r : Bool × State} {e : Entry} {q : Req}
  {tile uid cls code k n w c t b a m g who port ring slot index dpa addr off hint id cq stream first kind seq cause
   peer ack at0 bank base count counter eid ek elapsed engine fault fmt h hi high inst job key keySet l line lo log
   loopNs low m2digest mask member nonce number offset opIx own owner page pattern pos reason rowPitch rows sensor
   serial size src status step svn tag taskId test tiles value verdict version : Nat}
  {activeOk aon board caches dirty failed mb1 ok otherOk pendingOk poison scaled sigOk sourceOk weights write : Bool}
  {body ds members toks vals : List Nat} {bs data : List Byte} {j : FnJob} {loc : Loc} {op : OpWord} {p ps : SlotAt}
  {x : EngineSel}

/-! ### Outputs, event counters, interrupts, logs, module state -/

@[simp] theorem space_modTask (f : Task → Task) : (modTask s t k f).host.space = s.host.space := by simp [modTask]

@[simp] theorem space_modEngine (f : Engine → Engine) : (modEngine s t cls inst f).host.space = s.host.space := by
  simp [modEngine]

@[simp] theorem space_esFault (task : Nat) : (esFault code task s).host.space = s.host.space := by simp [esFault]
@[simp] theorem space_askDescs : (askDescs s ring).host.space = s.host.space := by simp [askDescs]
@[simp] theorem space_askAll : (askAll s).host.space = s.host.space := by simp [askAll]

@[simp] theorem space_settleReady : (settleReady s).host.space = s.host.space := by
  simp only [settleReady]; split <;> simp

/-! ### Package memory, slot memory, tags and claims -/

@[simp] theorem space_noteBad : (noteBad dpa s).host.space = s.host.space := by simp only [noteBad]; split <;> simp
@[simp] theorem space_pkgPoison (b : Bool) : (pkgPoison c b s).host.space = s.host.space := by simp [pkgPoison]
@[simp] theorem space_pkgBytes : (pkgBytes a bs s).host.space = s.host.space := by simp [pkgBytes]
@[simp] theorem space_dramWrite : (dramWrite cls c s).host.space = s.host.space := by simp [dramWrite, pkgError]

@[simp] theorem space_dramRead : (dramRead cls c dpa s).2.host.space = s.host.space := by
  simp only [dramRead]
  repeat' split
  all_goals simp

@[simp] theorem space_putCache (l : List CacheLine) : (putCache c l s).host.space = s.host.space := by simp [putCache]
@[simp] theorem space_bare : (bare c s).host.space = s.host.space := by simp only [bare]; split <;> simp
@[simp] theorem space_cacheUe : (cacheUe c s).host.space = s.host.space := by simp [cacheUe]

@[simp] theorem space_writeBack (l : CacheLine) : (writeBack key l s).host.space = s.host.space := by
  simp [writeBack, cover]

@[simp] theorem space_scrubUnder {read : State → Bool × State} (h : ∀ s, (read s).2.host.space = s.host.space) :
    (scrubUnder c dirty read s).host.space = s.host.space := by
  simp [scrubUnder, h]

@[simp] theorem space_cacheAlloc (keep : Bool) : (cacheAlloc c keep dirty s).host.space = s.host.space := by
  simp only [cacheAlloc]
  repeat' split
  all_goals simp

@[simp] theorem space_cacheHit : (cacheHit c hint write s).host.space = s.host.space := by
  simp only [cacheHit]; split <;> simp

@[simp] theorem space_checkLine : (checkLine c s).host.space = s.host.space := by simp only [checkLine]; split <;> simp

@[simp] theorem space_cacheAccess (whole : Bool) :
    (cacheAccess cls c hint write whole s).host.space = s.host.space := by
  simp [cacheAccess]

@[simp] theorem space_cacheEvict : (cacheEvict c s).host.space = s.host.space := by
  simp only [cacheEvict]; split <;> simp

@[simp] theorem space_cacheFlush : (cacheFlush s).host.space = s.host.space := by simp [cacheFlush]
@[simp] theorem space_noteTouch : (noteTouch dpa write s).host.space = s.host.space := by simp [noteTouch]

@[simp] theorem space_readCw : (readCw cls hint dpa s).2.host.space = s.host.space := by
  simp only [readCw]
  repeat' split
  all_goals simp

@[simp] theorem space_readCws : (readCws cls hint w n s).2.host.space = s.host.space := by
  induction n generalizing w s with
  | zero => rfl
  | succ n ih => simp [readCws, ih]

@[simp] theorem space_pkgRead : (pkgRead cls hint dpa n s).2.host.space = s.host.space := by simp [pkgRead]

@[simp] theorem space_writeLine (bad : Bool) : (writeLine cls hint dpa bs bad s).host.space = s.host.space := by
  simp [writeLine, writeCw]

@[simp] theorem space_writeLines {bad : Bool} : (writeLines cls hint dpa bs bad n s).host.space = s.host.space := by
  induction n generalizing dpa bs s with
  | zero => rfl
  | succ n ih => simp [writeLines, ih]

@[simp] theorem space_pkgWrite (bad : Bool) : (pkgWrite cls hint dpa bs bad s).host.space = s.host.space := by
  simp [pkgWrite]

@[simp] theorem space_poisonCw : (poisonCw dpa s).host.space = s.host.space := by simp [poisonCw]
@[simp] theorem space_pkgFill : (pkgFill s).host.space = s.host.space := by simp [pkgFill]
@[simp] theorem space_slotFill : (slotFill s).host.space = s.host.space := by simp [slotFill]
@[simp] theorem space_clearFlips : (clearFlips s).host.space = s.host.space := by simp [clearFlips]
@[simp] theorem space_setTag (t : BitVec 8) : (setTag tile g t s).host.space = s.host.space := by simp [setTag]
@[simp] theorem space_tagRead : (tagRead tile g s).host.space = s.host.space := by simp [tagRead]
@[simp] theorem space_slotPut : (slotPut tile a bs s).host.space = s.host.space := by simp [slotPut]
@[simp] theorem space_halfWrite : (halfWrite tile h s).host.space = s.host.space := by simp [halfWrite, slotError]

@[simp] theorem space_halfFind : (halfFind tile h s).2.host.space = s.host.space := by
  simp only [halfFind]
  repeat' split
  all_goals simp

@[simp] theorem space_halfRead : (halfRead tile h s).2.host.space = s.host.space := by simp [halfRead]

@[simp] theorem space_halfReads : (halfReads tile h n s).2.host.space = s.host.space := by
  induction n generalizing h s with
  | zero => rfl
  | succ n ih => simp [halfReads, ih]

@[simp] theorem space_slotRead : (slotRead who tile a n s).2.host.space = s.host.space := by simp [slotRead]

@[simp] theorem space_slotLine : (slotLine who tile a bs s).2.host.space = s.host.space := by
  simp only [slotLine]
  repeat' split
  all_goals simp [mergeHalf]

@[simp] theorem space_slotLines : (slotLines who tile a bs n s).2.host.space = s.host.space := by
  induction n generalizing a bs s with
  | zero => rfl
  | succ n ih => simp only [slotLines]; split <;> simp [ih]

@[simp] theorem space_slotWrite : (slotWrite who tile a bs s).2.host.space = s.host.space := by simp [slotWrite]
@[simp] theorem space_claimOut : (claimOut owner tile g s).host.space = s.host.space := by simp [claimOut]
@[simp] theorem space_claimIn : (claimIn tile g s).host.space = s.host.space := by simp [claimIn]
@[simp] theorem space_unclaimOut : (unclaimOut owner tile g s).host.space = s.host.space := by simp [unclaimOut]

/-! ### Op lists and descriptors, as PEPPER reads them -/

@[simp] theorem space_readOps : (readOps dpa n s).2.host.space = s.host.space := by simp [readOps]
@[simp] theorem space_readDesc : (readDesc addr s).2.host.space = s.host.space := by simp [readDesc]

@[simp] theorem space_admission (set : Option StepSetParams) :
    (admission own addr set s).2.host.space = s.host.space := by
  simp only [admission]
  repeat' split
  all_goals simp

/-! ### Frames, packets and messages that go out -/

@[simp] theorem space_sendFrame (payload : List Byte) :
    (sendFrame port kind seq payload s).host.space = s.host.space := by
  simp [sendFrame]

@[simp] theorem space_pumpFrames : (pumpFrames port n s).host.space = s.host.space := by
  induction n generalizing s with
  | zero => rfl
  | succ n ih => simp [pumpFrames, ih]

@[simp] theorem space_handOver (bytes : List Byte) : (handOver port bytes s).host.space = s.host.space := by
  simp [handOver]

@[simp] theorem space_putOut (op : Nat) (p : Packet) (wire : List Byte) :
    (putOut port op p wire s).host.space = s.host.space := by
  simp [putOut]

@[simp] theorem space_mgmtVia : (mgmtVia port peer counter code body s).host.space = s.host.space := by simp [mgmtVia]

@[simp] theorem space_mgmtSend : (mgmtSend peer code body s).host.space = s.host.space := by
  simp only [mgmtSend]; split <;> simp

@[simp] theorem space_reportSend (o : Nat → Out) : (reportSend o s).host.space = s.host.space := by
  simp only [reportSend]; split <;> simp

@[simp] theorem space_askRekey : (askRekey k s).host.space = s.host.space := by simp [askRekey]
@[simp] theorem space_nextSeq : (nextSeq k s).host.space = s.host.space := by simp [nextSeq]
@[simp] theorem space_beginRoll : (beginRoll k s).host.space = s.host.space := by simp [beginRoll]

@[simp] theorem space_pumpOne : (pumpOne k s).host.space = s.host.space := by
  simp only [pumpOne]
  repeat' split
  all_goals simp

@[simp] theorem space_pumpMany : (pumpMany k n s).host.space = s.host.space := by
  induction n generalizing s with
  | zero => rfl
  | succ n ih => simp [pumpMany, ih]

@[simp] theorem space_pump : (pump k s).host.space = s.host.space := by simp [pump]
@[simp] theorem space_pumpPort : (pumpPort port s).host.space = s.host.space := by simp [pumpPort]

@[simp] theorem space_sendPacket (b : PktBody) : (sendPacket k owner b s).host.space = s.host.space := by
  simp [sendPacket]

@[simp] theorem space_sendReply (b : PktBody) : (sendReply k b s).host.space = s.host.space := by simp [sendReply]

@[simp] theorem space_stepSendOut (o : Out) : (stepSendOut member code o s).host.space = s.host.space := by
  simp [stepSendOut]

@[simp] theorem space_stepSend : (stepSend member code body s).host.space = s.host.space := by simp [stepSend]

@[simp] theorem space_stepSendAll : (stepSendAll code body s).host.space = s.host.space := by
  simp only [stepSendAll]; split <;> simp

/-! ### Fences and barriers -/

@[simp] theorem space_fencePut (v : Nat) : (fencePut c v s).host.space = s.host.space := by simp [fencePut]
@[simp] theorem space_noteWaits : (noteWaits s).host.space = s.host.space := by simp [noteWaits]
@[simp] theorem space_fenceAdd : (fenceAdd c n s).host.space = s.host.space := by simp [fenceAdd]
@[simp] theorem space_fenceLocal : (fenceLocal c n s).host.space = s.host.space := by simp [fenceLocal]
@[simp] theorem space_barReleased : (barReleased b g failed code s).host.space = s.host.space := by simp [barReleased]
@[simp] theorem space_barFinish : (barFinish b g failed code members s).host.space = s.host.space := by simp [barFinish]
@[simp] theorem space_rootArrive : (rootArrive b member g s).host.space = s.host.space := by simp [rootArrive]
@[simp] theorem space_barSetup (p : BarrierParams) : (barSetup p s).host.space = s.host.space := by simp [barSetup]

/-! ### Completion records -/

@[simp] theorem space_d2hDone : (d2hDone id s).host.space = s.host.space := by simp [d2hDone]

@[simp] theorem space_queueRecord (r : RecFields) : (queueRecord cq index r s).host.space = s.host.space := by
  simp only [queueRecord]; split <;> simp

@[simp] theorem space_taskRecord (st : EngStatus) :
    (taskRecord ring index fault taskId opIx tile st s).host.space = s.host.space := by
  simp [taskRecord]

@[simp] theorem space_updateRecord : (updateRecord ring index slot status s).host.space = s.host.space := by
  simp [updateRecord]

@[simp] theorem space_jobFaultRecord (aborts : Nat) :
    (jobFaultRecord step code aborts s).host.space = s.host.space := by
  simp [jobFaultRecord]

@[simp] theorem space_ringError (tail : Nat) : (ringError ring cause tail s).host.space = s.host.space := by
  simp only [ringError]; split <;> simp

@[simp] theorem space_startRecord : (startRecord cq s).host.space = s.host.space := by
  simp only [startRecord]; split <;> simp

@[simp] theorem space_recordLineDone : (recordLineDone cq s).host.space = s.host.space := by
  simp only [recordLineDone]
  repeat' split
  all_goals simp

@[simp] theorem space_recordDone : (recordDone cq s).host.space = s.host.space := by
  simp only [recordDone]; split <;> simp [retire, announce]

/-! ### Window entries, tasks, faults, the ends of ops, the edges of a step -/

@[simp] theorem space_modEntry (f : Entry → Entry) : (modEntry tile uid f s).host.space = s.host.space := by
  simp [modEntry]

@[simp] theorem space_dropEntry : (dropEntry tile uid s).host.space = s.host.space := by simp [dropEntry]
@[simp] theorem space_freeTask : (freeTask tile k s).host.space = s.host.space := by simp [freeTask]
@[simp] theorem space_headWord : (headWord addr s).2.host.space = s.host.space := by simp [headWord]
@[simp] theorem space_bindTask : (bindTask tile k s).host.space = s.host.space := by simp [bindTask, startTask]
@[simp] theorem space_parkTask : (parkTask tile k s).host.space = s.host.space := by simp [parkTask]

@[simp] theorem space_completeTask : (completeTask tile k s).host.space = s.host.space := by
  simp only [completeTask]; split <;> simp [signalTask]

@[simp] theorem space_endFaulted : (endFaulted tile k s).host.space = s.host.space := by
  simp only [endFaulted]; split <;> simp

@[simp] theorem space_settleTask : (settleTask tile k s).host.space = s.host.space := by
  simp only [settleTask]
  repeat' split
  all_goals simp

@[simp] theorem space_mgrAbort : (mgrAbort code weights s).host.space = s.host.space := by
  simp only [mgrAbort]; split <;> simp

@[simp] theorem space_stepFault : (stepFault code taskId tile weights s).host.space = s.host.space := by
  simp only [stepFault]
  repeat' split
  all_goals simp

@[simp] theorem space_faultTask : (faultTask tile k code opIx s).host.space = s.host.space := by simp [faultTask]

@[simp] theorem space_releaseClaims : (releaseClaims tile e s).host.space = s.host.space := by
  simp [releaseClaims, unclaimIn]

@[simp] theorem space_freeInstance : (freeInstance tile e s).host.space = s.host.space := by simp [freeInstance]

@[simp] theorem space_failOp : (failOp tile uid code s).host.space = s.host.space := by
  simp only [failOp]; split <;> simp

@[simp] theorem space_completeOp (st : EngStatus) : (completeOp tile uid st s).host.space = s.host.space := by
  simp only [completeOp]; split <;> simp [completeTags, countCross]

@[simp] theorem space_cancelOps : (cancelOps tile k s).host.space = s.host.space := by simp [cancelOps]

@[simp] theorem space_sendForOp (b : PktBody) : (sendForOp k tile uid b s).host.space = s.host.space := by
  simp [sendForOp]

@[simp] theorem space_settlePacket : (settlePacket own code s).host.space = s.host.space := by
  simp only [settlePacket]
  repeat' split
  all_goals simp

@[simp] theorem space_winClaim : (winClaim w s).host.space = s.host.space := by simp only [winClaim]; split <;> simp
@[simp] theorem space_winBegin : (winBegin w s).host.space = s.host.space := by simp [winBegin]
@[simp] theorem space_winDiscard : (winDiscard w s).host.space = s.host.space := by simp [winDiscard]

@[simp] theorem space_bindStep (h : StepHeader) : (bindStep h toks s).host.space = s.host.space := by
  simp only [bindStep]; split <;> simp [drainPending, windowsBind]

@[simp] theorem space_tryBind : (tryBind s).host.space = s.host.space := by
  simp only [tryBind]
  repeat' split
  all_goals simp

@[simp] theorem space_cancelTask (acc : List Ended × State) :
    (cancelTask tile k acc).2.host.space = acc.2.host.space := by
  simp only [cancelTask]; split <;> simp

@[simp] theorem space_cancelTile {sel : EngineSel} {acc : List Ended × State} :
    (cancelTile sel tile acc).2.host.space = acc.2.host.space := by
  simp only [cancelTile]
  rw [space_foldl_snd]
  · simp
  · intro a w; split; split <;> simp
    simp

@[simp] theorem space_cancelTasks (q : EngineSel) : (cancelTasks q s).2.host.space = s.host.space := by
  simp [cancelTasks]

@[simp] theorem space_enterFailed : (enterFailed s).host.space = s.host.space := by
  simp only [enterFailed]
  repeat' split
  all_goals simp

@[simp] theorem space_cannotHold : (cannotHold s).host.space = s.host.space := by simp [cannotHold]

/-! ### Operands in memory, with poison -/

@[simp] theorem space_halfFlags : (halfFlags tile h n s).2.host.space = s.host.space := by
  induction n generalizing h s with
  | zero => rfl
  | succ n ih => simp [halfFlags, ih]

@[simp] theorem space_slotReadP : (slotReadP who tile a n s).2.host.space = s.host.space := by
  simp only [slotReadP]; split <;> simp

@[simp] theorem space_pkgReadP : (pkgReadP cls hint dpa n s).2.host.space = s.host.space := by simp [pkgReadP]

@[simp] theorem space_writeLinesP {bs : List PByte} : (writeLinesP cls hint dpa bs n s).host.space = s.host.space := by
  induction n generalizing dpa bs s with
  | zero => rfl
  | succ n ih => simp [writeLinesP, ih, writeLineP]

@[simp] theorem space_pkgWriteP (bs : List PByte) : (pkgWriteP cls hint dpa bs s).host.space = s.host.space := by
  simp [pkgWriteP]

@[simp] theorem space_rd : (rd who p n r).2.2.host.space = r.2.host.space := by simp only [rd]; split <;> simp

@[simp] theorem space_rdRows : (rdRows who fmt n rowPitch p rows r).2.2.host.space = r.2.host.space := by
  induction rows generalizing p r with
  | zero => rfl
  | succ rows ih => simp [rdRows, ih]

@[simp] theorem space_rdScales (per : Nat) : (rdScales who p rows per r).2.2.host.space = r.2.host.space := by
  simp [rdScales]

@[simp] theorem space_wr : (wr who p bs r).2.host.space = r.2.host.space := by simp only [wr]; split <;> simp

@[simp] theorem space_wrRows {rows : List (List Nat)} :
    (wrRows who fmt rowPitch p rows r).2.host.space = r.2.host.space := by
  induction rows generalizing p r with
  | nil => rfl
  | cons row rows ih => simp [wrRows, ih]

@[simp] theorem space_internalKind : (internalKind cls s).2.host.space = s.host.space := by
  simp only [internalKind]; split <;> simp

@[simp] theorem space_engineError : (engineError tile uid e s).host.space = s.host.space := by simp [engineError]

@[simp] theorem space_withParity {parity : Bool} {f : State → State} (h : ∀ s, (f s).host.space = s.host.space) :
    (withParity tile uid cls code parity f s).host.space = s.host.space := by
  simp only [withParity]
  split
  · split <;> simp
  · exact h s

@[simp] theorem space_endRun (r : EngRun) : (endRun tile uid r).host.space = r.2.2.host.space := by simp [endRun, endOp]

/-! ### CLOVE -/

@[simp] theorem space_queueClove : (queueClove tile e s).host.space = s.host.space := by simp [queueClove, queueReq]

@[simp] theorem space_sendReads : (sendReads tile e s).host.space = s.host.space := by
  simp only [sendReads]; split <;> simp

@[simp] theorem space_readPieces (pl : Place) (ps : List (Nat × Nat)) :
    (readPieces pl ps s).2.host.space = s.host.space := by
  simp only [readPieces]; split <;> simp

@[simp] theorem space_writeLocal (pl : Place) (ws : List (Nat × Data)) :
    (writeLocal cls hint pl ws r).2.host.space = r.2.host.space := by
  simp only [writeLocal]; split <;> simp

@[simp] theorem space_sendFar (pl : Place) (ws : List (Nat × Data)) :
    (sendFar tile uid pl ws s).host.space = s.host.space := by
  simp only [sendFar]; split <;> simp

@[simp] theorem space_awaitPackets : (awaitPackets tile uid s).host.space = s.host.space := by
  simp only [awaitPackets]; split <;> simp

@[simp] theorem space_clCount (rdn wrn : Nat) : (clCount tile e rdn wrn s).host.space = s.host.space := by
  simp [clCount]

@[simp] theorem space_clRead : (clRead tile e s).2.host.space = s.host.space := by simp only [clRead]; split <;> simp
@[simp] theorem space_clReady : (clReady tile e s).host.space = s.host.space := by simp [clReady, addStatus]

@[simp] theorem space_clTransfer : (clTransfer tile e s).host.space = s.host.space := by
  simp only [clTransfer]; split <;> simp [clLocal]

@[simp] theorem space_clFinish : (clFinish tile uid code s).host.space = s.host.space := by
  simp only [clFinish]; split <;> simp

@[simp] theorem space_kvFinish : (kvFinish tile uid code s).host.space = s.host.space := by
  simp only [kvFinish]
  repeat' split
  all_goals simp [kvGather, kvAppend]

/-! ### PEPPER: admission, filling, issue -/

@[simp] theorem space_pllOn : (pllOn tile s).host.space = s.host.space := by simp [pllOn]
@[simp] theorem space_addTask (k : Task) : (addTask tile k s).host.space = s.host.space := by simp [addTask]

@[simp] theorem space_nextAdmit : (nextAdmit s tile).2.host.space = s.host.space := by
  simp only [nextAdmit]
  split
  · rfl
  · split
    · rfl
    · refine space_foldl_snd (fun a w => ?_)
      split <;> simp [waitingPrio]

@[simp] theorem space_refuseTask (src : TaskSource) (d : DescWord) :
    (refuseTask tile src d code index s).host.space = s.host.space := by
  simp only [refuseTask]; split <;> simp

@[simp] theorem space_admitNext : (admitNext tile s).host.space = s.host.space := by
  have hnext := space_nextAdmit (s := s) (tile := tile)
  simp only [admitNext]
  split
  · rfl
  · split <;> rename_i heq <;> simp only [heq] at hnext
    · exact hnext
    · split <;> simp [hnext]

@[simp] theorem space_advanceTask : (advanceTask tile k s).host.space = s.host.space := by simp [advanceTask]

@[simp] theorem space_fillLoop : (fillLoop tile n s).host.space = s.host.space := by
  induction n generalizing s with
  | zero => rfl
  | succ n ih =>
    simp only [fillLoop]
    split
    · rfl
    · split <;> simp [ih, fillOp, readBlock]

@[simp] theorem space_countIssue : (countIssue tile e s).host.space = s.host.space := by simp [countIssue]
@[simp] theorem space_completeCtl : (completeCtl tile e s).host.space = s.host.space := by simp [completeCtl]
@[simp] theorem space_markIssued : (markIssued tile uid s).host.space = s.host.space := by simp [markIssued]
@[simp] theorem space_barWait : (barWait tile e s).host.space = s.host.space := by simp [barWait]
@[simp] theorem space_releaseWaits : (releaseWaits s).host.space = s.host.space := by simp [releaseWaits]

@[simp] theorem space_sendResults : (sendResults s).host.space = s.host.space := by
  simp only [sendResults]; split <;> simp

@[simp] theorem space_arriveOp : (arriveOp tile e b s).host.space = s.host.space := by simp [arriveOp, arriveLocal]

@[simp] theorem space_readRecord : (readRecord tile e s).host.space = s.host.space := by
  simp only [readRecord]; split <;> simp

@[simp] theorem space_startEngine : (startEngine tile cls inst uid s).host.space = s.host.space := by simp [startEngine]
@[simp] theorem space_charge : (charge tile op s).host.space = s.host.space := by simp [charge]

@[simp] theorem space_issueOp : (issueOp tile e inst s).host.space = s.host.space := by
  simp only [issueOp]
  split
  · rename_i hclove
    simp [hclove]
  · split
    · rw [space_forAll]
      · simp
      · intro a c
        split <;> simp
    · simp

@[simp] theorem space_issueNext : (issueNext tile cls s).host.space = s.host.space := by
  simp only [issueNext]
  repeat' split
  all_goals simp

@[simp] theorem space_startGroup : (startGroup tile s).host.space = s.host.space := by simp [startGroup]

/-! ### SAFFRON -/

@[simp] theorem space_sfRead (d : Nat) (blk : Nat) (r : Nat) (a : Bool × State) :
    (sfRead fmt d scaled blk p ps r a).2.2.host.space = a.2.host.space := by
  simp only [sfRead]; split <;> simp

@[simp] theorem space_sfFloats : (sfFloats p n r).2.2.host.space = r.2.host.space := by simp [sfFloats]

@[simp] theorem space_rdMask {lines : Nat} : (rdMask p lines n r).2.2.host.space = r.2.host.space := by
  induction n generalizing p r with
  | zero => rfl
  | succ n ih => simp [rdMask, ih]

@[simp] theorem space_sfReadKv (c : List Byte) (q : SfRows) :
    (sfReadKv c op q p r).2.2.host.space = r.2.host.space := by
  simp only [sfReadKv]
  repeat' split
  all_goals simp

@[simp] theorem space_sfFreq (c : List Byte) (used : Bool) :
    (sfFreq c own base used r).2.2.host.space = r.2.host.space := by
  simp only [sfFreq]; split <;> simp

@[simp] theorem space_sfStates (c : List Byte) (r : Nat) (a : Bool × State) :
    (sfStates c p r a).2.2.host.space = a.2.host.space := by
  simp [sfStates]

@[simp] theorem space_sfWrite (c : List Byte) (rs : List (SfState × SfFin)) :
    (sfWrite c op p rs r).2.2.host.space = r.2.host.space := by
  simp only [sfWrite]; split <;> simp [sfPut]

@[simp] theorem space_sfForward : (sfForward tile e s).2.2.host.space = s.host.space := by
  simp only [sfForward]; split <;> simp

@[simp] theorem space_sfBackward : (sfBackward tile e s).2.2.host.space = s.host.space := by
  simp only [sfBackward]; split <;> simp

@[simp] theorem space_sfWork : (sfWork code tile e s).2.2.host.space = s.host.space := by
  simp only [sfWork]
  repeat' split
  all_goals simp [sfMergeOp, sfRopeOp]

@[simp] theorem space_sfFinish : (sfFinish tile uid code s).host.space = s.host.space := by
  simp only [sfFinish]; split <;> simp

/-! ### SUMAC -/

@[simp] theorem space_smRead (r : Nat) (a : Bool × State) :
    (smRead op fmt scaled n p ps r a).2.2.host.space = a.2.host.space := by
  simp only [smRead]; split <;> simp

@[simp] theorem space_smMask (r : Nat) (a : Bool × State) : (smMask op p r a).2.2.host.space = a.2.host.space := by
  simp [smMask]

@[simp] theorem space_smReadB : (smReadB op p r).2.2.host.space = r.2.host.space := by
  simp only [smReadB]; split <;> simp

@[simp] theorem space_smReadC : (smReadC op p r).2.2.host.space = r.2.host.space := by
  simp only [smReadC]; split <;> simp

@[simp] theorem space_smWrite (f : OutFmt) (rows : List (List SmVal)) :
    (smWrite f n p rows r).2.2.host.space = r.2.host.space := by
  simp only [smWrite]; split <;> simp

@[simp] theorem space_smReadA : (smReadA op p r).2.2.host.space = r.2.host.space := by simp [smReadA]

@[simp] theorem space_smRun (nanScale : Bool) (masked nans : Nat) (r : OpFlags × Bool × State) :
    (smRun nanScale masked nans r).2.2.host.space = r.2.2.host.space := by
  simp [smRun]

@[simp] theorem space_smMap : (smMap tile e s).2.2.host.space = s.host.space := by simp only [smMap]; split <;> simp

@[simp] theorem space_smReduce : (smReduce tile e s).2.2.host.space = s.host.space := by
  simp only [smReduce]
  repeat' split
  all_goals simp

@[simp] theorem space_smNorm : (smNorm tile e s).2.2.host.space = s.host.space := by simp only [smNorm]; split <;> simp

@[simp] theorem space_smSoftOp : (smSoftOp tile e s).2.2.host.space = s.host.space := by
  simp only [smSoftOp]
  repeat' split
  all_goals simp

@[simp] theorem space_smWork : (smWork code tile e s).2.2.host.space = s.host.space := by
  simp only [smWork]
  repeat' split
  all_goals simp [smCmpOp, smSelectOp]

@[simp] theorem space_smFinish : (smFinish tile uid code s).host.space = s.host.space := by
  simp only [smFinish]; split <;> simp

/-! ### ANISE -/

@[simp] theorem space_anReportTo (f : TokenReport → TokenReport) : (anReportTo e f s).host.space = s.host.space := by
  simp [anReportTo]

@[simp] theorem space_anHistory : (anHistory op p r).2.2.host.space = r.2.host.space := by
  simp only [anHistory]
  repeat' split
  all_goals simp

@[simp] theorem space_anRows_ (r : Nat) (a : Bool × State) : (anRows_ op p r a).2.2.host.space = a.2.host.space := by
  simp [anRows_]

@[simp] theorem space_anEntry : (anEntry op p r).2.2.host.space = r.2.host.space := by simp [anEntry]

@[simp] theorem space_anVerifyOp : (anVerifyOp tile e s).2.2.host.space = s.host.space := by
  simp only [anVerifyOp]; split <;> simp

@[simp] theorem space_anWork : (anWork code tile e s).2.2.host.space = s.host.space := by
  simp only [anWork]
  repeat' split
  all_goals simp [anSampleOp, sampleReport]

@[simp] theorem space_anFinish : (anFinish tile uid code s).host.space = s.host.space := by
  simp only [anFinish]; split <;> simp

/-! ### FENNEL -/

@[simp] theorem space_fnWord : (fnWord addr n s).2.host.space = s.host.space := by simp [fnWord, pkgWord]
@[simp] theorem space_fnPut (v : Nat) : (fnPut addr n v s).host.space = s.host.space := by simp [fnPut]
@[simp] theorem space_setFreeHead : (setFreeHead tile h s).host.space = s.host.space := by simp [setFreeHead]
@[simp] theorem space_setDead (l : List Nat) : (setDead tile l s).host.space = s.host.space := by simp [setDead]
@[simp] theorem space_setWork (l : List FoldWork) : (setWork tile l s).host.space = s.host.space := by simp [setWork]

@[simp] theorem space_pushFree (p : PoolParams) : (pushFree tile p page s).host.space = s.host.space := by
  simp [pushFree]

@[simp] theorem space_workEntry (p : PoolParams) (w : FoldWork) :
    (workEntry tile p w s).2.host.space = s.host.space := by
  simp only [workEntry]; split <;> simp [decPage]

@[simp] theorem space_foldStep (p : PoolParams) : (foldStep tile p s).host.space = s.host.space := by
  simp only [foldStep]; split <;> simp

@[simp] theorem space_foldMany {p : PoolParams} : (foldMany tile p n s).host.space = s.host.space := by
  induction n generalizing s with
  | zero => rfl
  | succ n ih => simp [foldMany, ih]

@[simp] theorem space_foldAll (p : PoolParams) : (foldAll tile p s).host.space = s.host.space := by simp [foldAll]
@[simp] theorem space_foldTiles : (foldTiles s).host.space = s.host.space := by simp only [foldTiles]; split <;> simp

@[simp] theorem space_reclaim (p : PoolParams) : (reclaim tile p s).host.space = s.host.space := by
  simp only [reclaim]; split <;> simp

@[simp] theorem space_background : (background tile s).host.space = s.host.space := by
  simp only [background]; split <;> simp

@[simp] theorem space_fennelCommit (ns : List PageNotice) : (fennelCommit n ns s).host.space = s.host.space := by
  simp only [fennelCommit]; split <;> simp [commitTile]

@[simp] theorem space_fennelAbort : (fennelAbort s).host.space = s.host.space := by
  simp only [fennelAbort]
  split
  · exact space_forAll fun a t => space_forAll fun b g => by simp
  · simp

@[simp] theorem space_fennelRestore : (fennelRestore s).host.space = s.host.space := by
  simp only [fennelRestore]; split <;> simp [rebuildTile]

@[simp] theorem space_fnRead (r : FnRun) : (fnRead addr n r).2.s.host.space = r.s.host.space := by simp [fnRead]

@[simp] theorem space_overlayAt (r : FnRun) : (overlayAt j l b r).2.s.host.space = r.s.host.space := by
  simp only [overlayAt]; split <;> simp

@[simp] theorem space_committedAt (r : FnRun) : (committedAt j l b r).2.s.host.space = r.s.host.space := by
  simp only [committedAt]; split <;> simp

@[simp] theorem space_allocPage (r : FnRun) : (allocPage j r).2.s.host.space = r.s.host.space := by
  simp only [allocPage]
  repeat' split
  all_goals simp [takePage]

@[simp] theorem space_listPair (dst : Nat) (r : FnRun) : (listPair l src dst n r).s.host.space = r.s.host.space := by
  simp only [listPair]; split <;> simp

@[simp] theorem space_appendPage {start : Nat} {a : FnRun} :
    (appendPage j start l b a).2.s.host.space = a.s.host.space := by
  have hover := space_overlayAt (j := j) (l := l) (b := b) (r := a)
  simp only [appendPage]
  split <;> rename_i heq <;> simp only [heq] at hover
  · split <;> simp [hover]
  · repeat' split
    all_goals simp [hover, addOverlay]

@[simp] theorem space_appendBlock (r : FnRun) (x : Nat × Nat) :
    (appendBlock j lo hi r x).s.host.space = r.s.host.space := by
  simp only [appendBlock]; split <;> simp

@[simp] theorem space_gatherBlock {a : FnRun} {x : Nat × Nat} :
    (gatherBlock j lo hi a x).s.host.space = a.s.host.space := by
  have hover := space_overlayAt (j := j) (l := x.1) (b := x.2) (r := a)
  simp only [gatherBlock]
  split
  · rfl
  · split <;> rename_i heq <;> simp only [heq] at hover <;> simp [hover]

@[simp] theorem space_stampPage (r : FnRun) : (stampPage j r g).s.host.space = r.s.host.space := by
  simp only [stampPage]
  repeat' split
  all_goals simp

@[simp] theorem space_fnBlocks (p : PoolParams) : (fnBlocks code tile e p s).s.host.space = s.host.space := by
  simp only [fnBlocks]; split <;> simp

@[simp] theorem space_fnStamped (p : PoolParams) : (fnStamped code tile e p s).s.host.space = s.host.space := by
  simp [fnStamped]

@[simp] theorem space_fnFinish : (fnFinish tile uid code s).host.space = s.host.space := by
  simp only [fnFinish]
  repeat' split
  all_goals simp [fnListed]

/-! ### Snoops -/

@[simp] theorem space_snoopLine (entry : Nat) (x : Nat × Bool) :
    (snoopLine tile entry s x).host.space = s.host.space := by
  simp [snoopLine]

@[simp] theorem space_withSnoopAt {i : Instr} {f : State → State} (h : ∀ s, (f s).host.space = s.host.space) :
    (withSnoopAt n i f s).host.space = s.host.space := by
  simp [withSnoopAt, h]

@[simp] theorem space_withSnoop {i : Instr} {f : State → State} (h : ∀ s, (f s).host.space = s.host.space) :
    (withSnoop i f s).host.space = s.host.space := space_withSnoopAt h

/-! ### Adders and epochs of windows -/

@[simp] theorem space_addCounts (c : ReCounts) : (addCounts w c s).host.space = s.host.space := by simp [addCounts]
@[simp] theorem space_winFold : (winFold w s).host.space = s.host.space := by simp [winFold, foldLine]
@[simp] theorem space_winMark : (winMark w s).host.space = s.host.space := by simp only [winMark]; split <;> simp

@[simp] theorem space_winComplete : (winComplete w s).host.space = s.host.space := by
  simp only [winComplete]
  repeat' split
  all_goals simp [winPublish, winZero, shardBytes]

@[simp] theorem space_winCheck : (winCheck w s).host.space = s.host.space := by simp only [winCheck]; split <;> simp
@[simp] theorem space_settleLasts : (settleLasts w s).host.space = s.host.space := by simp [settleLasts]
@[simp] theorem space_settleLocal : (settleLocal stream s).host.space = s.host.space := by simp [settleLocal]

@[simp] theorem space_adderApply (a : Accum) : (adderApply a s).host.space = s.host.space := by
  simp only [adderApply]; split <;> simp

@[simp] theorem space_adderServe (mc : Nat) (a : Accum) : (adderServe mc a s).host.space = s.host.space := by
  simp [adderServe, dropAccum]

@[simp] theorem space_queueVals (window : Nat) (isWin : Bool) :
    (queueVals stream seq window isWin fmt addr vals poison s).host.space = s.host.space := by
  simp [queueVals]

/-! ### The conductor and a member's side of a step -/

@[simp] theorem space_learnMembers : (learnMembers s).host.space = s.host.space := by
  simp only [learnMembers]; split <;> simp [learnMember]

@[simp] theorem space_addNotice (n : PageNotice) : (addNotice n s).host.space = s.host.space := by simp [addNotice]

@[simp] theorem space_newSeq (n : NewSeq) : (newSeq n s).2.host.space = s.host.space := by
  simp only [newSeq]; split <;> simp [newSeqApply]

@[simp] theorem space_endSeq : (endSeq slot status s).host.space = s.host.space := by simp [endSeq]

@[simp] theorem space_finishSeq : (finishSeq slot s).2.host.space = s.host.space := by
  simp only [finishSeq]
  repeat' split
  all_goals simp

@[simp] theorem space_sampleSeq (sample : Nat) : (sampleSeq slot sample s).2.host.space = s.host.space := by
  simp only [sampleSeq]
  repeat' split
  all_goals simp

@[simp] theorem space_admitFrom {l : Seqs} : (admitFrom l s).host.space = s.host.space := by
  induction l generalizing s with
  | nil => rfl
  | cons x l ih => simp [admitFrom, ih]

@[simp] theorem space_sendRun (r : RetStep) (rerun : Bool) : (sendRun r rerun s).host.space = s.host.space := by
  simp only [sendRun]; split <;> simp

@[simp] theorem space_finishForm : (finishForm s).host.space = s.host.space := by simp only [finishForm]; split <;> simp

@[simp] theorem space_formStep : (formStep s).host.space = s.host.space := by
  simp only [formStep]
  repeat' split
  all_goals simp [admitSeqs, beginForm, askPrompt]

@[simp] theorem space_promptFailed : (promptFailed id s).host.space = s.host.space := by
  simp only [promptFailed]; split <;> simp

@[simp] theorem space_tokensRecord (t : TokenReport) :
    (tokensRecord slot step fault t s).host.space = s.host.space := by
  simp [tokensRecord]

@[simp] theorem space_sendCommit (ns : List PageNotice) : (sendCommit step ns s m).host.space = s.host.space := by
  simp [sendCommit]

@[simp] theorem space_commitIn (ns : List PageNotice) : (commitIn step ns s).host.space = s.host.space := by
  simp [commitIn, windowsCommit, winCommit]

@[simp] theorem space_commitStep : (commitStep s).host.space = s.host.space := by
  simp only [commitStep]; split <;> simp [commitRec, openToken, commitNotice]

theorem space_stepRecv {src num : Nat} {t : State} (h : stepRecv src num s = some t) : t.host.space = s.host.space := by
  simp only [stepRecv] at h
  split at h
  · cases h; rfl
  · split at h
    · cases h; simp
    · cases h

@[simp] theorem space_headerIn (h : StepHeader) : (headerIn h s).host.space = s.host.space := by
  simp only [headerIn]; split <;> simp

@[simp] theorem space_tokensIn : (tokensIn toks s).host.space = s.host.space := by simp only [tokensIn]; split <;> simp
@[simp] theorem space_cancelSteps : (cancelSteps s).host.space = s.host.space := by simp [cancelSteps]
@[simp] theorem space_parkSteps : (parkSteps s).host.space = s.host.space := by simp [parkSteps]

@[simp] theorem space_clearStepTags : (clearStepTags s).host.space = s.host.space := by
  refine space_forAll (fun b g => ?_)
  dsimp only; split <;> simp

@[simp] theorem space_resubmitAll : (resubmitAll s).host.space = s.host.space := by
  simp only [resubmitAll]; split <;> simp [resubmit]

@[simp] theorem space_restoreCounters : (restoreCounters s).host.space = s.host.space := by
  simp only [restoreCounters]; split <;> simp

@[simp] theorem space_abortIn : (abortIn step code s).host.space = s.host.space := by
  simp only [abortIn]; split <;> simp

@[simp] theorem space_undoStep : (undoStep code s).host.space = s.host.space := by
  simp [undoStep, windowsAbort, dropArrivals]

@[simp] theorem space_payDone : (payDone s).host.space = s.host.space := by simp only [payDone]; split <;> simp

@[simp] theorem space_abortSettled : (abortSettled s).host.space = s.host.space := by
  simp only [abortSettled]; split <;> simp

@[simp] theorem space_memberFault : (memberFault code taskId s).host.space = s.host.space := by simp [memberFault]
@[simp] theorem space_rerunStep : (rerunStep s).host.space = s.host.space := by simp only [rerunStep]; split <;> simp
@[simp] theorem space_discardStep : (discardStep s).host.space = s.host.space := by simp [discardStep]

/-! ### The host link -/

@[simp] theorem space_fetchTail (r : Nat) : (fetchTail r s).host.space = s.host.space := by simp [fetchTail]
@[simp] theorem space_fetchHead : (fetchHead c s).host.space = s.host.space := by simp [fetchHead]

@[simp] theorem space_watcherWake (head : Bool) : (watcherWake head ring s).host.space = s.host.space := by
  simp [watcherWake]

@[simp] theorem space_readData : (readData id data s).host.space = s.host.space := by
  simp only [readData]; split <;> simp [promptData, newTail]

@[simp] theorem space_writeDone : (writeDone id s).host.space = s.host.space := by simp only [writeDone]; split <;> simp

@[simp] theorem space_hostTimeout : (hostTimeout id s).host.space = s.host.space := by
  simp only [hostTimeout]
  repeat' split
  all_goals simp [cqError, snoopTimeout]

@[simp] theorem space_takeDesc : (takeDesc ring index s).host.space = s.host.space := by simp [takeDesc]

@[simp] theorem space_faultDesc (d : DescSlot) : (faultDesc ring fault d s).host.space = s.host.space := by
  simp [faultDesc]

@[simp] theorem space_withDesc {want : DescSlot → Bool} {f : DescSlot → State → State}
    (h : ∀ d s, (f d s).host.space = s.host.space) : (withDesc ring want f s).host.space = s.host.space := by
  unfold withDesc; repeat' split
  all_goals simp [h]

@[simp] theorem space_submitTask (d : DescSlot) : (submitTask ring d s).host.space = s.host.space := by
  simp [submitTask]

@[simp] theorem space_applyUpdate (d : DescSlot) (r : Nat × State) :
    (applyUpdate ring d r).host.space = r.2.host.space := by
  simp [applyUpdate, noteUpdate]

@[simp] theorem space_hdmCommit : (hdmCommit base s).host.space = s.host.space := by simp [hdmCommit]
@[simp] theorem space_listLine : (listLine line s).host.space = s.host.space := by simp [listLine]

@[simp] theorem space_hostRead.hostReadNow : (hostRead.hostReadNow line caches s).host.space = s.host.space := by
  simp [hostRead.hostReadNow]

@[simp] theorem space_hostRead {i : Instr} : (hostRead i off caches s).host.space = s.host.space := by
  simp only [hostRead]
  repeat' split
  all_goals simp

@[simp] theorem space_hostWrite (c : Instr) : (hostWrite c off data poison s).host.space = s.host.space := by
  simp [hostWrite]

@[simp] theorem space_snoopAnswer (dirty : List Byte) : (snoopAnswer line dirty s).host.space = s.host.space := by
  simp [snoopAnswer]

@[simp] theorem space_keyProg (dir sub refresh : Nat) :
    (keyProg stream dir sub keySet refresh key s).host.space = s.host.space := by
  simp only [keyProg]; split <;> simp

@[simp] theorem space_keyGo : (keyGo stream keySet s).host.space = s.host.space := by simp [keyGo]
@[simp] theorem space_ideLost : (ideLost s).host.space = s.host.space := by simp [ideLost]
@[simp] theorem space_moderationEnds : (moderationEnds cq s).host.space = s.host.space := by simp [moderationEnds]
@[simp] theorem space_holdoffEnds : (holdoffEnds s).host.space = s.host.space := by simp [holdoffEnds]

/-! ### Mailboxes -/

@[simp] theorem space_refuse : (refuse status s).state.host.space = s.host.space := by simp [refuse]
@[simp] theorem space_accept : (accept s).state.host.space = s.host.space := by simp [accept]

/-- A command that reaches its mailbox leaves the configuration space alone, but for what its own effect does. -/
theorem space_runMail_cases (code via states : Nat) (auth claim : Bool) (q : Req) (f : State → Answer) (s : State) :
    (runMail code via states auth claim q f s).host.space = s.host.space ∨
    (runMail code via states auth claim q f s).host.space = (f s).state.host.space := by
  unfold runMail
  cases hf : f s
  all_goals
    dsimp only
    repeat' split
    all_goals simp

theorem space_runGuarded_cases (c : Instr) (code via states : Nat) (auth claim : Bool) (q : Req) (f : State → Answer)
    (s : State) :
    (runGuarded c code via states auth claim q f s).host.space = s.host.space ∨ ∃ t, t.host.space = s.host.space ∧
    (runGuarded c code via states auth claim q f s).host.space = (f t).state.host.space := by
  unfold runGuarded
  dsimp only
  split
  · rcases space_runMail_cases code via states auth claim q f (clearTouch s) with h | h
    · exact .inl (by simp [h])
    · exact .inr ⟨clearTouch s, by simp, by simp [h]⟩
  · exact .inl (by simp)

theorem space_mailbox_cases (c : Instr) (code via states : Nat) (auth claim : Bool) (q : Req) (f : State → Answer)
    (s : State) :
    (mailbox c code via states auth claim q f s).host.space = s.host.space ∨ ∃ t, t.host.space = s.host.space ∧
    (mailbox c code via states auth claim q f s).host.space = (f t).state.host.space := by
  have hrun (a : State) (ha : a.host.space = s.host.space) :=
    ha ▸ space_runGuarded_cases c code via states auth claim q f a
  unfold mailbox
  dsimp only
  repeat' split
  · exact .inl rfl
  · exact hrun _ rfl
  · exact .inl (by simp)
  · exact .inl (by simp)
  · exact hrun _ (by simp)

@[simp] theorem space_mailbox {i : Instr} {via states : Nat} {auth claim : Bool} {f : State → Answer}
    (h : ∀ s, (f s).state.host.space = s.host.space) :
    (mailbox i code via states auth claim q f s).host.space = s.host.space := by
  rcases space_mailbox_cases i code via states auth claim q f s with hm | ⟨t, ht, hm⟩
  · exact hm
  · rw [hm, h, ht]

/-- An effect that keeps R456's values keeps them behind a mailbox. -/
theorem spaceFixed_mailbox {i : Instr} {via states : Nat} {auth claim : Bool} {f : State → Answer}
    (h : ∀ s, SpaceFixed s → SpaceFixed (f s).state) (hs : SpaceFixed s) :
    SpaceFixed (mailbox i code via states auth claim q f s) := by
  rcases space_mailbox_cases i code via states auth claim q f s with hm | ⟨t, ht, hm⟩
  · exact spaceFixed_of_eq hm hs
  · exact spaceFixed_of_eq hm (h t (spaceFixed_of_eq ht hs))

@[simp] theorem space_freeExecutor : (freeExecutor s).host.space = s.host.space := by simp [freeExecutor]

/-! ### Packets that come in -/

@[simp] theorem space_resendAll (rs : List Retained) : (resendAll k rs s).host.space = s.host.space := by
  simp [resendAll]

@[simp] theorem space_resendFrom : (resendFrom k n s).host.space = s.host.space := by simp [resendFrom]

@[simp] theorem space_settleAll (rs : List Retained) : (settleAll rs code s).host.space = s.host.space := by
  simp [settleAll]

@[simp] theorem space_growCap : (growCap port peer s).host.space = s.host.space := by simp [growCap]

@[simp] theorem space_refusedAt : (refusedAt k n reason s).host.space = s.host.space := by
  simp only [refusedAt]; split <;> simp [dropUnsent]

@[simp] theorem space_sendAck : (sendAck k s).host.space = s.host.space := by simp [sendAck]
@[simp] theorem space_sendNak : (sendNak k s).host.space = s.host.space := by simp [sendNak]

@[simp] theorem space_sendRefuse (p : Packet) : (sendRefuse k reason p s).host.space = s.host.space := by
  simp [sendRefuse]

@[simp] theorem space_arrive (op : Nat) (p : Packet) : (arrive port op p s).host.space = s.host.space := by
  simp [arrive]

@[simp] theorem space_screen (op : Nat) (p : Packet) : (screen port op p s).2.host.space = s.host.space := by
  simp only [screen]
  repeat' split
  all_goals simp

@[simp] theorem space_inSequence {op : Nat} {p : Packet} {f : Nat → State → Took}
    (h : ∀ k s, (f k s).state.host.space = s.host.space) : (inSequence port op p f s).host.space = s.host.space := by
  have hscreen := space_screen (port := port) (op := op) (p := p) (s := s)
  simp only [inSequence]
  split <;> rename_i heq <;> simp only [heq] at hscreen
  · exact hscreen
  · rename_i k s1
    have hf := h k s1
    repeat' split
    all_goals simp_all

@[simp] theorem space_outOfSequence {op : Nat} {p : Packet} {f : Nat → State → State}
    (h : ∀ k s, (f k s).host.space = s.host.space) : (outOfSequence port op p f s).host.space = s.host.space := by
  have hscreen := space_screen (port := port) (op := op) (p := p) (s := s)
  simp only [outOfSequence]
  split <;> rename_i heq <;> simp only [heq] at hscreen
  · exact hscreen
  · simp [h, hscreen]

@[simp] theorem space_inOrder {f : State → Took} (h : ∀ s, (f s).state.host.space = s.host.space) :
    (inOrder k f s).state.host.space = s.host.space := by
  simp [inOrder, h, drainStream]

@[simp] theorem space_pastFold {t : Took} (h : t.state.host.space = s.host.space) :
    (pastFold dpa n t s).state.host.space = s.host.space := by
  simp [pastFold, h]

@[simp] theorem space_winAccept (p : Packet) : (winAccept w k p s).host.space = s.host.space := by simp [winAccept]

@[simp] theorem space_windowWrite (p : Packet) : (windowWrite k p s).host.space = s.host.space := by
  simp only [windowWrite]
  repeat' split
  all_goals simp

@[simp] theorem space_busyAnswer : (busyAnswer k s).state.host.space = s.host.space := by simp [busyAnswer]

@[simp] theorem space_onWrite (p : Packet) : (onWrite p k s).state.host.space = s.host.space := by
  simp [onWrite, writeAt, trustWrite]

@[simp] theorem space_onRead (p : Packet) : (onRead p k s).state.host.space = s.host.space := by
  simp [onRead, readAt, answerRead]

@[simp] theorem space_onReadResp {p : Packet} : (onReadResp p k s).state.host.space = s.host.space := by
  refine space_inOrder (fun s => ?_)
  dsimp only; split <;> simp

@[simp] theorem space_queueWindow (last : Bool) :
    (queueWindow stream seq w offset vals poison last s).host.space = s.host.space := by
  simp [queueWindow]

@[simp] theorem space_boardAccum (p : Packet) : (boardAccum k p s).host.space = s.host.space := by
  simp only [boardAccum]; split <;> simp

@[simp] theorem space_accumAt (p : Packet) : (accumAt p k s).state.host.space = s.host.space := by simp [accumAt]

@[simp] theorem space_onAccum {p : Packet} : (onAccum p k s).state.host.space = s.host.space := by
  have hrun (a : State) := space_accumAt (p := p) (k := k) (s := a)
  simp only [onAccum]
  split
  · have h := hrun s
    split <;> simp_all
  · rw [space_inOrder]
    intro a
    have h := hrun a
    split <;> simp_all

@[simp] theorem space_onFenceInc {p : Packet} : (onFenceInc p k s).state.host.space = s.host.space := by
  refine space_inOrder (fun s => ?_)
  dsimp only; repeat' split
  all_goals simp

@[simp] theorem space_onBarArrive (p : Packet) : (onBarArrive p k s).state.host.space = s.host.space := by
  simp [onBarArrive]

@[simp] theorem space_onBarRelease (p : Packet) : (onBarRelease p k s).state.host.space = s.host.space := by
  simp [onBarRelease]

@[simp] theorem space_onAck (p : Packet) : (onAck p k s).host.space = s.host.space := by simp [onAck, ackUpTo, halveCap]
@[simp] theorem space_onNak (p : Packet) : (onNak p k s).host.space = s.host.space := by simp [onNak]
@[simp] theorem space_onRefuse (p : Packet) : (onRefuse p k s).host.space = s.host.space := by simp [onRefuse]
@[simp] theorem space_freePending : (freePending k s).host.space = s.host.space := by simp [freePending]
@[simp] theorem space_endOpen : (endOpen k status s).host.space = s.host.space := by simp only [endOpen]; split <;> simp
@[simp] theorem space_resetChan : (resetChan k s).host.space = s.host.space := by simp [resetChan]

/-! ### Members, channels, peers -/

@[simp] theorem space_rebuildRoutes : (rebuildRoutes s).host.space = s.host.space := by simp [rebuildRoutes]
@[simp] theorem space_openChan : (openChan k port low high s).host.space = s.host.space := by simp [openChan]
@[simp] theorem space_peerOpens : (peerOpens k s).host.space = s.host.space := by simp [peerOpens]
@[simp] theorem space_reopenChan : (reopenChan k s).host.space = s.host.space := by simp [reopenChan]

@[simp] theorem space_reopenWhere (f : Nat → Bool) : (reopenWhere f s).host.space = s.host.space := by
  simp [reopenWhere]

@[simp] theorem space_serveAgain (was : ModState) : (serveAgain was s).host.space = s.host.space := by
  simp only [serveAgain]
  repeat' split
  all_goals simp [reopenAll]

@[simp] theorem space_backReady : (backReady s).host.space = s.host.space := by simp [backReady]

@[simp] theorem space_resendStep : (resendStep m s).host.space = s.host.space := by
  simp only [resendStep]
  repeat' split
  all_goals simp

@[simp] theorem space_payOwed : (payOwed m s).host.space = s.host.space := by simp [payOwed]

@[simp] theorem space_sendNotice : (sendNotice w peer s).host.space = s.host.space := by
  simp only [sendNotice]; split <;> simp

@[simp] theorem space_memberDown : (memberDown m s).host.space = s.host.space := by
  simp [memberDown, barPeerLost, parkForManager]

@[simp] theorem space_memberUp : (memberUp m s).host.space = s.host.space := by simp [memberUp]
@[simp] theorem space_endAdmission : (endAdmission m s).host.space = s.host.space := by simp [endAdmission]
@[simp] theorem space_memberGone : (memberGone m s).host.space = s.host.space := by simp [memberGone]
@[simp] theorem space_settlePair : (settlePair m s).host.space = s.host.space := by simp [settlePair]

theorem space_mgmtRecv {m counter : Nat} {tagOk : Bool} {t : State} (h : mgmtRecv m counter tagOk s = some t) :
    t.host.space = s.host.space := by
  simp only [mgmtRecv] at h
  split at h
  · cases h; simp
  · cases h

@[simp] theorem space_rekeyPair (secret : Nat) : (rekeyPair m secret s).host.space = s.host.space := by simp [rekeyPair]

/-! ### Ports -/

@[simp] theorem space_portReport (before : Nat) : (portReport port before s).host.space = s.host.space := by
  simp [portReport]

@[simp] theorem space_leaveUp : (leaveUp port s).host.space = s.host.space := by simp [leaveUp, abortStepTasks]
@[simp] theorem space_portDown : (portDown port cause s).host.space = s.host.space := by simp [portDown]

@[simp] theorem space_portQuarantine : (portQuarantine port cause s).host.space = s.host.space := by
  simp [portQuarantine]

@[simp] theorem space_portGoUp (minor : Nat) : (portGoUp port minor s).host.space = s.host.space := by simp [portGoUp]
@[simp] theorem space_startTraining : (startTraining port s).host.space = s.host.space := by simp [startTraining]

@[simp] theorem space_checkMapping (r : IdRecord) : (checkMapping port r s).host.space = s.host.space := by
  simp only [checkMapping]
  repeat' split
  all_goals simp

@[simp] theorem space_endIdentity : (endIdentity port loopNs s).host.space = s.host.space := by
  simp only [endIdentity]; split <;> simp [dropReach]

@[simp] theorem space_trainStep : (trainStep port loopNs s).host.space = s.host.space := by
  simp only [trainStep]
  repeat' split
  all_goals simp

@[simp] theorem space_identity (r : IdRecord) : (identity port r s).host.space = s.host.space := by simp [identity]

@[simp] theorem space_replanPort : (replanPort s port).host.space = s.host.space := by
  simp only [replanPort]
  repeat' split
  all_goals simp

@[simp] theorem space_frameAck : (frameAck port ack s).host.space = s.host.space := by simp [frameAck]
@[simp] theorem space_frameNak : (frameNak port seq s).host.space = s.host.space := by simp [frameNak]
@[simp] theorem space_nakFrame : (nakFrame port s).host.space = s.host.space := by simp [nakFrame]

@[simp] theorem space_frameIn (lanes direct : List Nat) :
    (frameIn port seq ack lanes direct s).host.space = s.host.space := by
  simp [frameIn, msgsArrive]

@[simp] theorem space_codewords (errs : List (List Nat)) : (codewords port errs s).host.space = s.host.space := by
  simp [codewords]

@[simp] theorem space_frameArrives {crcOk : Bool} {errs : List (List Nat)} {f : State → State}
    (h : ∀ s, (f s).host.space = s.host.space) : (frameArrives port crcOk errs f s).host.space = s.host.space := by
  simp [frameArrives, h]

@[simp] theorem space_lightPort (lasersOk lanesOk : Nat) :
    (lightPort lasersOk lanesOk s port).host.space = s.host.space := by
  simp [lightPort]

/-! ### Long commands -/

@[simp] theorem space_closeWin : (closeWin w s).host.space = s.host.space := by
  simp only [closeWin]
  repeat' split
  all_goals simp

@[simp] theorem space_closeChan : (closeChan k s).host.space = s.host.space := by simp [closeChan]
@[simp] theorem space_cleanEvict : (cleanEvict addr s).host.space = s.host.space := by simp [cleanEvict]
@[simp] theorem space_endRing : (endRing ring s).2.host.space = s.host.space := by simp [endRing]
@[simp] theorem space_endCq : (endCq c s).host.space = s.host.space := by simp [endCq]
@[simp] theorem space_releaseGranule : (releaseGranule tile g s).host.space = s.host.space := by simp [releaseGranule]
@[simp] theorem space_swapTable : (swapTable tile engine slot s).host.space = s.host.space := by simp [swapTable]

@[simp] theorem space_tryFinish : (tryFinish s).host.space = s.host.space := by
  simp only [tryFinish]; split <;> simp [finishLong]

@[simp] theorem space_beginLong (l : LongCmd) : (beginLong l s).state.host.space = s.host.space := by simp [beginLong]
@[simp] theorem space_collected (state : Nat) : (collected aon state s).host.space = s.host.space := by simp [collected]

@[simp] theorem space_endLong : (endLong s).host.space = s.host.space := by
  simp only [endLong]; split <;> simp [cutCollect]

/-! ### Resets, boot, standby -/

@[simp] theorem space_taskIdOf (d : DescSlot) : (taskIdOf ring d s).2.host.space = s.host.space := by
  simp only [taskIdOf]; split <;> simp

@[simp] theorem space_endDesc (was : CompRing) (d : DescSlot) : (endDesc was ring s d).host.space = s.host.space := by
  simp [endDesc]

@[simp] theorem space_endDescs (old : SMap CompRing) : (endDescs old s ring).host.space = s.host.space := by
  simp [endDescs]

@[simp] theorem space_requeue (r : Record) : (requeue cq r s).host.space = s.host.space := by simp [requeue]

@[simp] theorem space_ringRecords : (ringRecords s).host.space = s.host.space := by
  simp only [ringRecords]
  simp
  rw [space_forAll]
  · rw [space_foldl]
    simp
  · intro a x; split <;> simp

@[simp] theorem space_writeOut : (writeOut cq n s).host.space = s.host.space := by
  induction n generalizing s with
  | zero => rfl
  | succ n ih => simp [writeOut, ih]

@[simp] theorem space_writeAll : (writeAll s).host.space = s.host.space := by simp [writeAll]
@[simp] theorem space_fetchWatched : (fetchWatched s).host.space = s.host.space := by simp [fetchWatched]

@[simp] theorem space_modFwSlot (i : Nat) (f : FwSlot → FwSlot) : (modFwSlot i f s).host.space = s.host.space := by
  simp [modFwSlot]

@[simp] theorem space_dropTransfer : (dropTransfer s).host.space = s.host.space := by
  simp only [dropTransfer]; split <;> simp

@[simp] theorem space_stopCardamom : (stopCardamom s).host.space = s.host.space := by simp [stopCardamom, abortTests]
@[simp] theorem space_dropPending : (dropPending s).host.space = s.host.space := by simp [dropPending]

@[simp] theorem space_portsDownReset : (portsDownReset s).host.space = s.host.space := by
  simp [portsDownReset, portsReset]

@[simp] theorem space_coreReset : (coreReset cause s).host.space = s.host.space := by
  simp [coreReset, resetTiles, resetFences, resetChans, resetCond, resetHostLink, evcReset]

@[simp] theorem space_restoreManager : (restoreManager s).host.space = s.host.space := by
  simp only [restoreManager]; split <;> simp

@[simp] theorem space_submitResidency : (submitResidency s).host.space = s.host.space := by
  simp only [submitResidency]; split <;> simp

@[simp] theorem space_listedOps : (listedOps addr s).2.host.space = s.host.space := by
  simp only [listedOps]; split <;> simp

@[simp] theorem space_residencyOps : (residencyOps s).2.host.space = s.host.space := by
  simp only [residencyOps]; split <;> simp

@[simp] theorem space_wipeModule : (wipeModule s).host.space = {} := by simp [wipeModule]
@[simp] theorem space_extendMeas (i d : Nat) : (extendMeas i d s).host.space = s.host.space := by simp [extendMeas]
@[simp] theorem space_logFallback : (logFallback s).host.space = s.host.space := by simp [logFallback]
@[simp] theorem space_bootRuns : (bootRuns ds s).host.space = s.host.space := by simp [bootRuns, measureBoot]

@[simp] theorem space_bootVerify : (bootVerify pendingOk activeOk otherOk ds s).host.space = s.host.space := by
  simp only [bootVerify]; split <;> simp [bootActive, bootDead]

@[simp] theorem space_bootFree : (bootFree s).host.space = s.host.space := by simp [bootFree]

@[simp] theorem space_moduleReset (commanded : Bool) : (moduleReset cause commanded s).host.space = {} := by
  simp [moduleReset]

@[simp] theorem space_moduleRestart : (moduleRestart cause s).host.space = {} := by simp [moduleRestart]

@[simp] theorem space_takePending : (takePending s).host.space = s.host.space := by
  simp only [takePending]; split <;> simp

/-- R497: the module starts again, or nothing happens. -/
theorem spaceFixed_bootFallback (h : SpaceFixed s) : SpaceFixed (bootFallback s) := by
  unfold bootFallback
  split
  · exact spaceFixed_of_reset (by simp)
  · exact h

@[simp] theorem space_powerOff : (powerOff s).host.space = {} := by simp [powerOff]

/-! ### The board cascade -/

@[simp] theorem space_cfSend : (cfSend code addr body s).host.space = s.host.space := by simp [cfSend]
@[simp] theorem space_cfUp : (cfUp code body s).host.space = s.host.space := by simp [cfUp]
@[simp] theorem space_cfAll : (cfAll code body s).host.space = s.host.space := by simp [cfAll]
@[simp] theorem space_cfRelay : (cfRelay code src body s).host.space = s.host.space := by simp [cfRelay]
@[simp] theorem space_cfOn : (cfOn code body s).host.space = s.host.space := by simp [cfOn]
@[simp] theorem space_cascadeFault : (cascadeFault s).host.space = s.host.space := by simp [cascadeFault]
@[simp] theorem space_sendLoops : (sendLoops s).host.space = s.host.space := by simp [sendLoops]

@[simp] theorem space_grantNext : (grantNext s).host.space = s.host.space := by
  simp only [grantNext]; split <;> simp [finishRamp]

@[simp] theorem space_masterWaited : (masterWaited s).host.space = s.host.space := by simp [masterWaited]

@[simp] theorem space_slotEnds : (slotEnds s).host.space = s.host.space := by
  simp only [slotEnds]
  repeat' split
  all_goals simp

@[simp] theorem space_takeGrant : (takeGrant slot s).host.space = s.host.space := by simp [takeGrant]
@[simp] theorem space_grantTimeout : (grantTimeout s).host.space = s.host.space := by simp [grantTimeout]
@[simp] theorem space_soloRamp : (soloRamp s).host.space = s.host.space := by simp [soloRamp]
@[simp] theorem space_rampDoneIn (p : Nat) : (rampDoneIn p s).host.space = s.host.space := by simp [rampDoneIn]
@[simp] theorem space_rampDone : (rampDone s).host.space = s.host.space := by simp [rampDone]

@[simp] theorem space_helloIn (p : Nat) (onUp : Bool) : (helloIn p serial onUp s).host.space = s.host.space := by
  simp [helloIn]

@[simp] theorem space_boardIn (p : Nat) (present : Bool) : (boardIn p present serial s).host.space = s.host.space := by
  simp [boardIn]

@[simp] theorem space_loopIn (p : Nat) : (loopIn p seq pattern s).host.space = s.host.space := by
  simp [loopIn, countLoop]

@[simp] theorem space_faultIn (p : Nat) : (faultIn p cause s).host.space = s.host.space := by simp [faultIn]

theorem spaceFixed_cascadeResetIn (level : Nat) (h : SpaceFixed s) : SpaceFixed (cascadeResetIn level s) := by
  unfold cascadeResetIn
  repeat' split
  · exact h
  · exact spaceFixed_of_eq (by simp) h
  · exact h
  · exact spaceFixed_of_reset (by simp)
  · exact h

@[simp] theorem space_cascadeResend : (cascadeResend s).host.space = s.host.space := by
  simp only [cascadeResend]; split <;> simp

/-! ### Ends of drains -/

@[simp] theorem space_drainDone : (drainDone t s).host.space = s.host.space := by simp only [drainDone]; split <;> simp
@[simp] theorem space_drainFor : (drainFor kind index s).host.space = s.host.space := by simp [drainFor]

@[simp] theorem space_granuleFreed : (granuleFreed g s).host.space = s.host.space := by
  simp only [granuleFreed]; split <;> simp

@[simp] theorem space_bankSwap : (bankSwap t engine s).host.space = s.host.space := by
  simp only [bankSwap]; split <;> simp

@[simp] theorem space_sessionExpires : (sessionExpires s).host.space = s.host.space := by simp [sessionExpires]

/-! ### CUMIN -/

@[simp] theorem space_cmReadA : (cmReadA op p r).2.2.host.space = r.2.host.space := by
  simp only [cmReadA]; split <;> simp

@[simp] theorem space_cmReadTile : (cmReadTile op p rows n r).2.2.host.space = r.2.host.space := by
  simp only [cmReadTile]; split <;> simp

@[simp] theorem space_cmReadB {left : Nat} : (cmReadB op p left n r).2.2.host.space = r.2.host.space := by
  induction n generalizing p left r with
  | zero => rfl
  | succ n ih => simp [cmReadB, ih]

@[simp] theorem space_cmProblem (f : OutFmt) (pa pb pc po : SlotAt) (p : Nat) (acc : OpFlags × Bool × State) :
    (cmProblem f op pa pb pc po p acc).2.2.host.space = acc.2.2.host.space := by
  simp only [cmProblem]
  repeat' split
  all_goals simp

@[simp] theorem space_cmWork : (cmWork tile e s).2.2.host.space = s.host.space := by simp only [cmWork]; split <;> simp

@[simp] theorem space_cmFinish : (cmFinish tile uid s).host.space = s.host.space := by
  simp only [cmFinish]; split <;> simp

/-! ### Start-up -/

@[simp] theorem space_inputIn : (inputIn pos s).host.space = s.host.space := by simp [inputIn]

theorem spaceFixed_inputOut (us : Nat) (h : SpaceFixed s) : SpaceFixed (inputOut us s) := by
  unfold inputOut
  split
  · exact spaceFixed_of_reset (by simp)
  · exact h

theorem spaceFixed_perstOn (ns : Nat) (h : SpaceFixed s) : SpaceFixed (perstOn ns s) := by
  unfold perstOn
  dsimp only
  repeat' split
  · exact h
  · exact spaceFixed_of_reset (by simp)
  · exact h

@[simp] theorem space_perstOff : (perstOff pendingOk activeOk otherOk ds s).host.space = s.host.space := by
  simp [perstOff]

@[simp] theorem space_cardamomStarts (fwVersion : Nat) :
    (cardamomStarts m2digest fwVersion s).host.space = s.host.space := by
  simp only [cardamomStarts]; split <;> simp [cardamomRestart, cardamomBoot]

@[simp] theorem space_memoryTrained : (memoryTrained ok s).host.space = s.host.space := by
  simp only [memoryTrained]; split <;> simp [trainingFailed]

@[simp] theorem space_fillDone : (fillDone s).host.space = s.host.space := by simp [fillDone]
@[simp] theorem space_portsMayTrain : (portsMayTrain s).host.space = s.host.space := by simp [portsMayTrain]

@[simp] theorem space_checkerDone (fails : Nat) : (checkerDone tiles fails s).host.space = s.host.space := by
  simp [checkerDone, checkerEntry]

/-! ### Scrubbers, self-tests, reloads -/

@[simp] theorem space_lastingAdd : (lastingAdd loc pattern s).host.space = s.host.space := by simp [lastingAdd]
@[simp] theorem space_classEffect : (classEffect loc pattern cls s).host.space = s.host.space := by simp [classEffect]

@[simp] theorem space_testWrites : (testWrites loc s).host.space = s.host.space := by
  simp only [testWrites]; split <;> simp

@[simp] theorem space_selfTest (r : TestReads) : (selfTest loc r s).host.space = s.host.space := by
  simp only [selfTest]; split <;> simp

@[simp] theorem space_promoteTest : (promoteTest loc s).host.space = s.host.space := by simp [promoteTest]

@[simp] theorem space_verified : (verified s).host.space = s.host.space := by
  simp [verified, wake, restore, restoreWindow, restoreConfigs, restoreTables]

@[simp] theorem space_scrubRead (cw : Nat) : (scrubRead cw s).host.space = s.host.space := by
  simp only [scrubRead]; split <;> simp

@[simp] theorem space_scrubAbort : (scrubAbort s).host.space = s.host.space := by simp only [scrubAbort]; split <;> simp

@[simp] theorem space_scrubChannel : (scrubChannel t c s).host.space = s.host.space := by
  simp [scrubChannel, scrubStep, pkgLapEnds]

@[simp] theorem space_scrubSlot : (scrubSlot t s).host.space = s.host.space := by simp [scrubSlot]
@[simp] theorem space_lapOverdue (slot : Bool) : (lapOverdue t slot s).host.space = s.host.space := by simp [lapOverdue]

@[simp] theorem space_setReloading (l : List WeightBlock) : (setReloading l s).host.space = s.host.space := by
  simp [setReloading]

@[simp] theorem space_reloadLog (w : WeightBlock) : (reloadLog w s).host.space = s.host.space := by simp [reloadLog]

/-- A block's 1024 lines are poisoned one after another. The update of the conductor is taken off by `rw`, because the
kernel would otherwise run them to compare the two states. -/
@[simp] theorem space_reloadFails (w : WeightBlock) (p : WeightParams) :
    (reloadFails w p s).host.space = s.host.space := by
  have hcond (t : State) (c : Conductor) : ({ t with cond := c } : State).host.space = t.host.space := rfl
  rw [reloadFails]
  dsimp only
  split
  · rw [space_jobFaultRecord, hcond]
    simp
  · simp

@[simp] theorem space_reloadData {x : WeightBlock} {p : WeightParams} :
    (reloadData x p data sourceOk s).2.host.space = s.host.space := by
  rw [reloadData]
  split
  · have hread : (pkgRead 1 1 (p.src + 65536 * x.block) 65536 s).2.host.space = s.host.space := space_pkgRead
    cases hr : pkgRead 1 1 (p.src + 65536 * x.block) 65536 s
    rw [hr] at hread
    exact hread
  · rfl

@[simp] theorem space_reloadNext (verified : Bool) (reads : List TestReads) :
    (reloadNext data sourceOk verified reads s).host.space = s.host.space := by
  simp only [reloadNext]
  repeat' split
  all_goals simp [reloadGood, retest, reloadsDone]

@[simp] theorem space_bistBad : (bistBad s loc).host.space = s.host.space := by simp [bistBad]

@[simp] theorem space_bistDone (bad : List Loc) : (bistDone bad elapsed s).host.space = s.host.space := by
  simp only [bistDone]
  repeat' split
  all_goals simp [checkerLogged, bistZero, zeroPkgTile, zeroSlotTile]

@[simp] theorem space_loopbackDone (lostPos lostPlane : List Nat) :
    (loopbackDone board lostPos lostPlane elapsed s).host.space = s.host.space := by
  simp only [loopbackDone]; split <;> simp

/-! ### Tenancy -/

@[simp] theorem space_readCert : (readCert index offset s).state.host.space = s.host.space := by simp [readCert]
@[simp] theorem space_attestNow : (attestNow nonce mask s).state.host.space = s.host.space := by simp [attestNow]

@[simp] theorem space_answerPeer : (answerPeer m nonce ek s).host.space = s.host.space := by
  simp only [answerPeer]
  repeat' split
  all_goals simp

@[simp] theorem space_openPart1 (rsvZero : Bool) : (openPart1 sigOk rsvZero s).state.host.space = s.host.space := by
  simp only [openPart1]; split <;> simp [newSession]

@[simp] theorem space_openSession (part pk : Nat) :
    (openSession q part pk ek sigOk s).state.host.space = s.host.space := by
  simp [openSession, openPart0]

@[simp] theorem space_claim (session policy nfw : Nat) (allow : List Nat) :
    (claim session policy nfw allow s).state.host.space = s.host.space := by
  simp only [claim]; split <;> simp [claimFor]

@[simp] theorem space_endTenancy : (endTenancy s).host.space = s.host.space := by simp [endTenancy, emptyHost]

@[simp] theorem space_wipeThen {bad : List Loc} {f : State → Answer} (h : ∀ s, (f s).state.host.space = s.host.space) :
    (wipeThen m2digest bad f s).state.host.space = s.host.space := by
  simp [wipeThen, h, releaseFill, readBack, restartFails]

@[simp] theorem space_releaseTenant (bad : List Loc) :
    (releaseTenant m2digest bad s).state.host.space = s.host.space := by
  simp [releaseTenant, releaseRecords, releaseFabric]

@[simp] theorem space_debugUnlock (scope digest : Nat) (bad : List Loc) :
    (debugUnlock q scope serial counter digest m2digest bad sigOk s).state.host.space = s.host.space := by
  simp [debugUnlock, unlock]

/-! ### Memory, rings and pools, as group 4 sets them -/

@[simp] theorem space_setRegions (l : List RegionEntry) : (setRegions l s).state.host.space = s.host.space := by
  simp [setRegions]

@[simp] theorem space_setHdmSize (units : Nat) : (setHdmSize units s).state.host.space = s.host.space := by
  simp [setHdmSize]

@[simp] theorem space_setArb (share threshold : Nat) : (setArb share threshold s).state.host.space = s.host.space := by
  simp [setArb]

@[simp] theorem space_setTimeout (ms : Nat) : (setTimeout ms s).state.host.space = s.host.space := by simp [setTimeout]

@[simp] theorem space_createRing (r : RingParams) : (createRing r s).state.host.space = s.host.space := by
  simp [createRing]

@[simp] theorem space_createCq (r : RingParams) : (createCq r s).state.host.space = s.host.space := by simp [createCq]
@[simp] theorem space_destroyRing : (destroyRing q ring s).state.host.space = s.host.space := by simp [destroyRing]
@[simp] theorem space_destroyCq : (destroyCq q c s).state.host.space = s.host.space := by simp [destroyCq]

@[simp] theorem space_configPool (p : PoolParams) : (configPool p s).state.host.space = s.host.space := by
  simp [configPool, zeroRange, linkPages]

@[simp] theorem space_releaseSlots : (releaseSlots q tile first count s).state.host.space = s.host.space := by
  simp [releaseSlots]

@[simp] theorem space_setWeights (w : WeightParams) : (setWeights w s).state.host.space = s.host.space := by
  simp [setWeights]

/-! ### Plan, jobs, channels, windows and ports, as group 5 sets them -/

@[simp] theorem space_setPlan (fabricId generation : Nat) (plan : List PlanEntry) :
    (setPlan fabricId generation plan s).state.host.space = s.host.space := by
  simp [setPlan]

@[simp] theorem space_setMembers (ids : List Nat) : (setMembers ids s).state.host.space = s.host.space := by
  simp [setMembers]

@[simp] theorem space_attestPeer : (attestPeer q peer s).state.host.space = s.host.space := by simp [attestPeer]

@[simp] theorem space_joinJob (manager : Nat) : (joinJob job members manager s).state.host.space = s.host.space := by
  simp [joinJob]

@[simp] theorem space_leaveJob : (leaveJob job s).state.host.space = s.host.space := by
  simp only [leaveJob]; split <;> simp

@[simp] theorem space_openChannel : (openChannel q number peer port low high s).state.host.space = s.host.space := by
  simp [openChannel]

@[simp] theorem space_closeChannel : (closeChannel q number peer s).state.host.space = s.host.space := by
  simp [closeChannel]

@[simp] theorem space_openWindow (w : WindowParams) : (openWindow w s).state.host.space = s.host.space := by
  simp [openWindow]

@[simp] theorem space_closeWindow : (closeWindow q w s).state.host.space = s.host.space := by simp [closeWindow]
@[simp] theorem space_windowStatus : (windowStatus w s).state.host.space = s.host.space := by simp [windowStatus]

@[simp] theorem space_trustJob : (trustJob job s).state.host.space = s.host.space := by
  simp only [trustJob]; split <;> simp

@[simp] theorem space_overPorts {f : Nat → State → State} (h : ∀ p s, (f p s).host.space = s.host.space) :
    (overPorts mask f s).state.host.space = s.host.space := by
  simp [overPorts, h]

@[simp] theorem space_retrainPort (p : Nat) : (retrainPort p s).host.space = s.host.space := by simp [retrainPort]
@[simp] theorem space_disablePort (p : Nat) : (disablePort p s).host.space = s.host.space := by simp [disablePort]
@[simp] theorem space_enablePort (p : Nat) : (enablePort p s).host.space = s.host.space := by simp [enablePort]

/-! ### Step task sets, drains, configurations and tables, as group 6 sets them -/

@[simp] theorem space_readCaps : (readCaps cls s).state.host.space = s.host.space := by simp [readCaps]

@[simp] theorem space_judgeStep (f : StepSetParams) (t : SetTask) : (judgeStep f t s).2.host.space = s.host.space := by
  simp only [judgeStep]; split <;> simp

@[simp] theorem space_judgeSteps {f : StepSetParams} {l : List SetTask} :
    (judgeSteps f l s).2.host.space = s.host.space := by
  induction l generalizing s with
  | nil => rfl
  | cons x l ih => simp only [judgeSteps]; split <;> simp [ih]

@[simp] theorem space_judgeLoads {l : List SetTask} : (judgeLoads l s).2.host.space = s.host.space := by
  induction l generalizing s with
  | nil => rfl
  | cons x l ih =>
    simp only [judgeLoads]
    repeat' split
    all_goals simp [ih]

@[simp] theorem space_registerSet (f : StepSetParams) (capacity : Nat) (ks : List (Nat × Task)) :
    (registerSet f capacity ks s).host.space = s.host.space := by
  simp only [registerSet]; split <;> simp

@[simp] theorem space_register (f : StepSetParams) : (register f s).state.host.space = s.host.space := by
  simp only [register]
  repeat' split
  all_goals simp

@[simp] theorem space_releaseSet : (releaseSet job s).state.host.space = s.host.space := by simp [releaseSet]
@[simp] theorem space_resumeJob : (resumeJob job s).state.host.space = s.host.space := by simp [resumeJob]
@[simp] theorem space_drain : (drain q x s).state.host.space = s.host.space := by simp [drain]

@[simp] theorem space_abortParked : (abortParked x s).host.space = s.host.space := by
  simp only [abortParked]
  repeat' split
  all_goals simp

@[simp] theorem space_liftDrain : (liftDrain x s).host.space = s.host.space := by simp only [liftDrain]; split <;> simp
@[simp] theorem space_engineAbort : (engineAbort x s).state.host.space = s.host.space := by simp [engineAbort]

@[simp] theorem space_loadConfig (i : Nat) (c : List Byte) : (loadConfig i c s).state.host.space = s.host.space := by
  simp [loadConfig]

@[simp] theorem space_loadTable : (loadTable q slot dpa s).state.host.space = s.host.space := by
  simp [loadTable, shadowTable]

@[simp] theorem space_readTable : (readTable kind index s).state.host.space = s.host.space := by simp [readTable]
@[simp] theorem space_setFence (v : BitVec 64) : (setFence c v s).state.host.space = s.host.space := by simp [setFence]
@[simp] theorem space_readFences : (readFences first count s).state.host.space = s.host.space := by simp [readFences]

@[simp] theorem space_configBarrier (b : BarrierParams) : (configBarrier b s).state.host.space = s.host.space := by
  simp [configBarrier]

/-! ### Firmware -/

@[simp] theorem space_openTransfer : (openTransfer owner slot size s).2.host.space = s.host.space := by
  simp [openTransfer, eraseSlot]

@[simp] theorem space_fwBegin : (fwBegin q slot size s).state.host.space = s.host.space := by simp [fwBegin]

theorem space_takeChunk {x : Transfer} {full offset : Nat} {data : List Byte} {t : State}
    (h : takeChunk x full offset data s = some t) : t.host.space = s.host.space := by
  simp only [takeChunk] at h
  repeat' split at h
  all_goals cases h
  all_goals simp

@[simp] theorem space_fwTransfer : (fwTransfer id offset data s).state.host.space = s.host.space := by
  simp only [fwTransfer]
  split
  · rfl
  · split
    · exact space_takeChunk ‹_›
    · rfl

@[simp] theorem space_markVerified (t : Transfer) : (markVerified t version svn s).host.space = s.host.space := by
  simp [markVerified]

@[simp] theorem space_fwVerify : (fwVerify id verdict version svn s).state.host.space = s.host.space := by
  simp only [fwVerify]; split <;> simp

theorem space_activateSlot {t : State} (h : activateSlot slot s = some t) : t.host.space = s.host.space := by
  simp only [activateSlot] at h
  repeat' split at h
  all_goals cases h
  all_goals simp

theorem spaceFixed_fwActivate {slot mode : Nat} (h : SpaceFixed s) : SpaceFixed (fwActivate q slot mode s).state := by
  unfold fwActivate
  split
  · exact h
  · split
    · exact h
    · have hslot := space_activateSlot ‹_›
      split
      · exact spaceFixed_of_reset (by simp)
      · exact spaceFixed_of_eq (by simp [hslot]) h

@[simp] theorem space_cancelTransfer (t : Transfer) : (cancelTransfer t s).host.space = s.host.space := by
  simp [cancelTransfer]

@[simp] theorem space_fwCancel : (fwCancel id s).state.host.space = s.host.space := by
  simp only [fwCancel]; split <;> simp

@[simp] theorem space_pldmAnswer : (pldmAnswer ok s).host.space = s.host.space := by simp [pldmAnswer]

@[simp] theorem space_pldmUpdate {f : State → Option State} (h : ∀ s t, f s = some t → t.host.space = s.host.space) :
    (pldmUpdate f s).host.space = s.host.space := by
  simp only [pldmUpdate]
  split
  · rfl
  · split
    · simp
    · split
      · simp [h _ _ ‹_›]
      · simp

theorem space_requestUpdate {slot size : Nat} {t : State} (h : requestUpdate slot size s = some t) :
    t.host.space = s.host.space := by
  simp only [requestUpdate] at h
  split at h
  · cases h; simp
  · cases h

@[simp] theorem space_pldmVerify : (pldmVerify verdict version svn s).host.space = s.host.space := by
  simp only [pldmVerify]; split <;> simp

@[simp] theorem space_firmwareData : (firmwareData offset data verdict version svn s).host.space = s.host.space := by
  simp only [firmwareData]
  split
  · split
    · rfl
    · split
      · simp [space_takeChunk ‹_›]
      · rfl
  · rfl

theorem space_activateFirmware {selfContained : Bool} {t : State} (h : activateFirmware selfContained s = some t) :
    t.host.space = s.host.space := by
  simp only [activateFirmware] at h
  repeat' split at h
  all_goals cases h
  simp

theorem space_cancelUpdate {t : State} (h : cancelUpdate s = some t) : t.host.space = s.host.space := by
  obtain ⟨x, -, rfl⟩ := Option.map_eq_some_iff.mp h
  simp

/-! ### Loss of the host link -/

@[simp] theorem space_linkDown : (linkDown s).host.space = s.host.space := by simp [linkDown, loseLink]

/-! ### MACE -/

@[simp] theorem space_maPayload (x : Nat × Nat × Nat) : (maPayload op p x r).2.2.host.space = r.2.host.space := by
  simp only [maPayload]; split <;> simp

@[simp] theorem space_maSendOne (a : MaRun) (x : (Nat × Nat × Nat) × Bool) :
    (maSendOne tile uid op tag key w first p a x).2.host.space = a.2.host.space := by
  simp only [maSendOne]
  repeat' split
  all_goals simp

@[simp] theorem space_maLocalOne (a : MaRun) (x : ((Nat × Nat × Nat) × Bool) × Nat) :
    (maLocalOne op tag w first stream p a x).2.host.space = a.2.host.space := by
  simp only [maLocalOne]
  repeat' split
  all_goals simp

@[simp] theorem space_maMemoryOne (a : MaRun) (x : ((Nat × Nat × Nat) × Bool) × Nat) :
    (maMemoryOne op dpa stream p a x).2.host.space = a.2.host.space := by
  simp only [maMemoryOne]
  repeat' split
  all_goals simp

@[simp] theorem space_awaitSent : (awaitSent tile uid s).host.space = s.host.space := by
  simp only [awaitSent]; split <;> simp

@[simp] theorem space_maFinish : (maFinish tile uid s).host.space = s.host.space := by
  simp only [maFinish]
  repeat' split
  all_goals simp [maHandOver, maSend, maFold, maStore]

/-! ### Memory controllers and sensors -/

@[simp] theorem space_takeSlot : (takeSlot t c cls s).host.space = s.host.space := by simp [takeSlot]

@[simp] theorem space_serveAccum : (serveAccum t c s).host.space = s.host.space := by
  simp only [serveAccum]; split <;> simp

@[simp] theorem space_serveReq : (serveReq t c s).host.space = s.host.space := by simp only [serveReq]; split <;> simp

@[simp] theorem space_promoteReq : (promoteReq t c s).host.space = s.host.space := by
  simp only [promoteReq]; split <;> simp

@[simp] theorem space_refreshChan : (refreshChan t c s).host.space = s.host.space := by simp [refreshChan]
@[simp] theorem space_relaxBand : (relaxBand t s).host.space = s.host.space := by simp [relaxBand]
@[simp] theorem space_tempEvent : (tempEvent sensor value s).host.space = s.host.space := by simp [tempEvent]

@[simp] theorem space_sampleTemps (ts : List TileTemps) (hub : List Nat) :
    (sampleTemps ts hub s).host.space = s.host.space := by
  simp [sampleTemps, thermalTrip, sampleDram, sampleJunction, junctionEvent, sampleHub]

@[simp] theorem space_samplePower (mv ma : Nat) : (samplePower mv ma s).host.space = s.host.space := by
  simp [samplePower, crossed]

@[simp] theorem space_grantBudgets (asked : Bool) (grants : List Nat) :
    (grantBudgets asked grants s).host.space = s.host.space := by
  simp [grantBudgets]

@[simp] theorem space_heartbeat : (heartbeat s).host.space = s.host.space := by simp [heartbeat]

/-! ### Registers -/

@[simp] theorem space_statusW1c (bits : Nat) : (statusW1c mb1 bits s).host.space = s.host.space := by simp [statusW1c]
@[simp] theorem space_overrunMb : (overrunMb mb1 s).host.space = s.host.space := by simp [overrunMb]
@[simp] theorem space_shadowWrite : (shadowWrite mb1 at0 bs s).host.space = s.host.space := by simp [shadowWrite]
@[simp] theorem space_doorbell : (doorbell mb1 s).host.space = s.host.space := by simp [doorbell]
@[simp] theorem space_esClear (bits : BitVec 64) : (esClear bits s).host.space = s.host.space := by simp [esClear]

@[simp] theorem space_ovfClear (bits : BitVec 16) : (ovfClear bank bits s).host.space = s.host.space := by
  simp [ovfClear]

@[simp] theorem space_selWrite (v : BitVec 64) : (selWrite bank index v s).host.space = s.host.space := by
  simp [selWrite]

@[simp] theorem space_selBusWrite (v : BitVec 64) : (selBusWrite bank index size v s).host.space = s.host.space := by
  simp [selBusWrite]

@[simp] theorem space_evcZero : (evcZero s).host.space = s.host.space := by simp [evcZero]
@[simp] theorem space_evcHold (on : Bool) : (evcHold on s).host.space = s.host.space := by simp [evcHold]

@[simp] theorem space_bar0Write : (bar0Write off size value s).host.space = s.host.space := by
  simp only [bar0Write]
  repeat' split
  all_goals simp [write4, mbWrite, evcWrite, msixWrite]

@[simp] theorem space_apertureRead : (apertureRead at0 n s).2.host.space = s.host.space := by
  simp only [apertureRead]
  repeat' split
  all_goals simp

@[simp] theorem space_bar2Go : (bar2Go write off size data s).host.space = s.host.space := by
  simp [bar2Go, bar2Control, apertureWrite, bar2Closed]

/-! ### The recovery dump -/

@[simp] theorem space_freeWalk {p : PoolParams} : (freeWalk p n page s).2.host.space = s.host.space := by
  induction n generalizing page s with
  | zero => rfl
  | succ n ih =>
    simp only [freeWalk]
    repeat' split
    all_goals simp [ih]

@[simp] theorem space_dumpFennelTile (p : PoolParams) : (dumpFennelTile p t s).2.host.space = s.host.space := by
  simp [dumpFennelTile]

@[simp] theorem space_dumpFennel : (dumpFennel s).2.host.space = s.host.space := by
  simp only [dumpFennel]
  split
  · rfl
  · rw [space_foldl_snd]
    simp

@[simp] theorem space_writeSections {l : List (Nat × Bool × List Byte)} :
    (writeSections l at0 s).2.host.space = s.host.space := by
  induction l generalizing at0 s with
  | nil => rfl
  | cons x l ih => simp [writeSections, ih]

@[simp] theorem space_collect : (collect aon s).2.host.space = s.host.space := by simp [collect, writeDump, dumpEngines]

/-! ### Monitoring, tests and the sideband -/

@[simp] theorem space_logOf : (logOf log tile s).2.host.space = s.host.space := by
  simp only [logOf]
  repeat' split
  all_goals simp

@[simp] theorem space_logRead : (logRead log tile first s).state.host.space = s.host.space := by simp [logRead]
@[simp] theorem space_logClear : (logClear log tile s).state.host.space = s.host.space := by simp [logClear]

@[simp] theorem space_counterConfig (v : BitVec 64) :
    (counterConfig bank index v s).state.host.space = s.host.space := by
  simp [counterConfig]

@[simp] theorem space_counterRead : (counterRead first count s).state.host.space = s.host.space := by simp [counterRead]

@[simp] theorem space_scrubConfig (hours : Nat) : (scrubConfig hours s).state.host.space = s.host.space := by
  simp [scrubConfig]

@[simp] theorem space_recoveryCollect : (recoveryCollect q s).state.host.space = s.host.space := by
  simp [recoveryCollect]

@[simp] theorem space_resetCore : (resetCore q s).state.host.space = s.host.space := by simp [resetCore]
@[simp] theorem space_resetModule : (resetModule q s).state.host.space = {} := by simp [resetModule]

@[simp] theorem space_standbyEnter : (standbyEnter q s).state.host.space = s.host.space := by
  simp [standbyEnter, enterStandby]

@[simp] theorem space_standbyExit : (standbyExit q s).state.host.space = s.host.space := by
  simp [standbyExit, exitStandby]

@[simp] theorem space_cascadeReset (level : Nat) : (cascadeReset q pos level s).state.host.space = s.host.space := by
  simp [cascadeReset]

@[simp] theorem space_flipMask (slot : Bool) (unit : Nat) (mask : List Byte) :
    (flipMask slot tile unit mask s).state.host.space = s.host.space := by
  simp [flipMask]

@[simp] theorem space_testStarts : (testStarts test s).host.space = s.host.space := by simp [testStarts]

@[simp] theorem space_testBist (memory patterns : Nat) :
    (testBist q tiles memory patterns s).state.host.space = s.host.space := by
  simp [testBist]

@[simp] theorem space_testLoopback : (testLoopback q board mask s).state.host.space = s.host.space := by
  simp [testLoopback, sendBoard, sendTests]

@[simp] theorem space_testResult : (testResult test s).state.host.space = s.host.space := by simp [testResult]
@[simp] theorem space_entDaa : (entDaa addr s).host.space = s.host.space := by simp [entDaa]
@[simp] theorem space_setDasa (static : Nat) : (setDasa static addr s).host.space = s.host.space := by simp [setDasa]
@[simp] theorem space_setEid : (setEid eid s).host.space = s.host.space := by simp [setEid]
@[simp] theorem space_pldmBase (command : Nat) : (pldmBase command s).host.space = s.host.space := by simp [pldmBase]
@[simp] theorem space_pldmSensor : (pldmSensor sensor s).host.space = s.host.space := by simp [pldmSensor]
@[simp] theorem space_setReceiver : (setReceiver eid s).host.space = s.host.space := by simp [setReceiver]

/-! ### Bit errors, and what a nanosecond brings -/

@[simp] theorem space_latchHeld (b : Bool) : (latchHeld tile b s).host.space = s.host.space := by simp [latchHeld]

@[simp] theorem space_upsetEffect (u : Upset) : (upsetEffect u s).host.space = s.host.space := by
  simp only [upsetEffect]; split <;> simp [hubLost, channelLost]

@[simp] theorem space_findUpset (u : Upset) : (findUpset s u).host.space = s.host.space := by
  simp only [findUpset]; split <;> simp [upsetLog, rewriteLatch]

@[simp] theorem space_tickUpsets : (tickUpsets s).host.space = s.host.space := by simp [tickUpsets]
@[simp] theorem space_restoreHeld : (restoreHeld s).host.space = s.host.space := by simp [restoreHeld]

@[simp] theorem space_tickCollect : (tickCollect s).host.space = s.host.space := by
  simp only [tickCollect]; split <;> simp [finishCollect]

@[simp] theorem space_tickOpen : (tickOpen bank s).host.space = s.host.space := by simp [tickOpen]
@[simp] theorem space_tickRefresh : (tickRefresh t s).host.space = s.host.space := by simp [tickRefresh]
@[simp] theorem space_tickShare : (tickShare t s).host.space = s.host.space := by simp [tickShare]
@[simp] theorem space_tickStalls : (tickStalls t s).host.space = s.host.space := by simp [tickStalls]
@[simp] theorem space_tickBusy : (tickBusy t s).host.space = s.host.space := by simp [tickBusy]
@[simp] theorem space_tickTile : (tickTile s t).host.space = s.host.space := by simp [tickTile]

@[simp] theorem space_tickPepper : (tickPepper s t).host.space = s.host.space := by
  simp [tickPepper, tickOverlap, tickReady, tickTags]

@[simp] theorem space_tickHub : (tickHub s).host.space = s.host.space := by simp [tickHub]
@[simp] theorem space_tickIdentity : (tickIdentity s).host.space = s.host.space := by simp [tickIdentity]

theorem space_tick : (tick s).host.space = s.host.space := by simp [tick, allTilesTick]

theorem space_dropWaiting : (dropWaiting s).host.space = s.host.space := by
  unfold dropWaiting
  split <;> rfl

end

/-! ### The meanings of commands -/

/-- An outcome whose next state, if there is one, has R456's values. -/
def NextSpaceFixed (o : Host.Outcome State Fault Refusal) : Prop := ∀ t, o = .next t → SpaceFixed t

theorem nextSpaceFixed_next {t : State} (h : SpaceFixed t) : NextSpaceFixed (.next t) := by
  rintro _ ⟨⟩
  exact h

theorem nextSpaceFixed_refused (r : Refusal) : NextSpaceFixed (.refused r) := by simp [NextSpaceFixed]

/-- R454 lets training change the `Capable` bits alone. -/
theorem nextSpaceFixed_execCxlLinkTrained {s : State} (width rate : Nat) (flit256 : Bool) (h : SpaceFixed s) :
    NextSpaceFixed (execCxlLinkTrained width rate flit256 s) := by
  refine nextSpaceFixed_next ?_
  dsimp only
  split
  · simpa [SpaceFixed] using h
  · exact h

theorem nextSpaceFixed_execBar2Access {s : State} (write : Bool) (offset size : Nat) (data : List Byte)
    (h : SpaceFixed s) : NextSpaceFixed (execBar2Access write offset size data s) := by
  unfold execBar2Access
  split
  · exact nextSpaceFixed_refused _
  · exact nextSpaceFixed_next (spaceFixed_of_eq (by simp) h)

theorem nextSpaceFixed_execRegisterWrite {s : State} (bar2 : Bool) (offset size value : Nat) (h : SpaceFixed s) :
    NextSpaceFixed (execRegisterWrite bar2 offset size value s) := by
  unfold execRegisterWrite
  split <;> split
  · exact nextSpaceFixed_refused _
  · exact nextSpaceFixed_next (spaceFixed_of_eq (by simp) h)
  · exact nextSpaceFixed_refused _
  · exact nextSpaceFixed_next (spaceFixed_of_eq (by simp) h)

/-- Training sets the `Capable` bits, and six commands may put configuration space back to its reset value. Every other
command keeps it: its meaning is one operation, whose rule says so, or chooses between such operations. -/
theorem nextSpaceFixed_exec (c : Instr) {s : State} (h : SpaceFixed s) : NextSpaceFixed (exec c s) := by
  cases c
  case cxlLinkTrained => exact nextSpaceFixed_execCxlLinkTrained _ _ _ h
  case bar2Access => exact nextSpaceFixed_execBar2Access _ _ _ _ h
  case registerWrite => exact nextSpaceFixed_execRegisterWrite _ _ _ _ h
  all_goals refine nextSpaceFixed_next ?_
  case inputExcursion => exact spaceFixed_inputOut _ h
  case perstAssert => exact spaceFixed_perstOn _ h
  case bootFallback => exact spaceFixed_bootFallback h
  case csReset => exact spaceFixed_cascadeResetIn _ h
  case fwActivate => exact spaceFixed_mailbox (fun _ ht => spaceFixed_fwActivate ht) h
  case resetModule => exact spaceFixed_mailbox (fun _ _ => spaceFixed_of_reset space_resetModule) h
  all_goals refine spaceFixed_of_eq ?_ h
  case noOp | ctlFenceWait | fenceWaitRelease | ctlFenceSignal | ctlFenceSignalRemote | ctlBarrierArrive
    | ctlBarrierWait | ctlStepLoop | ctlStepLoopEnd | busyResendTimer | slotWindowClaim | trainingStepTimeout
    | portRetrainTimer | laneFail | paResp =>
    repeat' split
    all_goals simp
  case msgStepHeader | msgTokenList =>
    split
    · refine space_withSnoop fun a => ?_
      split
      · simp [space_stepRecv ‹_›]
      · simp
    · rfl
  case msgCommit =>
    refine space_withSnoop fun a => ?_
    split
    · rfl
    · split
      · simp [space_stepRecv ‹_›]
      · simp
  case msgAbort =>
    repeat' split
    · rfl
    · simp [space_stepRecv ‹_›]
    · simp
  case msgResult | msgFault | msgAbortDone =>
    split
    · split
      · simp
      · have hrecv := space_stepRecv ‹_›
        repeat' split
        all_goals simp [hrecv]
    · rfl
  case windowNotice | pairRekey | releaseNotice =>
    split
    · simp [space_mgmtRecv ‹_›]
    · simp
  case requestUpdate => exact space_pldmUpdate fun _ _ => space_requestUpdate
  case activateFirmware => exact space_pldmUpdate fun _ _ => space_activateFirmware
  case cancelUpdate => exact space_pldmUpdate fun _ _ => space_cancelUpdate
  all_goals simp

/-- A step runs the front command, or one that waited, or lets a nanosecond pass. -/
theorem spaceFixed_step {s t : State} (hs : SpaceFixed s) (h : step s = .next t) : SpaceFixed t := by
  unfold step at h
  split at h
  next c cs _ => exact nextSpaceFixed_exec c (show SpaceFixed { s with pending := cs } from hs) t h
  · split at h
    · exact nextSpaceFixed_exec _ (spaceFixed_of_eq space_dropWaiting hs) t h
    · exact nextSpaceFixed_next (spaceFixed_of_eq space_tick hs) t h

/-! ### O59 -/

/-- Settles O59: R456's values are those at reset, and a step keeps them. -/
theorem configurationSpaceStays : Obligations.ConfigurationSpaceStays := by
  unfold Obligations.ConfigurationSpaceStays
  exact ⟨⟨spaceFixed_of_reset rfl, rfl, rfl⟩, fun _ _ => spaceFixed_step⟩

end Sys2Proof.Machine
end

section
/-!
The board cascade's invariant (R504): a module with a cascade fault holds no board table. It is read from the cascade
alone, so every operation that leaves the cascade as it was keeps it, by the rules of `held`. The operations of the
cascade get a rule each; the commands that may change the cascade, the empty queue and O6 follow, and with them O9.
-/
namespace Sys2Proof.Machine

/-! ### The invariant -/

theorem cascadeWf_of_held {s t : State} (h : held .cascade t = held .cascade s) (hs : CascadeWf s) : CascadeWf t := by
  have hcascade : t.cascade = s.cascade := by simpa [held] using h
  rwa [CascadeWf, hcascade]

theorem cascadeWf_of_no_fault {s : State} (h : s.cascade.fault = false) : CascadeWf s := by simp [CascadeWf, h]

theorem cascadeWf_of_no_table {s : State} (htable : s.cascade.table = []) (hhave : s.cascade.haveTable = false) :
    CascadeWf s := fun _ => ⟨hhave, htable⟩

section
variable {s : State}

/-! ### Operations of the cascade -/

/-- R504: the fault drops the board table. -/
theorem cascadeWf_cascadeFault (h : CascadeWf s) : CascadeWf (cascadeFault s) := by
  unfold cascadeFault
  split
  · exact h
  · refine cascadeWf_of_no_table ?_ ?_ <;> simp [apply_ite State.cascade, cfUp, cfSend]

theorem cascadeWf_sendLoops (h : CascadeWf s) : CascadeWf (sendLoops s) := by
  unfold sendLoops
  exact cascadeWf_of_held (held_forAll fun _ _ => held_cfAll _) h

theorem cascadeWf_finishRamp (h : CascadeWf s) : CascadeWf (finishRamp s) := by
  unfold finishRamp
  split
  · exact h
  next hno =>
    refine cascadeWf_sendLoops (cascadeWf_of_held (held_forAll fun _ _ => held_cfAll _) (cascadeWf_of_no_fault ?_))
    simp_all

theorem cascadeWf_grantNext (h : CascadeWf s) : CascadeWf (grantNext s) := by
  unfold grantNext
  dsimp only
  split
  · split
    · exact h
    · exact cascadeWf_of_held (held_cfSend _) h
  · exact cascadeWf_finishRamp h

theorem cascadeWf_masterWaited (h : CascadeWf s) : CascadeWf (masterWaited s) := by
  unfold masterWaited
  split
  · exact cascadeWf_grantNext h
  · exact h

theorem cascadeWf_slotEnds (h : CascadeWf s) : CascadeWf (slotEnds s) := by
  unfold slotEnds
  dsimp only
  repeat' split
  · exact cascadeWf_grantNext h
  all_goals exact h

theorem cascadeWf_takeGrant (slot : Nat) (h : CascadeWf s) : CascadeWf (takeGrant slot s) := by
  unfold takeGrant
  split <;> exact h

theorem cascadeWf_grantTimeout (h : CascadeWf s) : CascadeWf (grantTimeout s) := by
  unfold grantTimeout
  split
  · exact cascadeWf_cascadeFault h
  · exact h

theorem cascadeWf_soloRamp (h : CascadeWf s) : CascadeWf (soloRamp s) := by
  unfold soloRamp
  split <;> exact h

theorem cascadeWf_rampDoneIn (p : Nat) (h : CascadeWf s) : CascadeWf (rampDoneIn p s) := by
  unfold rampDoneIn
  repeat' split
  · exact h
  · exact cascadeWf_of_held (held_cfRelay _ _) h
  · exact cascadeWf_grantNext h
  · exact h

/-- The boot that goes on once the rails have ramped leaves the cascade alone. -/
theorem cascadeWf_rampDone (h : CascadeWf s) : CascadeWf (rampDone s) := by
  unfold rampDone
  split
  · extract_lets life cascade s1 inSlot s2
    have hramped : CascadeWf s2 := by
      have hs1 : CascadeWf s1 := h
      unfold s2
      clear_value s1 inSlot
      repeat' split
      · exact hs1
      · exact cascadeWf_grantNext hs1
      · exact cascadeWf_of_held (held_cfUp _) hs1
    clear_value s2
    repeat' split
    · exact cascadeWf_of_held held_bootFree hramped
    · exact hramped
    · exact hramped
  · exact h

theorem cascadeWf_helloIn (p serial : Nat) (onUp : Bool) (h : CascadeWf s) : CascadeWf (helloIn p serial onUp s) := by
  unfold helloIn
  repeat' split
  · exact h
  · exact cascadeWf_cascadeFault h
  · exact h
  · exact h
  · exact h
  · exact cascadeWf_of_held (held_cfRelay _ _) h

theorem cascadeWf_boardIn (p : Nat) (present : Bool) (serial : Nat) (h : CascadeWf s) :
    CascadeWf (boardIn p present serial s) := by
  unfold boardIn
  dsimp only
  repeat' split
  · exact h
  · exact cascadeWf_of_held (held_cfOn _) h
  · exact cascadeWf_of_no_fault (by simp_all)

theorem cascadeWf_countLoop (p seq : Nat) (good : Bool) (h : CascadeWf s) : CascadeWf (countLoop p seq good s) := by
  unfold countLoop
  dsimp only
  repeat' split
  · exact cascadeWf_cascadeFault h
  · exact h
  · exact h

theorem cascadeWf_loopIn (p seq pattern : Nat) (h : CascadeWf s) : CascadeWf (loopIn p seq pattern s) := by
  have hecho : CascadeWf (cfOn 5 [seq, pattern] (cfUp 5 [seq, pattern]
      { s with cascade := { s.cascade with lastPattern := pattern } })) :=
    cascadeWf_of_held ((held_cfOn _).trans (held_cfUp _)) h
  unfold loopIn
  dsimp only
  repeat' split
  · exact h
  · exact cascadeWf_countLoop _ _ _ h
  · exact h
  · exact hecho
  · exact cascadeWf_countLoop _ _ _ hecho
  · exact cascadeWf_of_held (held_cfRelay _ _) h

theorem cascadeWf_faultIn (p cause : Nat) (h : CascadeWf s) : CascadeWf (faultIn p cause s) := by
  unfold faultIn
  repeat' split
  · exact h
  · exact h
  · exact cascadeWf_of_held (held_cfRelay _ _) h

theorem cascadeWf_cascadeResend (h : CascadeWf s) : CascadeWf (cascadeResend s) := by
  unfold cascadeResend
  dsimp only
  split
  · exact cascadeWf_of_held (held_emit _) h
  · exact h

/-! ### Loss of input power, and the test of the board -/

/-- R580: without its input the module holds no cascade state. -/
theorem cascadeWf_inputOut (us : Nat) (h : CascadeWf s) : CascadeWf (inputOut us s) := by
  unfold inputOut
  split
  · exact cascadeWf_of_no_fault rfl
  · exact h

/-- A command that reaches its mailbox leaves every part alone, but for what its own effect does. -/
theorem held_runMail_cases (π : StatePart) (code via states : Nat) (auth claim : Bool) (q : Req)
    (f : State → Answer) :
    held π (runMail code via states auth claim q f s) = held π s ∨
    held π (runMail code via states auth claim q f s) = held π (f s).state := by
  unfold runMail
  cases f s
  all_goals
    dsimp only
    repeat' split
    all_goals simp

section
variable {code via states : Nat} {auth claim : Bool} {q : Req} {f : State → Answer}
  (hf : ∀ t, CascadeWf t → CascadeWf (f t).state)
include hf

theorem cascadeWf_runMail (h : CascadeWf s) : CascadeWf (runMail code via states auth claim q f s) := by
  rcases held_runMail_cases .cascade code via states auth claim q f with hm | hm
  · exact cascadeWf_of_held hm h
  · exact cascadeWf_of_held hm (hf s h)

theorem cascadeWf_runGuarded (c : Instr) (h : CascadeWf s) :
    CascadeWf (runGuarded c code via states auth claim q f s) := by
  unfold runGuarded
  dsimp only
  split
  · exact cascadeWf_of_held (held_endTouch _) (cascadeWf_runMail hf (cascadeWf_of_held held_clearTouch h))
  · exact cascadeWf_of_held (by simp) h

/-- An effect that keeps the invariant keeps it behind a mailbox. -/
theorem cascadeWf_mailbox (c : Instr) (h : CascadeWf s) : CascadeWf (mailbox c code via states auth claim q f s) := by
  unfold mailbox
  dsimp only
  repeat' split
  · exact h
  · exact cascadeWf_runGuarded hf c h
  · exact cascadeWf_of_held (held_modMb _ _) h
  · exact cascadeWf_of_held (by simp) h
  · exact cascadeWf_runGuarded hf c (cascadeWf_of_held (held_modMb _ _) h)

end

theorem cascadeWf_sendBoard (h : CascadeWf s) : CascadeWf (sendBoard s) := by
  unfold sendBoard
  split
  · exact cascadeWf_of_held held_sendTests (cascadeWf_sendLoops h)
  · exact cascadeWf_of_held held_sendTests h

theorem cascadeWf_testLoopback (q : Req) (board : Bool) (mask : Nat) (h : CascadeWf s) :
    CascadeWf (testLoopback q board mask s).state := by
  unfold testLoopback
  dsimp only
  repeat' split
  · exact cascadeWf_of_held (held_refuse _) h
  · exact cascadeWf_of_held (held_refuse _) h
  · rw [Answer.state_now]
    exact cascadeWf_sendBoard (cascadeWf_of_held (by simp) h)
  · rw [Answer.state_now]
    exact cascadeWf_of_held (by simp) h

/-! ### The empty queue -/

section
variable {π : StatePart} {bank t : Nat}

@[simp] theorem held_tickBusy : held π (tickBusy t s) = held π s := by simp [tickBusy]
@[simp] theorem held_tickStalls : held π (tickStalls t s) = held π s := by simp [tickStalls]
@[simp] theorem held_tickShare : held π (tickShare t s) = held π s := by simp [tickShare]
@[simp] theorem held_tickRefresh : held π (tickRefresh t s) = held π s := by simp [tickRefresh]
@[simp] theorem held_tickOpen : held π (tickOpen bank s) = held π s := by simp [tickOpen]
@[simp] theorem held_tickTile : held π (tickTile s t) = held π s := by simp [tickTile]
@[simp] theorem held_tickHub : held π (tickHub s) = held π s := by simp [tickHub]

@[simp] theorem held_tickPepper : held π (tickPepper s t) = held π s := by
  simp [tickPepper, tickOverlap, tickReady, tickTags]

@[simp] theorem held_restoreHeld : held π (restoreHeld s) = held π s := by simp [restoreHeld]
@[simp] theorem held_tickIdentity : held π (tickIdentity s) = held π s := by simp [tickIdentity]
@[simp] theorem held_latchHeld (b : Bool) : held π (latchHeld t b s) = held π s := by simp [latchHeld]

@[simp] theorem held_upsetEffect (u : Upset) : held π (upsetEffect u s) = held π s := by
  simp only [upsetEffect]
  split <;> simp [hubLost, channelLost]

@[simp] theorem held_findUpset (u : Upset) : held π (findUpset s u) = held π s := by
  simp only [findUpset]
  split <;> simp [upsetLog, rewriteLatch]

@[simp] theorem held_tickUpsets : held π (tickUpsets s) = held π s := by simp [tickUpsets]

@[simp] theorem held_tickCollect (hpool : π ≠ .pool) : held π (tickCollect s) = held π s := by
  simp only [tickCollect]
  split <;> simp [finishCollect, hpool]

theorem held_tick (hpool : π ≠ .pool) : held π (tick s) = held π s := by simp [tick, allTilesTick, hpool]

theorem held_dropWaiting : held π (dropWaiting s) = held π s := by
  unfold dropWaiting
  split <;> simp

end

end

/-! ### O6 -/

theorem of_next_eq_next {P : State → Prop} {s t : State} (hs : P s)
    (h : (.next s : Host.Outcome State Fault Refusal) = .next t) : P t := by
  obtain rfl := Host.Outcome.next.inj h
  exact hs

/-- A command outside the list of `mayChangeCascade` leaves the cascade alone; each of the list has its rule above. -/
theorem cascadeWf_exec {c : Instr} {s t : State} (hs : CascadeWf s) (h : exec c s = .next t) : CascadeWf t := by
  cases c
  case inputExcursion us => exact of_next_eq_next (cascadeWf_inputOut us hs) h
  case cascadeMasterWait => exact of_next_eq_next (cascadeWf_masterWaited hs) h
  case rampSlotExpire => exact of_next_eq_next (cascadeWf_slotEnds hs) h
  case cascadeGrantTimeout => exact of_next_eq_next (cascadeWf_grantTimeout hs) h
  case cascadeSoloRamp => exact of_next_eq_next (cascadeWf_soloRamp hs) h
  case cascadeRetry => exact of_next_eq_next (cascadeWf_cascadeResend hs) h
  case csHello p serial onUp => exact of_next_eq_next (cascadeWf_helloIn p serial onUp hs) h
  case csRampGrant slot => exact of_next_eq_next (cascadeWf_takeGrant slot hs) h
  case csRampDone p => exact of_next_eq_next (cascadeWf_rampDoneIn p hs) h
  case csBoardTable p present serial => exact of_next_eq_next (cascadeWf_boardIn p present serial hs) h
  case csLoop p seq pattern => exact of_next_eq_next (cascadeWf_loopIn p seq pattern hs) h
  case csFault p cause => exact of_next_eq_next (cascadeWf_faultIn p cause hs) h
  case testLoopback q board mask =>
    exact of_next_eq_next (cascadeWf_mailbox (fun _ => cascadeWf_testLoopback q board mask) _ hs) h
  case rampComplete => exact of_next_eq_next (cascadeWf_rampDone hs) h
  all_goals exact cascadeWf_of_held (keeps_exec s rfl t h) hs

/-- Settles O6: a step runs the front command, or one that waited, or lets a nanosecond pass, and each keeps R504's
invariant. -/
theorem cascadeFaultDropsTable : Obligations.CascadeFaultDropsTable := by
  unfold Obligations.CascadeFaultDropsTable
  intro s t hs h
  unfold step at h
  split at h
  next c cs _ => exact cascadeWf_exec (show CascadeWf { s with pending := cs } from hs) h
  · split at h
    · exact cascadeWf_exec (cascadeWf_of_held held_dropWaiting hs) h
    · exact of_next_eq_next (cascadeWf_of_held (held_tick nofun) hs) h

/-! ### O9 -/

/-- Settles O9: every part of the reset state has its declared reset value, and a read of an empty table gives its
default. -/
theorem resetHoldsInvariants : Obligations.ResetHoldsInvariants := by
  unfold Obligations.ResetHoldsInvariants
  refine ⟨?memories, cascadeWf_of_no_fault rfl, rfl, rfl, rfl, fun _ _ => rfl, fun _ => ⟨rfl, rfl, rfl⟩⟩
  exact ⟨memory_wf_nil, by simp [State.reset], memory_wf_nil⟩

end Sys2Proof.Machine
end

section
/-!
The health of the module (R522) under every operation. `worsen` alone writes it. The first part has an equation for each
operation that does not reach `worsen`, in the order of the model's files: `s.integ.health` is left as it was, through
resets, wipes and loss of power too. The equations are `simp` lemmas: those of `Laws` where they have one, else those
below; small helpers of one operation are unfolded in that operation's equation. The second part has a rule for each
operation that may worsen the health: it keeps every lower bound of the health's code. The commands and the empty queue
follow, and with them O37.
-/
namespace Sys2Proof.Machine

-- Many rules elaborated at once take more memory than the check of the whole text has left.
set_option Elab.async false

/-! ### Branches and folds -/

@[simp] theorem health_ite (c : Prop) [Decidable c] (s t : State) :
    (if c then s else t).integ.health = if c then s.integ.health else t.integ.health := apply_ite (·.integ.health) c s t

section
variable {α β γ : Type} {xs : List α}

@[simp] theorem health_forAll {f : State → α → State} (h : ∀ s x, (f s x).integ.health = s.integ.health) {s : State} :
    (forAll xs f s).integ.health = s.integ.health := forAll_keeps (·.integ.health) h s

@[simp] theorem health_foldl {f : State → α → State} (h : ∀ s x, (f s x).integ.health = s.integ.health) {s : State} :
    (xs.foldl f s).integ.health = s.integ.health := forAll_keeps (·.integ.health) h s

/-- The rule of a fold whose accumulator carries the state in its component `g`. -/
theorem health_foldl_of (g : β → State) {f : β → α → β} (h : ∀ a x, (g (f a x)).integ.health = (g a).integ.health)
    (a : β) : (g (xs.foldl f a)).integ.health = (g a).integ.health := by
  induction xs generalizing a with
  | nil => rfl
  | cons x xs ih => exact (ih (f a x)).trans (h a x)

@[simp] theorem health_foldl_snd {f : β × State → α → β × State} (h : ∀ a x, (f a x).2.integ.health = a.2.integ.health)
    {a : β × State} : (xs.foldl f a).2.integ.health = a.2.integ.health := health_foldl_of (·.2) h a

@[simp] theorem health_foldl_snd_snd {f : β × γ × State → α → β × γ × State}
    (h : ∀ a x, (f a x).2.2.integ.health = a.2.2.integ.health) {a : β × γ × State} :
    (xs.foldl f a).2.2.integ.health = a.2.2.integ.health := health_foldl_of (·.2.2) h a

@[simp] theorem health_foldl_run {f : FnRun → α → FnRun} (h : ∀ a x, (f a x).s.integ.health = a.s.integ.health)
    {a : FnRun} : (xs.foldl f a).s.integ.health = a.s.integ.health := health_foldl_of FnRun.s h a

end

/-! ### Outputs, event counters, interrupts, logs, module state -/

section
variable {s : State} {cls code k t ring inst : Nat}

@[simp] theorem health_modTask (f : Task → Task) : (modTask s t k f).integ.health = s.integ.health := by simp [modTask]

@[simp] theorem health_modEngine (f : Engine → Engine) : (modEngine s t cls inst f).integ.health = s.integ.health := by
  simp [modEngine]

@[simp] theorem health_esFault (task : Nat) : (esFault code task s).integ.health = s.integ.health := by simp [esFault]
@[simp] theorem health_askDescs : (askDescs s ring).integ.health = s.integ.health := by simp [askDescs]
@[simp] theorem health_askAll : (askAll s).integ.health = s.integ.health := by simp [askAll]

@[simp] theorem health_settleReady : (settleReady s).integ.health = s.integ.health := by
  simp only [settleReady]; split <;> simp

end

/-! ### Package memory, slot memory, tags and claims -/

section
variable {s : State} {tile cls n w c t b a g who dpa hint h key l owner : Nat} {dirty write : Bool} {bs : List Byte}

@[simp] theorem health_noteBad : (noteBad dpa s).integ.health = s.integ.health := by simp only [noteBad]; split <;> simp
@[simp] theorem health_pkgPoison (b : Bool) : (pkgPoison c b s).integ.health = s.integ.health := by simp [pkgPoison]
@[simp] theorem health_pkgBytes : (pkgBytes a bs s).integ.health = s.integ.health := by simp [pkgBytes]
@[simp] theorem health_dramWrite : (dramWrite cls c s).integ.health = s.integ.health := by simp [dramWrite, pkgError]

@[simp] theorem health_dramRead : (dramRead cls c dpa s).2.integ.health = s.integ.health := by
  simp only [dramRead]
  repeat' split
  all_goals simp

@[simp] theorem health_putCache (l : List CacheLine) : (putCache c l s).integ.health = s.integ.health := by
  simp [putCache]
@[simp] theorem health_bare : (bare c s).integ.health = s.integ.health := by simp only [bare]; split <;> simp
@[simp] theorem health_cacheUe : (cacheUe c s).integ.health = s.integ.health := by simp [cacheUe]

@[simp] theorem health_writeBack (l : CacheLine) : (writeBack key l s).integ.health = s.integ.health := by
  simp [writeBack, cover]

@[simp] theorem health_scrubUnder {read : State → Bool × State} (h : ∀ s, (read s).2.integ.health = s.integ.health) :
    (scrubUnder c dirty read s).integ.health = s.integ.health := by
  simp [scrubUnder, h]

@[simp] theorem health_cacheAlloc (keep : Bool) : (cacheAlloc c keep dirty s).integ.health = s.integ.health := by
  simp only [cacheAlloc]
  repeat' split
  all_goals simp

@[simp] theorem health_cacheHit : (cacheHit c hint write s).integ.health = s.integ.health := by
  simp only [cacheHit]; split <;> simp

@[simp] theorem health_checkLine : (checkLine c s).integ.health = s.integ.health := by
  simp only [checkLine]; split <;> simp

@[simp] theorem health_cacheAccess (whole : Bool) :
    (cacheAccess cls c hint write whole s).integ.health = s.integ.health := by
  simp [cacheAccess]

@[simp] theorem health_cacheEvict : (cacheEvict c s).integ.health = s.integ.health := by
  simp only [cacheEvict]; split <;> simp

@[simp] theorem health_cacheFlush : (cacheFlush s).integ.health = s.integ.health := by simp [cacheFlush]
@[simp] theorem health_noteTouch : (noteTouch dpa write s).integ.health = s.integ.health := by simp [noteTouch]

@[simp] theorem health_readCw : (readCw cls hint dpa s).2.integ.health = s.integ.health := by
  simp only [readCw]
  repeat' split
  all_goals simp

@[simp] theorem health_readCws : (readCws cls hint w n s).2.integ.health = s.integ.health := by
  induction n generalizing w s with
  | zero => rfl
  | succ n ih => simp [readCws, ih]

@[simp] theorem health_pkgRead : (pkgRead cls hint dpa n s).2.integ.health = s.integ.health := by simp [pkgRead]

@[simp] theorem health_writeLine (bad : Bool) : (writeLine cls hint dpa bs bad s).integ.health = s.integ.health := by
  simp [writeLine, writeCw]

@[simp] theorem health_writeLines {bad : Bool} :
    (writeLines cls hint dpa bs bad n s).integ.health = s.integ.health := by
  induction n generalizing dpa bs s with
  | zero => rfl
  | succ n ih => simp [writeLines, ih]

@[simp] theorem health_pkgWrite (bad : Bool) : (pkgWrite cls hint dpa bs bad s).integ.health = s.integ.health := by
  simp [pkgWrite]

@[simp] theorem health_poisonCw : (poisonCw dpa s).integ.health = s.integ.health := by simp [poisonCw]
@[simp] theorem health_pkgFill : (pkgFill s).integ.health = s.integ.health := by simp [pkgFill]
@[simp] theorem health_slotFill : (slotFill s).integ.health = s.integ.health := by simp [slotFill]
@[simp] theorem health_clearFlips : (clearFlips s).integ.health = s.integ.health := by simp [clearFlips]
@[simp] theorem health_setTag (t : BitVec 8) : (setTag tile g t s).integ.health = s.integ.health := by simp [setTag]
@[simp] theorem health_tagRead : (tagRead tile g s).integ.health = s.integ.health := by simp [tagRead]
@[simp] theorem health_slotPut : (slotPut tile a bs s).integ.health = s.integ.health := by simp [slotPut]
@[simp] theorem health_halfWrite : (halfWrite tile h s).integ.health = s.integ.health := by simp [halfWrite, slotError]

@[simp] theorem health_halfFind : (halfFind tile h s).2.integ.health = s.integ.health := by
  simp only [halfFind]
  repeat' split
  all_goals simp

@[simp] theorem health_halfRead : (halfRead tile h s).2.integ.health = s.integ.health := by simp [halfRead]

@[simp] theorem health_halfReads : (halfReads tile h n s).2.integ.health = s.integ.health := by
  induction n generalizing h s with
  | zero => rfl
  | succ n ih => simp [halfReads, ih]

@[simp] theorem health_slotRead : (slotRead who tile a n s).2.integ.health = s.integ.health := by simp [slotRead]

@[simp] theorem health_slotLine : (slotLine who tile a bs s).2.integ.health = s.integ.health := by
  simp only [slotLine]
  repeat' split
  all_goals simp [mergeHalf]

@[simp] theorem health_slotLines : (slotLines who tile a bs n s).2.integ.health = s.integ.health := by
  induction n generalizing a bs s with
  | zero => rfl
  | succ n ih => simp only [slotLines]; split <;> simp [ih]

@[simp] theorem health_slotWrite : (slotWrite who tile a bs s).2.integ.health = s.integ.health := by simp [slotWrite]
@[simp] theorem health_claimOut : (claimOut owner tile g s).integ.health = s.integ.health := by simp [claimOut]
@[simp] theorem health_claimIn : (claimIn tile g s).integ.health = s.integ.health := by simp [claimIn]
@[simp] theorem health_unclaimOut : (unclaimOut owner tile g s).integ.health = s.integ.health := by simp [unclaimOut]

end

/-! ### Op lists and descriptors, as PEPPER reads them -/

section
variable {s : State} {n dpa addr own : Nat}

@[simp] theorem health_readOps : (readOps dpa n s).2.integ.health = s.integ.health := by simp [readOps]
@[simp] theorem health_readDesc : (readDesc addr s).2.integ.health = s.integ.health := by simp [readDesc]

@[simp] theorem health_admission (set : Option StepSetParams) :
    (admission own addr set s).2.integ.health = s.integ.health := by
  simp only [admission]
  repeat' split
  all_goals simp

end

/-! ### Frames, packets and messages that go out -/

section
variable {s : State} {code k n b port kind seq peer counter member owner : Nat} {body : List Nat} {op : OpWord} {p :
  SlotAt}

@[simp] theorem health_sendFrame (payload : List Byte) :
    (sendFrame port kind seq payload s).integ.health = s.integ.health := by
  simp [sendFrame]

@[simp] theorem health_pumpFrames : (pumpFrames port n s).integ.health = s.integ.health := by
  induction n generalizing s with
  | zero => rfl
  | succ n ih => simp [pumpFrames, ih]

@[simp] theorem health_handOver (bytes : List Byte) : (handOver port bytes s).integ.health = s.integ.health := by
  simp [handOver]

@[simp] theorem health_putOut (op : Nat) (p : Packet) (wire : List Byte) :
    (putOut port op p wire s).integ.health = s.integ.health := by
  simp [putOut]

@[simp] theorem health_mgmtVia : (mgmtVia port peer counter code body s).integ.health = s.integ.health := by
  simp [mgmtVia]

@[simp] theorem health_mgmtSend : (mgmtSend peer code body s).integ.health = s.integ.health := by
  simp only [mgmtSend]; split <;> simp

@[simp] theorem health_reportSend (o : Nat → Out) : (reportSend o s).integ.health = s.integ.health := by
  simp only [reportSend]; split <;> simp

@[simp] theorem health_askRekey : (askRekey k s).integ.health = s.integ.health := by simp [askRekey]
@[simp] theorem health_nextSeq : (nextSeq k s).integ.health = s.integ.health := by simp [nextSeq]
@[simp] theorem health_beginRoll : (beginRoll k s).integ.health = s.integ.health := by simp [beginRoll]

@[simp] theorem health_pumpOne : (pumpOne k s).integ.health = s.integ.health := by
  simp only [pumpOne]
  repeat' split
  all_goals simp

@[simp] theorem health_pumpMany : (pumpMany k n s).integ.health = s.integ.health := by
  induction n generalizing s with
  | zero => rfl
  | succ n ih => simp [pumpMany, ih]

@[simp] theorem health_pump : (pump k s).integ.health = s.integ.health := by simp [pump]
@[simp] theorem health_pumpPort : (pumpPort port s).integ.health = s.integ.health := by simp [pumpPort]

@[simp] theorem health_sendPacket (b : PktBody) : (sendPacket k owner b s).integ.health = s.integ.health := by
  simp [sendPacket]

@[simp] theorem health_sendReply (b : PktBody) : (sendReply k b s).integ.health = s.integ.health := by simp [sendReply]

@[simp] theorem health_stepSendOut (o : Out) : (stepSendOut member code o s).integ.health = s.integ.health := by
  simp [stepSendOut]

@[simp] theorem health_stepSend : (stepSend member code body s).integ.health = s.integ.health := by simp [stepSend]

@[simp] theorem health_stepSendAll : (stepSendAll code body s).integ.health = s.integ.health := by
  simp only [stepSendAll]; split <;> simp

end

/-! ### Fences and barriers -/

section
variable {s : State} {code n c b g member : Nat} {failed : Bool} {members : List Nat} {p : SlotAt}

@[simp] theorem health_fencePut (v : Nat) : (fencePut c v s).integ.health = s.integ.health := by simp [fencePut]
@[simp] theorem health_noteWaits : (noteWaits s).integ.health = s.integ.health := by simp [noteWaits]
@[simp] theorem health_fenceAdd : (fenceAdd c n s).integ.health = s.integ.health := by simp [fenceAdd]
@[simp] theorem health_fenceLocal : (fenceLocal c n s).integ.health = s.integ.health := by simp [fenceLocal]
@[simp] theorem health_barReleased : (barReleased b g failed code s).integ.health = s.integ.health := by
  simp [barReleased]
@[simp] theorem health_barFinish : (barFinish b g failed code members s).integ.health = s.integ.health := by
  simp [barFinish]
@[simp] theorem health_rootArrive : (rootArrive b member g s).integ.health = s.integ.health := by simp [rootArrive]
@[simp] theorem health_barSetup (p : BarrierParams) : (barSetup p s).integ.health = s.integ.health := by simp [barSetup]

end

/-! ### Completion records -/

section
variable {s : State} {r : Bool × State} {tile code ring slot index id cq cause fault opIx status step taskId : Nat}

@[simp] theorem health_d2hDone : (d2hDone id s).integ.health = s.integ.health := by simp [d2hDone]

@[simp] theorem health_queueRecord (r : RecFields) : (queueRecord cq index r s).integ.health = s.integ.health := by
  simp only [queueRecord]; split <;> simp

@[simp] theorem health_taskRecord (st : EngStatus) :
    (taskRecord ring index fault taskId opIx tile st s).integ.health = s.integ.health := by
  simp [taskRecord]

@[simp] theorem health_updateRecord : (updateRecord ring index slot status s).integ.health = s.integ.health := by
  simp [updateRecord]

@[simp] theorem health_jobFaultRecord (aborts : Nat) :
    (jobFaultRecord step code aborts s).integ.health = s.integ.health := by
  simp [jobFaultRecord]

@[simp] theorem health_ringError (tail : Nat) : (ringError ring cause tail s).integ.health = s.integ.health := by
  simp only [ringError]; split <;> simp

@[simp] theorem health_startRecord : (startRecord cq s).integ.health = s.integ.health := by
  simp only [startRecord]; split <;> simp

@[simp] theorem health_recordLineDone : (recordLineDone cq s).integ.health = s.integ.health := by
  simp only [recordLineDone]
  repeat' split
  all_goals simp

@[simp] theorem health_recordDone : (recordDone cq s).integ.health = s.integ.health := by
  simp only [recordDone]; split <;> simp [retire, announce]

end

/-! ### Window entries, tasks, faults, the ends of ops, the edges of a step -/

section
variable {s : State} {e : Entry} {q : Req} {tile uid code k w b a addr h opIx own taskId : Nat} {weights : Bool} {toks
  : List Nat}

@[simp] theorem health_modEntry (f : Entry → Entry) : (modEntry tile uid f s).integ.health = s.integ.health := by
  simp [modEntry]

@[simp] theorem health_dropEntry : (dropEntry tile uid s).integ.health = s.integ.health := by simp [dropEntry]
@[simp] theorem health_freeTask : (freeTask tile k s).integ.health = s.integ.health := by simp [freeTask]
@[simp] theorem health_headWord : (headWord addr s).2.integ.health = s.integ.health := by simp [headWord]
@[simp] theorem health_bindTask : (bindTask tile k s).integ.health = s.integ.health := by simp [bindTask, startTask]
@[simp] theorem health_parkTask : (parkTask tile k s).integ.health = s.integ.health := by simp [parkTask]

@[simp] theorem health_completeTask : (completeTask tile k s).integ.health = s.integ.health := by
  simp only [completeTask]; split <;> simp [signalTask]

@[simp] theorem health_endFaulted : (endFaulted tile k s).integ.health = s.integ.health := by
  simp only [endFaulted]; split <;> simp

@[simp] theorem health_settleTask : (settleTask tile k s).integ.health = s.integ.health := by
  simp only [settleTask]
  repeat' split
  all_goals simp

@[simp] theorem health_mgrAbort : (mgrAbort code weights s).integ.health = s.integ.health := by
  simp only [mgrAbort]; split <;> simp

@[simp] theorem health_stepFault : (stepFault code taskId tile weights s).integ.health = s.integ.health := by
  simp only [stepFault]
  repeat' split
  all_goals simp

@[simp] theorem health_faultTask : (faultTask tile k code opIx s).integ.health = s.integ.health := by simp [faultTask]

@[simp] theorem health_releaseClaims : (releaseClaims tile e s).integ.health = s.integ.health := by
  simp [releaseClaims, unclaimIn]

@[simp] theorem health_freeInstance : (freeInstance tile e s).integ.health = s.integ.health := by simp [freeInstance]

@[simp] theorem health_failOp : (failOp tile uid code s).integ.health = s.integ.health := by
  simp only [failOp]; split <;> simp

@[simp] theorem health_completeOp (st : EngStatus) : (completeOp tile uid st s).integ.health = s.integ.health := by
  simp only [completeOp]; split <;> simp [completeTags, countCross]

@[simp] theorem health_cancelOps : (cancelOps tile k s).integ.health = s.integ.health := by simp [cancelOps]

@[simp] theorem health_sendForOp (b : PktBody) : (sendForOp k tile uid b s).integ.health = s.integ.health := by
  simp [sendForOp]

@[simp] theorem health_settlePacket : (settlePacket own code s).integ.health = s.integ.health := by
  simp only [settlePacket]
  repeat' split
  all_goals simp

@[simp] theorem health_winClaim : (winClaim w s).integ.health = s.integ.health := by
  simp only [winClaim]; split <;> simp
@[simp] theorem health_winBegin : (winBegin w s).integ.health = s.integ.health := by simp [winBegin]
@[simp] theorem health_winDiscard : (winDiscard w s).integ.health = s.integ.health := by simp [winDiscard]

@[simp] theorem health_bindStep (h : StepHeader) : (bindStep h toks s).integ.health = s.integ.health := by
  simp only [bindStep]; split <;> simp [drainPending, windowsBind]

@[simp] theorem health_tryBind : (tryBind s).integ.health = s.integ.health := by
  simp only [tryBind]
  repeat' split
  all_goals simp

@[simp] theorem health_cancelTask (acc : List Ended × State) :
    (cancelTask tile k acc).2.integ.health = acc.2.integ.health := by
  simp only [cancelTask]; split <;> simp

@[simp] theorem health_cancelTile {sel : EngineSel} {acc : List Ended × State} :
    (cancelTile sel tile acc).2.integ.health = acc.2.integ.health := by
  simp only [cancelTile]
  rw [health_foldl_snd]
  · simp
  · intro a w; split; split <;> simp
    simp

@[simp] theorem health_cancelTasks (q : EngineSel) : (cancelTasks q s).2.integ.health = s.integ.health := by
  simp [cancelTasks]

end

/-! ### Operands in memory, with poison -/

section
variable {s : State} {r : Bool × State} {tile uid cls n a who dpa hint fmt h rowPitch rows : Nat} {bs : List Byte} {p
  : SlotAt}

@[simp] theorem health_halfFlags : (halfFlags tile h n s).2.integ.health = s.integ.health := by
  induction n generalizing h s with
  | zero => rfl
  | succ n ih => simp [halfFlags, ih]

@[simp] theorem health_slotReadP : (slotReadP who tile a n s).2.integ.health = s.integ.health := by
  simp only [slotReadP]; split <;> simp

@[simp] theorem health_pkgReadP : (pkgReadP cls hint dpa n s).2.integ.health = s.integ.health := by simp [pkgReadP]

@[simp] theorem health_writeLinesP {bs : List PByte} :
    (writeLinesP cls hint dpa bs n s).integ.health = s.integ.health := by
  induction n generalizing dpa bs s with
  | zero => rfl
  | succ n ih => simp [writeLinesP, ih, writeLineP]

@[simp] theorem health_pkgWriteP (bs : List PByte) : (pkgWriteP cls hint dpa bs s).integ.health = s.integ.health := by
  simp [pkgWriteP]

@[simp] theorem health_rd : (rd who p n r).2.2.integ.health = r.2.integ.health := by simp only [rd]; split <;> simp

@[simp] theorem health_rdRows : (rdRows who fmt n rowPitch p rows r).2.2.integ.health = r.2.integ.health := by
  induction rows generalizing p r with
  | zero => rfl
  | succ rows ih => simp [rdRows, ih]

@[simp] theorem health_rdScales (per : Nat) : (rdScales who p rows per r).2.2.integ.health = r.2.integ.health := by
  simp [rdScales]

@[simp] theorem health_wr : (wr who p bs r).2.integ.health = r.2.integ.health := by simp only [wr]; split <;> simp

@[simp] theorem health_wrRows {rows : List (List Nat)} :
    (wrRows who fmt rowPitch p rows r).2.integ.health = r.2.integ.health := by
  induction rows generalizing p r with
  | nil => rfl
  | cons row rows ih => simp [wrRows, ih]

@[simp] theorem health_internalKind : (internalKind cls s).2.integ.health = s.integ.health := by
  simp only [internalKind]; split <;> simp

@[simp] theorem health_endRun (r : EngRun) : (endRun tile uid r).integ.health = r.2.2.integ.health := by
  simp [endRun, endOp]

end

/-! ### CLOVE -/

section
variable {s : State} {r : Bool × State} {e : Entry} {tile uid cls code hint : Nat} {ps : SlotAt}

@[simp] theorem health_queueClove : (queueClove tile e s).integ.health = s.integ.health := by
  simp [queueClove, queueReq]

@[simp] theorem health_sendReads : (sendReads tile e s).integ.health = s.integ.health := by
  simp only [sendReads]; split <;> simp

@[simp] theorem health_readPieces (pl : Place) (ps : List (Nat × Nat)) :
    (readPieces pl ps s).2.integ.health = s.integ.health := by
  simp only [readPieces]; split <;> simp

@[simp] theorem health_writeLocal (pl : Place) (ws : List (Nat × Data)) :
    (writeLocal cls hint pl ws r).2.integ.health = r.2.integ.health := by
  simp only [writeLocal]; split <;> simp

@[simp] theorem health_sendFar (pl : Place) (ws : List (Nat × Data)) :
    (sendFar tile uid pl ws s).integ.health = s.integ.health := by
  simp only [sendFar]; split <;> simp

@[simp] theorem health_awaitPackets : (awaitPackets tile uid s).integ.health = s.integ.health := by
  simp only [awaitPackets]; split <;> simp

@[simp] theorem health_clCount (rdn wrn : Nat) : (clCount tile e rdn wrn s).integ.health = s.integ.health := by
  simp [clCount]

@[simp] theorem health_clRead : (clRead tile e s).2.integ.health = s.integ.health := by
  simp only [clRead]; split <;> simp
@[simp] theorem health_clReady : (clReady tile e s).integ.health = s.integ.health := by simp [clReady, addStatus]

@[simp] theorem health_clTransfer : (clTransfer tile e s).integ.health = s.integ.health := by
  simp only [clTransfer]; split <;> simp [clLocal]

@[simp] theorem health_clFinish : (clFinish tile uid code s).integ.health = s.integ.health := by
  simp only [clFinish]; split <;> simp

@[simp] theorem health_kvFinish : (kvFinish tile uid code s).integ.health = s.integ.health := by
  simp only [kvFinish]
  repeat' split
  all_goals simp [kvGather, kvAppend]

end

/-! ### PEPPER: admission, filling, issue -/

section
variable {s : State} {e : Entry} {tile uid cls code k n w c b a index inst src : Nat} {op : OpWord}

@[simp] theorem health_pllOn : (pllOn tile s).integ.health = s.integ.health := by simp [pllOn]
@[simp] theorem health_addTask (k : Task) : (addTask tile k s).integ.health = s.integ.health := by simp [addTask]

@[simp] theorem health_nextAdmit : (nextAdmit s tile).2.integ.health = s.integ.health := by
  simp only [nextAdmit]
  split
  · rfl
  · split
    · rfl
    · refine health_foldl_snd (fun a w => ?_)
      split <;> simp [waitingPrio]

@[simp] theorem health_refuseTask (src : TaskSource) (d : DescWord) :
    (refuseTask tile src d code index s).integ.health = s.integ.health := by
  simp only [refuseTask]; split <;> simp

@[simp] theorem health_admitNext : (admitNext tile s).integ.health = s.integ.health := by
  have hnext := health_nextAdmit (s := s) (tile := tile)
  simp only [admitNext]
  split
  · rfl
  · split <;> rename_i heq <;> simp only [heq] at hnext
    · exact hnext
    · split <;> simp [hnext]

@[simp] theorem health_advanceTask : (advanceTask tile k s).integ.health = s.integ.health := by simp [advanceTask]

@[simp] theorem health_fillLoop : (fillLoop tile n s).integ.health = s.integ.health := by
  induction n generalizing s with
  | zero => rfl
  | succ n ih =>
    simp only [fillLoop]
    split
    · rfl
    · split <;> simp [ih, fillOp, readBlock]

@[simp] theorem health_countIssue : (countIssue tile e s).integ.health = s.integ.health := by simp [countIssue]
@[simp] theorem health_completeCtl : (completeCtl tile e s).integ.health = s.integ.health := by simp [completeCtl]
@[simp] theorem health_markIssued : (markIssued tile uid s).integ.health = s.integ.health := by simp [markIssued]
@[simp] theorem health_barWait : (barWait tile e s).integ.health = s.integ.health := by simp [barWait]
@[simp] theorem health_releaseWaits : (releaseWaits s).integ.health = s.integ.health := by simp [releaseWaits]

@[simp] theorem health_sendResults : (sendResults s).integ.health = s.integ.health := by
  simp only [sendResults]; split <;> simp

@[simp] theorem health_arriveOp : (arriveOp tile e b s).integ.health = s.integ.health := by simp [arriveOp, arriveLocal]

@[simp] theorem health_readRecord : (readRecord tile e s).integ.health = s.integ.health := by
  simp only [readRecord]; split <;> simp

@[simp] theorem health_startEngine : (startEngine tile cls inst uid s).integ.health = s.integ.health := by
  simp [startEngine]
@[simp] theorem health_charge : (charge tile op s).integ.health = s.integ.health := by simp [charge]

@[simp] theorem health_issueOp : (issueOp tile e inst s).integ.health = s.integ.health := by
  simp only [issueOp]
  split
  · rename_i hclove
    simp [hclove]
  · split
    · rw [health_forAll]
      · simp
      · intro a c
        split <;> simp
    · simp

@[simp] theorem health_issueNext : (issueNext tile cls s).integ.health = s.integ.health := by
  simp only [issueNext]
  repeat' split
  all_goals simp

@[simp] theorem health_startGroup : (startGroup tile s).integ.health = s.integ.health := by simp [startGroup]

end

/-! ### SAFFRON -/

section
variable {s : State} {r : Bool × State} {e : Entry} {q : Req} {tile uid code n c a base fmt own : Nat} {scaled : Bool}
  {op : OpWord} {p ps : SlotAt}

@[simp] theorem health_sfRead (d : Nat) (blk : Nat) (r : Nat) (a : Bool × State) :
    (sfRead fmt d scaled blk p ps r a).2.2.integ.health = a.2.integ.health := by
  simp only [sfRead]; split <;> simp

@[simp] theorem health_sfFloats : (sfFloats p n r).2.2.integ.health = r.2.integ.health := by simp [sfFloats]

@[simp] theorem health_rdMask {lines : Nat} : (rdMask p lines n r).2.2.integ.health = r.2.integ.health := by
  induction n generalizing p r with
  | zero => rfl
  | succ n ih => simp [rdMask, ih]

@[simp] theorem health_sfReadKv (c : List Byte) (q : SfRows) :
    (sfReadKv c op q p r).2.2.integ.health = r.2.integ.health := by
  simp only [sfReadKv]
  repeat' split
  all_goals simp

@[simp] theorem health_sfFreq (c : List Byte) (used : Bool) :
    (sfFreq c own base used r).2.2.integ.health = r.2.integ.health := by
  simp only [sfFreq]; split <;> simp

@[simp] theorem health_sfStates (c : List Byte) (r : Nat) (a : Bool × State) :
    (sfStates c p r a).2.2.integ.health = a.2.integ.health := by
  simp [sfStates]

@[simp] theorem health_sfWrite (c : List Byte) (rs : List (SfState × SfFin)) :
    (sfWrite c op p rs r).2.2.integ.health = r.2.integ.health := by
  simp only [sfWrite]; split <;> simp [sfPut]

@[simp] theorem health_sfForward : (sfForward tile e s).2.2.integ.health = s.integ.health := by
  simp only [sfForward]; split <;> simp

@[simp] theorem health_sfBackward : (sfBackward tile e s).2.2.integ.health = s.integ.health := by
  simp only [sfBackward]; split <;> simp

@[simp] theorem health_sfWork : (sfWork code tile e s).2.2.integ.health = s.integ.health := by
  simp only [sfWork]
  repeat' split
  all_goals simp [sfMergeOp, sfRopeOp]

@[simp] theorem health_sfFinish : (sfFinish tile uid code s).integ.health = s.integ.health := by
  simp only [sfFinish]; split <;> simp

end

/-! ### SUMAC -/

section
variable {s : State} {r : Bool × State} {e : Entry} {tile uid code n a fmt rows : Nat} {scaled : Bool} {op : OpWord}
  {p ps : SlotAt}

@[simp] theorem health_smRead (r : Nat) (a : Bool × State) :
    (smRead op fmt scaled n p ps r a).2.2.integ.health = a.2.integ.health := by
  simp only [smRead]; split <;> simp

@[simp] theorem health_smMask (r : Nat) (a : Bool × State) : (smMask op p r a).2.2.integ.health = a.2.integ.health := by
  simp [smMask]

@[simp] theorem health_smReadB : (smReadB op p r).2.2.integ.health = r.2.integ.health := by
  simp only [smReadB]; split <;> simp

@[simp] theorem health_smReadC : (smReadC op p r).2.2.integ.health = r.2.integ.health := by
  simp only [smReadC]; split <;> simp

@[simp] theorem health_smWrite (f : OutFmt) (rows : List (List SmVal)) :
    (smWrite f n p rows r).2.2.integ.health = r.2.integ.health := by
  simp only [smWrite]; split <;> simp

@[simp] theorem health_smReadA : (smReadA op p r).2.2.integ.health = r.2.integ.health := by simp [smReadA]

@[simp] theorem health_smRun (nanScale : Bool) (masked nans : Nat) (r : OpFlags × Bool × State) :
    (smRun nanScale masked nans r).2.2.integ.health = r.2.2.integ.health := by
  simp [smRun]

@[simp] theorem health_smMap : (smMap tile e s).2.2.integ.health = s.integ.health := by
  simp only [smMap]; split <;> simp

@[simp] theorem health_smReduce : (smReduce tile e s).2.2.integ.health = s.integ.health := by
  simp only [smReduce]
  repeat' split
  all_goals simp

@[simp] theorem health_smNorm : (smNorm tile e s).2.2.integ.health = s.integ.health := by
  simp only [smNorm]; split <;> simp

@[simp] theorem health_smSoftOp : (smSoftOp tile e s).2.2.integ.health = s.integ.health := by
  simp only [smSoftOp]
  repeat' split
  all_goals simp

@[simp] theorem health_smWork : (smWork code tile e s).2.2.integ.health = s.integ.health := by
  simp only [smWork]
  repeat' split
  all_goals simp [smCmpOp, smSelectOp]

@[simp] theorem health_smFinish : (smFinish tile uid code s).integ.health = s.integ.health := by
  simp only [smFinish]; split <;> simp

end

/-! ### ANISE -/

section
variable {s : State} {r : Bool × State} {e : Entry} {tile uid code a : Nat} {op : OpWord} {p : SlotAt}

@[simp] theorem health_anReportTo (f : TokenReport → TokenReport) :
    (anReportTo e f s).integ.health = s.integ.health := by
  simp [anReportTo]

@[simp] theorem health_anHistory : (anHistory op p r).2.2.integ.health = r.2.integ.health := by
  simp only [anHistory]
  repeat' split
  all_goals simp

@[simp] theorem health_anRows_ (r : Nat) (a : Bool × State) :
    (anRows_ op p r a).2.2.integ.health = a.2.integ.health := by
  simp [anRows_]

@[simp] theorem health_anEntry : (anEntry op p r).2.2.integ.health = r.2.integ.health := by simp [anEntry]

@[simp] theorem health_anVerifyOp : (anVerifyOp tile e s).2.2.integ.health = s.integ.health := by
  simp only [anVerifyOp]; split <;> simp

@[simp] theorem health_anWork : (anWork code tile e s).2.2.integ.health = s.integ.health := by
  simp only [anWork]
  repeat' split
  all_goals simp [anSampleOp, sampleReport]

@[simp] theorem health_anFinish : (anFinish tile uid code s).integ.health = s.integ.health := by
  simp only [anFinish]; split <;> simp

end

/-! ### FENNEL -/

section
variable {s : State} {r : Bool × State} {e : Entry} {tile uid code n w t b a g addr h hi l lo page src : Nat} {j :
  FnJob} {p : SlotAt} {x : EngineSel}

@[simp] theorem health_fnWord : (fnWord addr n s).2.integ.health = s.integ.health := by simp [fnWord, pkgWord]
@[simp] theorem health_fnPut (v : Nat) : (fnPut addr n v s).integ.health = s.integ.health := by simp [fnPut]
@[simp] theorem health_setFreeHead : (setFreeHead tile h s).integ.health = s.integ.health := by simp [setFreeHead]
@[simp] theorem health_setDead (l : List Nat) : (setDead tile l s).integ.health = s.integ.health := by simp [setDead]
@[simp] theorem health_setWork (l : List FoldWork) : (setWork tile l s).integ.health = s.integ.health := by
  simp [setWork]

@[simp] theorem health_pushFree (p : PoolParams) : (pushFree tile p page s).integ.health = s.integ.health := by
  simp [pushFree]

@[simp] theorem health_workEntry (p : PoolParams) (w : FoldWork) :
    (workEntry tile p w s).2.integ.health = s.integ.health := by
  simp only [workEntry]; split <;> simp [decPage]

@[simp] theorem health_foldStep (p : PoolParams) : (foldStep tile p s).integ.health = s.integ.health := by
  simp only [foldStep]; split <;> simp

@[simp] theorem health_foldMany {p : PoolParams} : (foldMany tile p n s).integ.health = s.integ.health := by
  induction n generalizing s with
  | zero => rfl
  | succ n ih => simp [foldMany, ih]

@[simp] theorem health_foldAll (p : PoolParams) : (foldAll tile p s).integ.health = s.integ.health := by simp [foldAll]
@[simp] theorem health_foldTiles : (foldTiles s).integ.health = s.integ.health := by
  simp only [foldTiles]; split <;> simp

@[simp] theorem health_reclaim (p : PoolParams) : (reclaim tile p s).integ.health = s.integ.health := by
  simp only [reclaim]; split <;> simp

@[simp] theorem health_background : (background tile s).integ.health = s.integ.health := by
  simp only [background]; split <;> simp

@[simp] theorem health_fennelCommit (ns : List PageNotice) : (fennelCommit n ns s).integ.health = s.integ.health := by
  simp only [fennelCommit]; split <;> simp [commitTile]

@[simp] theorem health_fennelAbort : (fennelAbort s).integ.health = s.integ.health := by
  simp only [fennelAbort]
  split
  · exact health_forAll fun a t => health_forAll fun b g => by simp
  · simp

@[simp] theorem health_fennelRestore : (fennelRestore s).integ.health = s.integ.health := by
  simp only [fennelRestore]; split <;> simp [rebuildTile]

@[simp] theorem health_fnRead (r : FnRun) : (fnRead addr n r).2.s.integ.health = r.s.integ.health := by simp [fnRead]

@[simp] theorem health_overlayAt (r : FnRun) : (overlayAt j l b r).2.s.integ.health = r.s.integ.health := by
  simp only [overlayAt]; split <;> simp

@[simp] theorem health_committedAt (r : FnRun) : (committedAt j l b r).2.s.integ.health = r.s.integ.health := by
  simp only [committedAt]; split <;> simp

@[simp] theorem health_allocPage (r : FnRun) : (allocPage j r).2.s.integ.health = r.s.integ.health := by
  simp only [allocPage]
  repeat' split
  all_goals simp [takePage]

@[simp] theorem health_listPair (dst : Nat) (r : FnRun) :
    (listPair l src dst n r).s.integ.health = r.s.integ.health := by
  simp only [listPair]; split <;> simp

@[simp] theorem health_appendPage {start : Nat} {a : FnRun} :
    (appendPage j start l b a).2.s.integ.health = a.s.integ.health := by
  have hover := health_overlayAt (j := j) (l := l) (b := b) (r := a)
  simp only [appendPage]
  split <;> rename_i heq <;> simp only [heq] at hover
  · split <;> simp [hover]
  · repeat' split
    all_goals simp [hover, addOverlay]

@[simp] theorem health_appendBlock (r : FnRun) (x : Nat × Nat) :
    (appendBlock j lo hi r x).s.integ.health = r.s.integ.health := by
  simp only [appendBlock]; split <;> simp

@[simp] theorem health_gatherBlock {a : FnRun} {x : Nat × Nat} :
    (gatherBlock j lo hi a x).s.integ.health = a.s.integ.health := by
  have hover := health_overlayAt (j := j) (l := x.1) (b := x.2) (r := a)
  simp only [gatherBlock]
  split
  · rfl
  · split <;> rename_i heq <;> simp only [heq] at hover <;> simp [hover]

@[simp] theorem health_stampPage (r : FnRun) : (stampPage j r g).s.integ.health = r.s.integ.health := by
  simp only [stampPage]
  repeat' split
  all_goals simp

@[simp] theorem health_fnBlocks (p : PoolParams) : (fnBlocks code tile e p s).s.integ.health = s.integ.health := by
  simp only [fnBlocks]; split <;> simp

@[simp] theorem health_fnStamped (p : PoolParams) : (fnStamped code tile e p s).s.integ.health = s.integ.health := by
  simp [fnStamped]

@[simp] theorem health_fnFinish : (fnFinish tile uid code s).integ.health = s.integ.health := by
  simp only [fnFinish]
  repeat' split
  all_goals simp [fnListed]

end

/-! ### Snoops -/

section
variable {s : State} {tile n h : Nat} {x : EngineSel}

@[simp] theorem health_snoopLine (entry : Nat) (x : Nat × Bool) :
    (snoopLine tile entry s x).integ.health = s.integ.health := by
  simp [snoopLine]

@[simp] theorem health_withSnoopAt {i : Instr} {f : State → State} (h : ∀ s, (f s).integ.health = s.integ.health) :
    (withSnoopAt n i f s).integ.health = s.integ.health := by
  simp [withSnoopAt, h]

@[simp] theorem health_withSnoop {i : Instr} {f : State → State} (h : ∀ s, (f s).integ.health = s.integ.health) :
    (withSnoop i f s).integ.health = s.integ.health := health_withSnoopAt h

end

/-! ### Adders and epochs of windows -/

section
variable {s : State} {w c a addr stream seq fmt : Nat} {poison : Bool} {vals : List Nat}

@[simp] theorem health_addCounts (c : ReCounts) : (addCounts w c s).integ.health = s.integ.health := by simp [addCounts]
@[simp] theorem health_winFold : (winFold w s).integ.health = s.integ.health := by simp [winFold, foldLine]
@[simp] theorem health_winMark : (winMark w s).integ.health = s.integ.health := by simp only [winMark]; split <;> simp

@[simp] theorem health_winComplete : (winComplete w s).integ.health = s.integ.health := by
  simp only [winComplete]
  repeat' split
  all_goals simp [winPublish, winZero, shardBytes]

@[simp] theorem health_winCheck : (winCheck w s).integ.health = s.integ.health := by
  simp only [winCheck]; split <;> simp
@[simp] theorem health_settleLasts : (settleLasts w s).integ.health = s.integ.health := by simp [settleLasts]
@[simp] theorem health_settleLocal : (settleLocal stream s).integ.health = s.integ.health := by simp [settleLocal]

@[simp] theorem health_adderApply (a : Accum) : (adderApply a s).integ.health = s.integ.health := by
  simp only [adderApply]; split <;> simp

@[simp] theorem health_adderServe (mc : Nat) (a : Accum) : (adderServe mc a s).integ.health = s.integ.health := by
  simp [adderServe, dropAccum]

@[simp] theorem health_queueVals (window : Nat) (isWin : Bool) :
    (queueVals stream seq window isWin fmt addr vals poison s).integ.health = s.integ.health := by
  simp [queueVals]

end

/-! ### The conductor and a member's side of a step -/

section
variable {s : State} {r : Bool × State} {code n t b m g slot id fault h l src status step taskId : Nat} {toks : List
  Nat} {x : EngineSel}

@[simp] theorem health_learnMembers : (learnMembers s).integ.health = s.integ.health := by
  simp only [learnMembers]; split <;> simp [learnMember]

@[simp] theorem health_addNotice (n : PageNotice) : (addNotice n s).integ.health = s.integ.health := by simp [addNotice]

@[simp] theorem health_newSeq (n : NewSeq) : (newSeq n s).2.integ.health = s.integ.health := by
  simp only [newSeq]; split <;> simp [newSeqApply]

@[simp] theorem health_endSeq : (endSeq slot status s).integ.health = s.integ.health := by simp [endSeq]

@[simp] theorem health_finishSeq : (finishSeq slot s).2.integ.health = s.integ.health := by
  simp only [finishSeq]
  repeat' split
  all_goals simp

@[simp] theorem health_sampleSeq (sample : Nat) : (sampleSeq slot sample s).2.integ.health = s.integ.health := by
  simp only [sampleSeq]
  repeat' split
  all_goals simp

@[simp] theorem health_admitFrom {l : Seqs} : (admitFrom l s).integ.health = s.integ.health := by
  induction l generalizing s with
  | nil => rfl
  | cons x l ih => simp [admitFrom, ih]

@[simp] theorem health_sendRun (r : RetStep) (rerun : Bool) : (sendRun r rerun s).integ.health = s.integ.health := by
  simp only [sendRun]; split <;> simp

@[simp] theorem health_finishForm : (finishForm s).integ.health = s.integ.health := by
  simp only [finishForm]; split <;> simp

@[simp] theorem health_formStep : (formStep s).integ.health = s.integ.health := by
  simp only [formStep]
  repeat' split
  all_goals simp [admitSeqs, beginForm, askPrompt]

@[simp] theorem health_promptFailed : (promptFailed id s).integ.health = s.integ.health := by
  simp only [promptFailed]; split <;> simp

@[simp] theorem health_tokensRecord (t : TokenReport) :
    (tokensRecord slot step fault t s).integ.health = s.integ.health := by
  simp [tokensRecord]

@[simp] theorem health_sendCommit (ns : List PageNotice) : (sendCommit step ns s m).integ.health = s.integ.health := by
  simp [sendCommit]

@[simp] theorem health_commitIn (ns : List PageNotice) : (commitIn step ns s).integ.health = s.integ.health := by
  simp [commitIn, windowsCommit, winCommit]

@[simp] theorem health_commitStep : (commitStep s).integ.health = s.integ.health := by
  simp only [commitStep]; split <;> simp [commitRec, openToken, commitNotice]

theorem health_stepRecv {src num : Nat} {t : State} (h : stepRecv src num s = some t) :
    t.integ.health = s.integ.health := by
  simp only [stepRecv] at h
  split at h
  · cases h; rfl
  · split at h
    · cases h; simp
    · cases h

@[simp] theorem health_headerIn (h : StepHeader) : (headerIn h s).integ.health = s.integ.health := by
  simp only [headerIn]; split <;> simp

@[simp] theorem health_tokensIn : (tokensIn toks s).integ.health = s.integ.health := by
  simp only [tokensIn]; split <;> simp
@[simp] theorem health_cancelSteps : (cancelSteps s).integ.health = s.integ.health := by simp [cancelSteps]
@[simp] theorem health_parkSteps : (parkSteps s).integ.health = s.integ.health := by simp [parkSteps]

@[simp] theorem health_clearStepTags : (clearStepTags s).integ.health = s.integ.health := by
  refine health_forAll (fun b g => ?_)
  dsimp only; split <;> simp

@[simp] theorem health_resubmitAll : (resubmitAll s).integ.health = s.integ.health := by
  simp only [resubmitAll]; split <;> simp [resubmit]

@[simp] theorem health_restoreCounters : (restoreCounters s).integ.health = s.integ.health := by
  simp only [restoreCounters]; split <;> simp

@[simp] theorem health_abortIn : (abortIn step code s).integ.health = s.integ.health := by
  simp only [abortIn]; split <;> simp

@[simp] theorem health_undoStep : (undoStep code s).integ.health = s.integ.health := by
  simp [undoStep, windowsAbort, dropArrivals]

@[simp] theorem health_payDone : (payDone s).integ.health = s.integ.health := by simp only [payDone]; split <;> simp

@[simp] theorem health_abortSettled : (abortSettled s).integ.health = s.integ.health := by
  simp only [abortSettled]; split <;> simp

@[simp] theorem health_memberFault : (memberFault code taskId s).integ.health = s.integ.health := by simp [memberFault]
@[simp] theorem health_rerunStep : (rerunStep s).integ.health = s.integ.health := by
  simp only [rerunStep]; split <;> simp
@[simp] theorem health_discardStep : (discardStep s).integ.health = s.integ.health := by simp [discardStep]

end

/-! ### The host link -/

section
variable {s : State} {r : Bool × State} {c ring index off id cq stream base fault h key keySet line : Nat} {caches
  dirty poison : Bool} {data : List Byte}

@[simp] theorem health_fetchTail (r : Nat) : (fetchTail r s).integ.health = s.integ.health := by simp [fetchTail]
@[simp] theorem health_fetchHead : (fetchHead c s).integ.health = s.integ.health := by simp [fetchHead]

@[simp] theorem health_watcherWake (head : Bool) : (watcherWake head ring s).integ.health = s.integ.health := by
  simp [watcherWake]

@[simp] theorem health_readData : (readData id data s).integ.health = s.integ.health := by
  simp only [readData]; split <;> simp [promptData, newTail]

@[simp] theorem health_writeDone : (writeDone id s).integ.health = s.integ.health := by
  simp only [writeDone]; split <;> simp

@[simp] theorem health_hostTimeout : (hostTimeout id s).integ.health = s.integ.health := by
  simp only [hostTimeout]
  repeat' split
  all_goals simp [cqError, snoopTimeout]

@[simp] theorem health_takeDesc : (takeDesc ring index s).integ.health = s.integ.health := by simp [takeDesc]

@[simp] theorem health_faultDesc (d : DescSlot) : (faultDesc ring fault d s).integ.health = s.integ.health := by
  simp [faultDesc]

@[simp] theorem health_withDesc {want : DescSlot → Bool} {f : DescSlot → State → State}
    (h : ∀ d s, (f d s).integ.health = s.integ.health) : (withDesc ring want f s).integ.health = s.integ.health := by
  unfold withDesc; repeat' split
  all_goals simp [h]

@[simp] theorem health_submitTask (d : DescSlot) : (submitTask ring d s).integ.health = s.integ.health := by
  simp [submitTask]

@[simp] theorem health_applyUpdate (d : DescSlot) (r : Nat × State) :
    (applyUpdate ring d r).integ.health = r.2.integ.health := by
  simp [applyUpdate, noteUpdate]

@[simp] theorem health_hdmCommit : (hdmCommit base s).integ.health = s.integ.health := by simp [hdmCommit]
@[simp] theorem health_listLine : (listLine line s).integ.health = s.integ.health := by simp [listLine]

@[simp] theorem health_hostRead.hostReadNow : (hostRead.hostReadNow line caches s).integ.health = s.integ.health := by
  simp [hostRead.hostReadNow]

@[simp] theorem health_hostRead {i : Instr} : (hostRead i off caches s).integ.health = s.integ.health := by
  simp only [hostRead]
  repeat' split
  all_goals simp

@[simp] theorem health_hostWrite (c : Instr) : (hostWrite c off data poison s).integ.health = s.integ.health := by
  simp [hostWrite]

@[simp] theorem health_snoopAnswer (dirty : List Byte) : (snoopAnswer line dirty s).integ.health = s.integ.health := by
  simp [snoopAnswer]

@[simp] theorem health_keyProg (dir sub refresh : Nat) :
    (keyProg stream dir sub keySet refresh key s).integ.health = s.integ.health := by
  simp only [keyProg]; split <;> simp

@[simp] theorem health_keyGo : (keyGo stream keySet s).integ.health = s.integ.health := by simp [keyGo]
@[simp] theorem health_ideLost : (ideLost s).integ.health = s.integ.health := by simp [ideLost]
@[simp] theorem health_moderationEnds : (moderationEnds cq s).integ.health = s.integ.health := by simp [moderationEnds]
@[simp] theorem health_holdoffEnds : (holdoffEnds s).integ.health = s.integ.health := by simp [holdoffEnds]

end

/-! ### Mailboxes -/

section
variable {s : State} {q : Req} {code c t a h status : Nat}

@[simp] theorem health_refuse : (refuse status s).state.integ.health = s.integ.health := by simp [refuse]
@[simp] theorem health_accept : (accept s).state.integ.health = s.integ.health := by simp [accept]

/-- A command that reaches its mailbox leaves the health alone, but for what its own effect does. -/
theorem health_runMail_cases (code via states : Nat) (auth claim : Bool) (q : Req) (f : State → Answer) (s : State) :
    (runMail code via states auth claim q f s).integ.health = s.integ.health ∨
    (runMail code via states auth claim q f s).integ.health = (f s).state.integ.health := by
  unfold runMail
  cases hf : f s
  all_goals
    dsimp only
    repeat' split
    all_goals simp

theorem health_runGuarded_cases (c : Instr) (code via states : Nat) (auth claim : Bool) (q : Req) (f : State → Answer)
    (s : State) :
    (runGuarded c code via states auth claim q f s).integ.health = s.integ.health ∨
    ∃ t, t.integ.health = s.integ.health ∧
    (runGuarded c code via states auth claim q f s).integ.health = (f t).state.integ.health := by
  unfold runGuarded
  dsimp only
  split
  · rcases health_runMail_cases code via states auth claim q f (clearTouch s) with h | h
    · exact .inl (by simp [h])
    · exact .inr ⟨clearTouch s, by simp, by simp [h]⟩
  · exact .inl (by simp)

theorem health_mailbox_cases (c : Instr) (code via states : Nat) (auth claim : Bool) (q : Req) (f : State → Answer)
    (s : State) :
    (mailbox c code via states auth claim q f s).integ.health = s.integ.health ∨
    ∃ t, t.integ.health = s.integ.health ∧
    (mailbox c code via states auth claim q f s).integ.health = (f t).state.integ.health := by
  have hrun (a : State) (ha : a.integ.health = s.integ.health) :=
    ha ▸ health_runGuarded_cases c code via states auth claim q f a
  unfold mailbox
  dsimp only
  repeat' split
  · exact .inl rfl
  · exact hrun _ rfl
  · exact .inl (by simp)
  · exact .inl (by simp)
  · exact hrun _ (by simp)

@[simp] theorem health_mailbox {i : Instr} {via states : Nat} {auth claim : Bool} {f : State → Answer}
    (h : ∀ s, (f s).state.integ.health = s.integ.health) :
    (mailbox i code via states auth claim q f s).integ.health = s.integ.health := by
  rcases health_mailbox_cases i code via states auth claim q f s with hm | ⟨t, ht, hm⟩
  · exact hm
  · rw [hm, h, ht]

@[simp] theorem health_freeExecutor : (freeExecutor s).integ.health = s.integ.health := by simp [freeExecutor]

end

/-! ### Packets that come in -/

section
variable {s : State} {code k n w t a port dpa stream seq peer h offset reason status : Nat} {poison : Bool} {vals :
  List Nat} {op : OpWord} {p : SlotAt}

@[simp] theorem health_resendAll (rs : List Retained) : (resendAll k rs s).integ.health = s.integ.health := by
  simp [resendAll]

@[simp] theorem health_resendFrom : (resendFrom k n s).integ.health = s.integ.health := by simp [resendFrom]

@[simp] theorem health_settleAll (rs : List Retained) : (settleAll rs code s).integ.health = s.integ.health := by
  simp [settleAll]

@[simp] theorem health_growCap : (growCap port peer s).integ.health = s.integ.health := by simp [growCap]

@[simp] theorem health_refusedAt : (refusedAt k n reason s).integ.health = s.integ.health := by
  simp only [refusedAt]; split <;> simp [dropUnsent]

@[simp] theorem health_sendAck : (sendAck k s).integ.health = s.integ.health := by simp [sendAck]
@[simp] theorem health_sendNak : (sendNak k s).integ.health = s.integ.health := by simp [sendNak]

@[simp] theorem health_sendRefuse (p : Packet) : (sendRefuse k reason p s).integ.health = s.integ.health := by
  simp [sendRefuse]

@[simp] theorem health_arrive (op : Nat) (p : Packet) : (arrive port op p s).integ.health = s.integ.health := by
  simp [arrive]

@[simp] theorem health_screen (op : Nat) (p : Packet) : (screen port op p s).2.integ.health = s.integ.health := by
  simp only [screen]
  repeat' split
  all_goals simp

@[simp] theorem health_inSequence {op : Nat} {p : Packet} {f : Nat → State → Took}
    (h : ∀ k s, (f k s).state.integ.health = s.integ.health) :
    (inSequence port op p f s).integ.health = s.integ.health := by
  have hscreen := health_screen (port := port) (op := op) (p := p) (s := s)
  simp only [inSequence]
  split <;> rename_i heq <;> simp only [heq] at hscreen
  · exact hscreen
  · rename_i k s1
    have hf := h k s1
    repeat' split
    all_goals simp_all

@[simp] theorem health_outOfSequence {op : Nat} {p : Packet} {f : Nat → State → State}
    (h : ∀ k s, (f k s).integ.health = s.integ.health) :
    (outOfSequence port op p f s).integ.health = s.integ.health := by
  have hscreen := health_screen (port := port) (op := op) (p := p) (s := s)
  simp only [outOfSequence]
  split <;> rename_i heq <;> simp only [heq] at hscreen
  · exact hscreen
  · simp [h, hscreen]

@[simp] theorem health_inOrder {f : State → Took} (h : ∀ s, (f s).state.integ.health = s.integ.health) :
    (inOrder k f s).state.integ.health = s.integ.health := by
  simp [inOrder, h, drainStream]

@[simp] theorem health_pastFold {t : Took} (h : t.state.integ.health = s.integ.health) :
    (pastFold dpa n t s).state.integ.health = s.integ.health := by
  simp [pastFold, h]

@[simp] theorem health_winAccept (p : Packet) : (winAccept w k p s).integ.health = s.integ.health := by simp [winAccept]

@[simp] theorem health_windowWrite (p : Packet) : (windowWrite k p s).integ.health = s.integ.health := by
  simp only [windowWrite]
  repeat' split
  all_goals simp

@[simp] theorem health_busyAnswer : (busyAnswer k s).state.integ.health = s.integ.health := by simp [busyAnswer]

@[simp] theorem health_onWrite (p : Packet) : (onWrite p k s).state.integ.health = s.integ.health := by
  simp [onWrite, writeAt, trustWrite]

@[simp] theorem health_onRead (p : Packet) : (onRead p k s).state.integ.health = s.integ.health := by
  simp [onRead, readAt, answerRead]

@[simp] theorem health_onReadResp {p : Packet} : (onReadResp p k s).state.integ.health = s.integ.health := by
  refine health_inOrder (fun s => ?_)
  dsimp only; split <;> simp

@[simp] theorem health_queueWindow (last : Bool) :
    (queueWindow stream seq w offset vals poison last s).integ.health = s.integ.health := by
  simp [queueWindow]

@[simp] theorem health_boardAccum (p : Packet) : (boardAccum k p s).integ.health = s.integ.health := by
  simp only [boardAccum]; split <;> simp

@[simp] theorem health_accumAt (p : Packet) : (accumAt p k s).state.integ.health = s.integ.health := by simp [accumAt]

@[simp] theorem health_onAccum {p : Packet} : (onAccum p k s).state.integ.health = s.integ.health := by
  have hrun (a : State) := health_accumAt (p := p) (k := k) (s := a)
  simp only [onAccum]
  split
  · have h := hrun s
    split <;> simp_all
  · rw [health_inOrder]
    intro a
    have h := hrun a
    split <;> simp_all

@[simp] theorem health_onFenceInc {p : Packet} : (onFenceInc p k s).state.integ.health = s.integ.health := by
  refine health_inOrder (fun s => ?_)
  dsimp only; repeat' split
  all_goals simp

@[simp] theorem health_onBarArrive (p : Packet) : (onBarArrive p k s).state.integ.health = s.integ.health := by
  simp [onBarArrive]

@[simp] theorem health_onBarRelease (p : Packet) : (onBarRelease p k s).state.integ.health = s.integ.health := by
  simp [onBarRelease]

@[simp] theorem health_onAck (p : Packet) : (onAck p k s).integ.health = s.integ.health := by
  simp [onAck, ackUpTo, halveCap]
@[simp] theorem health_onNak (p : Packet) : (onNak p k s).integ.health = s.integ.health := by simp [onNak]
@[simp] theorem health_onRefuse (p : Packet) : (onRefuse p k s).integ.health = s.integ.health := by simp [onRefuse]
@[simp] theorem health_freePending : (freePending k s).integ.health = s.integ.health := by simp [freePending]
@[simp] theorem health_endOpen : (endOpen k status s).integ.health = s.integ.health := by
  simp only [endOpen]; split <;> simp
@[simp] theorem health_resetChan : (resetChan k s).integ.health = s.integ.health := by simp [resetChan]

end

/-! ### Members, channels, peers -/

section
variable {s : State} {k w t m port peer counter h high low : Nat}

@[simp] theorem health_rebuildRoutes : (rebuildRoutes s).integ.health = s.integ.health := by simp [rebuildRoutes]
@[simp] theorem health_openChan : (openChan k port low high s).integ.health = s.integ.health := by simp [openChan]
@[simp] theorem health_peerOpens : (peerOpens k s).integ.health = s.integ.health := by simp [peerOpens]
@[simp] theorem health_reopenChan : (reopenChan k s).integ.health = s.integ.health := by simp [reopenChan]

@[simp] theorem health_reopenWhere (f : Nat → Bool) : (reopenWhere f s).integ.health = s.integ.health := by
  simp [reopenWhere]

@[simp] theorem health_serveAgain (was : ModState) : (serveAgain was s).integ.health = s.integ.health := by
  simp only [serveAgain]
  repeat' split
  all_goals simp [reopenAll]

@[simp] theorem health_backReady : (backReady s).integ.health = s.integ.health := by simp [backReady]

@[simp] theorem health_resendStep : (resendStep m s).integ.health = s.integ.health := by
  simp only [resendStep]
  repeat' split
  all_goals simp

@[simp] theorem health_payOwed : (payOwed m s).integ.health = s.integ.health := by simp [payOwed]

@[simp] theorem health_sendNotice : (sendNotice w peer s).integ.health = s.integ.health := by
  simp only [sendNotice]; split <;> simp

@[simp] theorem health_memberDown : (memberDown m s).integ.health = s.integ.health := by
  simp [memberDown, barPeerLost, parkForManager]

@[simp] theorem health_memberUp : (memberUp m s).integ.health = s.integ.health := by simp [memberUp]
@[simp] theorem health_endAdmission : (endAdmission m s).integ.health = s.integ.health := by simp [endAdmission]
@[simp] theorem health_memberGone : (memberGone m s).integ.health = s.integ.health := by simp [memberGone]
@[simp] theorem health_settlePair : (settlePair m s).integ.health = s.integ.health := by simp [settlePair]

theorem health_mgmtRecv {m counter : Nat} {tagOk : Bool} {t : State} (h : mgmtRecv m counter tagOk s = some t) :
    t.integ.health = s.integ.health := by
  simp only [mgmtRecv] at h
  split at h
  · cases h; simp
  · cases h

@[simp] theorem health_rekeyPair (secret : Nat) : (rekeyPair m secret s).integ.health = s.integ.health := by
  simp [rekeyPair]

end

/-! ### Ports -/

section
variable {s : State} {r : Bool × State} {port seq cause ack h loopNs : Nat}

@[simp] theorem health_portReport (before : Nat) : (portReport port before s).integ.health = s.integ.health := by
  simp [portReport]

@[simp] theorem health_leaveUp : (leaveUp port s).integ.health = s.integ.health := by simp [leaveUp, abortStepTasks]
@[simp] theorem health_portDown : (portDown port cause s).integ.health = s.integ.health := by simp [portDown]

@[simp] theorem health_portQuarantine : (portQuarantine port cause s).integ.health = s.integ.health := by
  simp [portQuarantine]

@[simp] theorem health_portGoUp (minor : Nat) : (portGoUp port minor s).integ.health = s.integ.health := by
  simp [portGoUp]
@[simp] theorem health_startTraining : (startTraining port s).integ.health = s.integ.health := by simp [startTraining]

@[simp] theorem health_checkMapping (r : IdRecord) : (checkMapping port r s).integ.health = s.integ.health := by
  simp only [checkMapping]
  repeat' split
  all_goals simp

@[simp] theorem health_endIdentity : (endIdentity port loopNs s).integ.health = s.integ.health := by
  simp only [endIdentity]; split <;> simp [dropReach]

@[simp] theorem health_trainStep : (trainStep port loopNs s).integ.health = s.integ.health := by
  simp only [trainStep]
  repeat' split
  all_goals simp

@[simp] theorem health_identity (r : IdRecord) : (identity port r s).integ.health = s.integ.health := by simp [identity]

@[simp] theorem health_replanPort : (replanPort s port).integ.health = s.integ.health := by
  simp only [replanPort]
  repeat' split
  all_goals simp

@[simp] theorem health_frameAck : (frameAck port ack s).integ.health = s.integ.health := by simp [frameAck]
@[simp] theorem health_frameNak : (frameNak port seq s).integ.health = s.integ.health := by simp [frameNak]
@[simp] theorem health_nakFrame : (nakFrame port s).integ.health = s.integ.health := by simp [nakFrame]

@[simp] theorem health_frameIn (lanes direct : List Nat) :
    (frameIn port seq ack lanes direct s).integ.health = s.integ.health := by
  simp [frameIn, msgsArrive]

@[simp] theorem health_codewords (errs : List (List Nat)) : (codewords port errs s).integ.health = s.integ.health := by
  simp [codewords]

@[simp] theorem health_frameArrives {crcOk : Bool} {errs : List (List Nat)} {f : State → State}
    (h : ∀ s, (f s).integ.health = s.integ.health) :
    (frameArrives port crcOk errs f s).integ.health = s.integ.health := by
  simp [frameArrives, h]

@[simp] theorem health_lightPort (lasersOk lanesOk : Nat) :
    (lightPort lasersOk lanesOk s port).integ.health = s.integ.health := by
  simp [lightPort]

end

/-! ### Long commands -/

section
variable {s : State} {tile k w c g ring slot addr engine l : Nat} {aon : Bool}

@[simp] theorem health_closeWin : (closeWin w s).integ.health = s.integ.health := by
  simp only [closeWin]
  repeat' split
  all_goals simp

@[simp] theorem health_closeChan : (closeChan k s).integ.health = s.integ.health := by simp [closeChan]
@[simp] theorem health_cleanEvict : (cleanEvict addr s).integ.health = s.integ.health := by simp [cleanEvict]
@[simp] theorem health_endRing : (endRing ring s).2.integ.health = s.integ.health := by simp [endRing]
@[simp] theorem health_endCq : (endCq c s).integ.health = s.integ.health := by simp [endCq]
@[simp] theorem health_releaseGranule : (releaseGranule tile g s).integ.health = s.integ.health := by
  simp [releaseGranule]
@[simp] theorem health_swapTable : (swapTable tile engine slot s).integ.health = s.integ.health := by simp [swapTable]

@[simp] theorem health_tryFinish : (tryFinish s).integ.health = s.integ.health := by
  simp only [tryFinish]; split <;> simp [finishLong]

@[simp] theorem health_beginLong (l : LongCmd) : (beginLong l s).state.integ.health = s.integ.health := by
  simp [beginLong]
@[simp] theorem health_collected (state : Nat) : (collected aon state s).integ.health = s.integ.health := by
  simp [collected]

@[simp] theorem health_endLong : (endLong s).integ.health = s.integ.health := by
  simp only [endLong]; split <;> simp [cutCollect]

end

/-! ### Resets, boot, standby -/

section
variable {s : State} {r : Bool × State} {n a ring addr cq cause : Nat} {activeOk otherOk pendingOk : Bool} {ds : List
  Nat} {x : EngineSel}

@[simp] theorem health_taskIdOf (d : DescSlot) : (taskIdOf ring d s).2.integ.health = s.integ.health := by
  simp only [taskIdOf]; split <;> simp

@[simp] theorem health_endDesc (was : CompRing) (d : DescSlot) :
    (endDesc was ring s d).integ.health = s.integ.health := by
  simp [endDesc]

@[simp] theorem health_endDescs (old : SMap CompRing) : (endDescs old s ring).integ.health = s.integ.health := by
  simp [endDescs]

@[simp] theorem health_requeue (r : Record) : (requeue cq r s).integ.health = s.integ.health := by simp [requeue]

@[simp] theorem health_ringRecords : (ringRecords s).integ.health = s.integ.health := by
  simp only [ringRecords]
  simp
  rw [health_forAll]
  · rw [health_foldl]
    simp
  · intro a x; split <;> simp

@[simp] theorem health_writeOut : (writeOut cq n s).integ.health = s.integ.health := by
  induction n generalizing s with
  | zero => rfl
  | succ n ih => simp [writeOut, ih]

@[simp] theorem health_writeAll : (writeAll s).integ.health = s.integ.health := by simp [writeAll]
@[simp] theorem health_fetchWatched : (fetchWatched s).integ.health = s.integ.health := by simp [fetchWatched]

@[simp] theorem health_modFwSlot (i : Nat) (f : FwSlot → FwSlot) : (modFwSlot i f s).integ.health = s.integ.health := by
  simp [modFwSlot]

@[simp] theorem health_dropTransfer : (dropTransfer s).integ.health = s.integ.health := by
  simp only [dropTransfer]; split <;> simp

@[simp] theorem health_stopCardamom : (stopCardamom s).integ.health = s.integ.health := by
  simp [stopCardamom, abortTests]
@[simp] theorem health_dropPending : (dropPending s).integ.health = s.integ.health := by simp [dropPending]

@[simp] theorem health_portsDownReset : (portsDownReset s).integ.health = s.integ.health := by
  simp [portsDownReset, portsReset]

@[simp] theorem health_coreReset : (coreReset cause s).integ.health = s.integ.health := by
  simp [coreReset, resetTiles, resetFences, resetChans, resetCond, resetHostLink, evcReset]

@[simp] theorem health_restoreManager : (restoreManager s).integ.health = s.integ.health := by
  simp only [restoreManager]; split <;> simp

@[simp] theorem health_submitResidency : (submitResidency s).integ.health = s.integ.health := by
  simp only [submitResidency]; split <;> simp

@[simp] theorem health_listedOps : (listedOps addr s).2.integ.health = s.integ.health := by
  simp only [listedOps]; split <;> simp

@[simp] theorem health_residencyOps : (residencyOps s).2.integ.health = s.integ.health := by
  simp only [residencyOps]; split <;> simp

@[simp] theorem health_wipeModule : (wipeModule s).integ.health = s.integ.health := by simp [wipeModule]
@[simp] theorem health_extendMeas (i d : Nat) : (extendMeas i d s).integ.health = s.integ.health := by simp [extendMeas]
@[simp] theorem health_logFallback : (logFallback s).integ.health = s.integ.health := by simp [logFallback]
@[simp] theorem health_bootRuns : (bootRuns ds s).integ.health = s.integ.health := by simp [bootRuns, measureBoot]

@[simp] theorem health_bootVerify : (bootVerify pendingOk activeOk otherOk ds s).integ.health = s.integ.health := by
  simp only [bootVerify]; split <;> simp [bootActive, bootDead]

@[simp] theorem health_bootFree : (bootFree s).integ.health = s.integ.health := by simp [bootFree]

@[simp] theorem health_moduleReset (commanded : Bool) :
    (moduleReset cause commanded s).integ.health = s.integ.health := by
  simp [moduleReset]

@[simp] theorem health_moduleRestart : (moduleRestart cause s).integ.health = s.integ.health := by simp [moduleRestart]

@[simp] theorem health_takePending : (takePending s).integ.health = s.integ.health := by
  simp only [takePending]; split <;> simp

@[simp] theorem health_bootFallback : (bootFallback s).integ.health = s.integ.health := by
  simp only [bootFallback]; split <;> simp

@[simp] theorem health_powerOff : (powerOff s).integ.health = s.integ.health := by simp [powerOff]

end

/-! ### The board cascade -/

section
variable {s : State} {code slot addr seq cause pattern serial src : Nat} {body : List Nat} {p : SlotAt}

@[simp] theorem health_cfSend : (cfSend code addr body s).integ.health = s.integ.health := by simp [cfSend]
@[simp] theorem health_cfUp : (cfUp code body s).integ.health = s.integ.health := by simp [cfUp]
@[simp] theorem health_cfAll : (cfAll code body s).integ.health = s.integ.health := by simp [cfAll]
@[simp] theorem health_cfRelay : (cfRelay code src body s).integ.health = s.integ.health := by simp [cfRelay]
@[simp] theorem health_cfOn : (cfOn code body s).integ.health = s.integ.health := by simp [cfOn]
@[simp] theorem health_cascadeFault : (cascadeFault s).integ.health = s.integ.health := by simp [cascadeFault]
@[simp] theorem health_sendLoops : (sendLoops s).integ.health = s.integ.health := by simp [sendLoops]

@[simp] theorem health_grantNext : (grantNext s).integ.health = s.integ.health := by
  simp only [grantNext]; split <;> simp [finishRamp]

@[simp] theorem health_masterWaited : (masterWaited s).integ.health = s.integ.health := by simp [masterWaited]

@[simp] theorem health_slotEnds : (slotEnds s).integ.health = s.integ.health := by
  simp only [slotEnds]
  repeat' split
  all_goals simp

@[simp] theorem health_takeGrant : (takeGrant slot s).integ.health = s.integ.health := by simp [takeGrant]
@[simp] theorem health_grantTimeout : (grantTimeout s).integ.health = s.integ.health := by simp [grantTimeout]
@[simp] theorem health_soloRamp : (soloRamp s).integ.health = s.integ.health := by simp [soloRamp]
@[simp] theorem health_rampDoneIn (p : Nat) : (rampDoneIn p s).integ.health = s.integ.health := by simp [rampDoneIn]
@[simp] theorem health_rampDone : (rampDone s).integ.health = s.integ.health := by simp [rampDone]

@[simp] theorem health_helloIn (p : Nat) (onUp : Bool) : (helloIn p serial onUp s).integ.health = s.integ.health := by
  simp [helloIn]

@[simp] theorem health_boardIn (p : Nat) (present : Bool) :
    (boardIn p present serial s).integ.health = s.integ.health := by
  simp [boardIn]

@[simp] theorem health_loopIn (p : Nat) : (loopIn p seq pattern s).integ.health = s.integ.health := by
  simp [loopIn, countLoop]

@[simp] theorem health_faultIn (p : Nat) : (faultIn p cause s).integ.health = s.integ.health := by simp [faultIn]

@[simp] theorem health_cascadeResetIn (level : Nat) : (cascadeResetIn level s).integ.health = s.integ.health := by
  simp only [cascadeResetIn]
  repeat' split
  all_goals simp

@[simp] theorem health_cascadeResend : (cascadeResend s).integ.health = s.integ.health := by
  simp only [cascadeResend]; split <;> simp

end

/-! ### Ends of drains -/

section
variable {s : State} {t g index kind engine : Nat}

@[simp] theorem health_drainDone : (drainDone t s).integ.health = s.integ.health := by
  simp only [drainDone]; split <;> simp
@[simp] theorem health_drainFor : (drainFor kind index s).integ.health = s.integ.health := by simp [drainFor]

@[simp] theorem health_granuleFreed : (granuleFreed g s).integ.health = s.integ.health := by
  simp only [granuleFreed]; split <;> simp

@[simp] theorem health_bankSwap : (bankSwap t engine s).integ.health = s.integ.health := by
  simp only [bankSwap]; split <;> simp

@[simp] theorem health_sessionExpires : (sessionExpires s).integ.health = s.integ.health := by simp [sessionExpires]

end

/-! ### CUMIN -/

section
variable {s : State} {r : Bool × State} {e : Entry} {tile uid n rows : Nat} {op : OpWord} {p : SlotAt}

@[simp] theorem health_cmReadA : (cmReadA op p r).2.2.integ.health = r.2.integ.health := by
  simp only [cmReadA]; split <;> simp

@[simp] theorem health_cmReadTile : (cmReadTile op p rows n r).2.2.integ.health = r.2.integ.health := by
  simp only [cmReadTile]; split <;> simp

@[simp] theorem health_cmReadB {left : Nat} : (cmReadB op p left n r).2.2.integ.health = r.2.integ.health := by
  induction n generalizing p left r with
  | zero => rfl
  | succ n ih => simp [cmReadB, ih]

@[simp] theorem health_cmProblem (f : OutFmt) (pa pb pc po : SlotAt) (p : Nat) (acc : OpFlags × Bool × State) :
    (cmProblem f op pa pb pc po p acc).2.2.integ.health = acc.2.2.integ.health := by
  simp only [cmProblem]
  repeat' split
  all_goals simp

@[simp] theorem health_cmWork : (cmWork tile e s).2.2.integ.health = s.integ.health := by
  simp only [cmWork]; split <;> simp

@[simp] theorem health_cmFinish : (cmFinish tile uid s).integ.health = s.integ.health := by
  simp only [cmFinish]; split <;> simp

end

/-! ### Start-up -/

section
variable {s : State} {pos tiles : Nat} {activeOk otherOk pendingOk : Bool} {ds : List Nat}

@[simp] theorem health_inputIn : (inputIn pos s).integ.health = s.integ.health := by simp [inputIn]

@[simp] theorem health_inputOut (us : Nat) : (inputOut us s).integ.health = s.integ.health := by simp [inputOut]

@[simp] theorem health_perstOn (ns : Nat) : (perstOn ns s).integ.health = s.integ.health := by simp [perstOn]

@[simp] theorem health_perstOff : (perstOff pendingOk activeOk otherOk ds s).integ.health = s.integ.health := by
  simp [perstOff]

@[simp] theorem health_fillDone : (fillDone s).integ.health = s.integ.health := by simp [fillDone]
@[simp] theorem health_portsMayTrain : (portsMayTrain s).integ.health = s.integ.health := by simp [portsMayTrain]

@[simp] theorem health_checkerDone (fails : Nat) : (checkerDone tiles fails s).integ.health = s.integ.health := by
  simp [checkerDone, checkerEntry]

end

/-! ### Scrubbers, self-tests, reloads -/

section
variable {s : State} {w c t slot elapsed l tiles : Nat} {board sourceOk : Bool} {data : List Byte} {loc : Loc} {p :
  SlotAt} {x : EngineSel}

@[simp] theorem health_testWrites : (testWrites loc s).integ.health = s.integ.health := by
  simp only [testWrites]; split <;> simp

@[simp] theorem health_promoteTest : (promoteTest loc s).integ.health = s.integ.health := by simp [promoteTest]

@[simp] theorem health_verified : (verified s).integ.health = s.integ.health := by
  simp [verified, wake, restore, restoreWindow, restoreConfigs, restoreTables]

@[simp] theorem health_scrubRead (cw : Nat) : (scrubRead cw s).integ.health = s.integ.health := by
  simp only [scrubRead]; split <;> simp

@[simp] theorem health_scrubAbort : (scrubAbort s).integ.health = s.integ.health := by
  simp only [scrubAbort]; split <;> simp

@[simp] theorem health_scrubChannel : (scrubChannel t c s).integ.health = s.integ.health := by
  simp [scrubChannel, scrubStep, pkgLapEnds]

@[simp] theorem health_scrubSlot : (scrubSlot t s).integ.health = s.integ.health := by simp [scrubSlot]
@[simp] theorem health_lapOverdue (slot : Bool) : (lapOverdue t slot s).integ.health = s.integ.health := by
  simp [lapOverdue]

@[simp] theorem health_setReloading (l : List WeightBlock) : (setReloading l s).integ.health = s.integ.health := by
  simp [setReloading]

@[simp] theorem health_reloadLog (w : WeightBlock) : (reloadLog w s).integ.health = s.integ.health := by
  simp [reloadLog]

/-- A block's 1024 lines are poisoned one after another. The update of the conductor is taken off by `rw`, because the
kernel would otherwise run them to compare the two states. -/
@[simp] theorem health_reloadFails (w : WeightBlock) (p : WeightParams) :
    (reloadFails w p s).integ.health = s.integ.health := by
  have hcond (t : State) (c : Conductor) : ({ t with cond := c } : State).integ.health = t.integ.health := rfl
  rw [reloadFails]
  dsimp only
  split
  · rw [health_jobFaultRecord, hcond]
    simp
  · simp

@[simp] theorem health_reloadData {x : WeightBlock} {p : WeightParams} :
    (reloadData x p data sourceOk s).2.integ.health = s.integ.health := by
  rw [reloadData]
  split
  · have hread : (pkgRead 1 1 (p.src + 65536 * x.block) 65536 s).2.integ.health = s.integ.health := health_pkgRead
    cases hr : pkgRead 1 1 (p.src + 65536 * x.block) 65536 s
    rw [hr] at hread
    exact hread
  · rfl

@[simp] theorem health_bistZero (memory : Nat) : (bistZero tiles memory s).integ.health = s.integ.health := by
  simp [bistZero, zeroPkgTile, zeroSlotTile]

@[simp] theorem health_loopbackDone (lostPos lostPlane : List Nat) :
    (loopbackDone board lostPos lostPlane elapsed s).integ.health = s.integ.health := by
  simp only [loopbackDone]; split <;> simp

end

/-! ### Tenancy -/

section
variable {s : State} {q : Req} {m index ek mask nonce offset : Nat} {sigOk : Bool}

@[simp] theorem health_readCert : (readCert index offset s).state.integ.health = s.integ.health := by simp [readCert]
@[simp] theorem health_attestNow : (attestNow nonce mask s).state.integ.health = s.integ.health := by simp [attestNow]

@[simp] theorem health_answerPeer : (answerPeer m nonce ek s).integ.health = s.integ.health := by
  simp only [answerPeer]
  repeat' split
  all_goals simp

@[simp] theorem health_openPart1 (rsvZero : Bool) :
    (openPart1 sigOk rsvZero s).state.integ.health = s.integ.health := by
  simp only [openPart1]; split <;> simp [newSession]

@[simp] theorem health_openSession (part pk : Nat) :
    (openSession q part pk ek sigOk s).state.integ.health = s.integ.health := by
  simp [openSession, openPart0]

@[simp] theorem health_claim (session policy nfw : Nat) (allow : List Nat) :
    (claim session policy nfw allow s).state.integ.health = s.integ.health := by
  simp only [claim]; split <;> simp [claimFor]

@[simp] theorem health_endTenancy : (endTenancy s).integ.health = s.integ.health := by simp [endTenancy, emptyHost]

end

/-! ### Memory, rings and pools, as group 4 sets them -/

section
variable {s : State} {r : Bool × State} {q : Req} {tile w c ring first count l : Nat} {p : SlotAt}

@[simp] theorem health_setRegions (l : List RegionEntry) : (setRegions l s).state.integ.health = s.integ.health := by
  simp [setRegions]

@[simp] theorem health_setHdmSize (units : Nat) : (setHdmSize units s).state.integ.health = s.integ.health := by
  simp [setHdmSize]

@[simp] theorem health_setArb (share threshold : Nat) :
    (setArb share threshold s).state.integ.health = s.integ.health := by
  simp [setArb]

@[simp] theorem health_setTimeout (ms : Nat) : (setTimeout ms s).state.integ.health = s.integ.health := by
  simp [setTimeout]

@[simp] theorem health_createRing (r : RingParams) : (createRing r s).state.integ.health = s.integ.health := by
  simp [createRing]

@[simp] theorem health_createCq (r : RingParams) : (createCq r s).state.integ.health = s.integ.health := by
  simp [createCq]
@[simp] theorem health_destroyRing : (destroyRing q ring s).state.integ.health = s.integ.health := by simp [destroyRing]
@[simp] theorem health_destroyCq : (destroyCq q c s).state.integ.health = s.integ.health := by simp [destroyCq]

@[simp] theorem health_configPool (p : PoolParams) : (configPool p s).state.integ.health = s.integ.health := by
  simp [configPool, zeroRange, linkPages]

@[simp] theorem health_releaseSlots : (releaseSlots q tile first count s).state.integ.health = s.integ.health := by
  simp [releaseSlots]

@[simp] theorem health_setWeights (w : WeightParams) : (setWeights w s).state.integ.health = s.integ.health := by
  simp [setWeights]

end

/-! ### Plan, jobs, channels, windows and ports, as group 5 sets them -/

section
variable {s : State} {q : Req} {w port peer h high job low mask number : Nat} {members : List Nat} {p : SlotAt}

@[simp] theorem health_setPlan (fabricId generation : Nat) (plan : List PlanEntry) :
    (setPlan fabricId generation plan s).state.integ.health = s.integ.health := by
  simp [setPlan]

@[simp] theorem health_setMembers (ids : List Nat) : (setMembers ids s).state.integ.health = s.integ.health := by
  simp [setMembers]

@[simp] theorem health_attestPeer : (attestPeer q peer s).state.integ.health = s.integ.health := by simp [attestPeer]

@[simp] theorem health_joinJob (manager : Nat) :
    (joinJob job members manager s).state.integ.health = s.integ.health := by
  simp [joinJob]

@[simp] theorem health_leaveJob : (leaveJob job s).state.integ.health = s.integ.health := by
  simp only [leaveJob]; split <;> simp

@[simp] theorem health_openChannel :
    (openChannel q number peer port low high s).state.integ.health = s.integ.health := by
  simp [openChannel]

@[simp] theorem health_closeChannel : (closeChannel q number peer s).state.integ.health = s.integ.health := by
  simp [closeChannel]

@[simp] theorem health_openWindow (w : WindowParams) : (openWindow w s).state.integ.health = s.integ.health := by
  simp [openWindow]

@[simp] theorem health_closeWindow : (closeWindow q w s).state.integ.health = s.integ.health := by simp [closeWindow]
@[simp] theorem health_windowStatus : (windowStatus w s).state.integ.health = s.integ.health := by simp [windowStatus]

@[simp] theorem health_trustJob : (trustJob job s).state.integ.health = s.integ.health := by
  simp only [trustJob]; split <;> simp

@[simp] theorem health_overPorts {f : Nat → State → State} (h : ∀ p s, (f p s).integ.health = s.integ.health) :
    (overPorts mask f s).state.integ.health = s.integ.health := by
  simp [overPorts, h]

@[simp] theorem health_retrainPort (p : Nat) : (retrainPort p s).integ.health = s.integ.health := by simp [retrainPort]
@[simp] theorem health_disablePort (p : Nat) : (disablePort p s).integ.health = s.integ.health := by simp [disablePort]
@[simp] theorem health_enablePort (p : Nat) : (enablePort p s).integ.health = s.integ.health := by simp [enablePort]

end

/-! ### Step task sets, drains, configurations and tables, as group 6 sets them -/

section
variable {s : State} {q : Req} {cls c t b slot index dpa first kind count job l : Nat} {x : EngineSel}

@[simp] theorem health_readCaps : (readCaps cls s).state.integ.health = s.integ.health := by simp [readCaps]

@[simp] theorem health_judgeStep (f : StepSetParams) (t : SetTask) :
    (judgeStep f t s).2.integ.health = s.integ.health := by
  simp only [judgeStep]; split <;> simp

@[simp] theorem health_judgeSteps {f : StepSetParams} {l : List SetTask} :
    (judgeSteps f l s).2.integ.health = s.integ.health := by
  induction l generalizing s with
  | nil => rfl
  | cons x l ih => simp only [judgeSteps]; split <;> simp [ih]

@[simp] theorem health_judgeLoads {l : List SetTask} : (judgeLoads l s).2.integ.health = s.integ.health := by
  induction l generalizing s with
  | nil => rfl
  | cons x l ih =>
    simp only [judgeLoads]
    repeat' split
    all_goals simp [ih]

@[simp] theorem health_registerSet (f : StepSetParams) (capacity : Nat) (ks : List (Nat × Task)) :
    (registerSet f capacity ks s).integ.health = s.integ.health := by
  simp only [registerSet]; split <;> simp

@[simp] theorem health_register (f : StepSetParams) : (register f s).state.integ.health = s.integ.health := by
  simp only [register]
  repeat' split
  all_goals simp

@[simp] theorem health_releaseSet : (releaseSet job s).state.integ.health = s.integ.health := by simp [releaseSet]
@[simp] theorem health_resumeJob : (resumeJob job s).state.integ.health = s.integ.health := by simp [resumeJob]
@[simp] theorem health_drain : (drain q x s).state.integ.health = s.integ.health := by simp [drain]

@[simp] theorem health_abortParked : (abortParked x s).integ.health = s.integ.health := by
  simp only [abortParked]
  repeat' split
  all_goals simp

@[simp] theorem health_liftDrain : (liftDrain x s).integ.health = s.integ.health := by
  simp only [liftDrain]; split <;> simp
@[simp] theorem health_engineAbort : (engineAbort x s).state.integ.health = s.integ.health := by simp [engineAbort]

@[simp] theorem health_loadConfig (i : Nat) (c : List Byte) :
    (loadConfig i c s).state.integ.health = s.integ.health := by
  simp [loadConfig]

@[simp] theorem health_loadTable : (loadTable q slot dpa s).state.integ.health = s.integ.health := by
  simp [loadTable, shadowTable]

@[simp] theorem health_readTable : (readTable kind index s).state.integ.health = s.integ.health := by simp [readTable]
@[simp] theorem health_setFence (v : BitVec 64) : (setFence c v s).state.integ.health = s.integ.health := by
  simp [setFence]
@[simp] theorem health_readFences : (readFences first count s).state.integ.health = s.integ.health := by
  simp [readFences]

@[simp] theorem health_configBarrier (b : BarrierParams) : (configBarrier b s).state.integ.health = s.integ.health := by
  simp [configBarrier]

end

/-! ### Firmware -/

section
variable {s : State} {q : Req} {t slot id h offset owner size svn verdict version : Nat} {ok : Bool} {data : List
  Byte} {x : EngineSel}

@[simp] theorem health_openTransfer : (openTransfer owner slot size s).2.integ.health = s.integ.health := by
  simp [openTransfer, eraseSlot]

@[simp] theorem health_fwBegin : (fwBegin q slot size s).state.integ.health = s.integ.health := by simp [fwBegin]

theorem health_takeChunk {x : Transfer} {full offset : Nat} {data : List Byte} {t : State}
    (h : takeChunk x full offset data s = some t) : t.integ.health = s.integ.health := by
  simp only [takeChunk] at h
  repeat' split at h
  all_goals cases h
  all_goals simp

@[simp] theorem health_fwTransfer : (fwTransfer id offset data s).state.integ.health = s.integ.health := by
  simp only [fwTransfer]
  split
  · rfl
  · split
    · exact health_takeChunk ‹_›
    · rfl

@[simp] theorem health_markVerified (t : Transfer) : (markVerified t version svn s).integ.health = s.integ.health := by
  simp [markVerified]

@[simp] theorem health_fwVerify : (fwVerify id verdict version svn s).state.integ.health = s.integ.health := by
  simp only [fwVerify]; split <;> simp

theorem health_activateSlot {t : State} (h : activateSlot slot s = some t) : t.integ.health = s.integ.health := by
  simp only [activateSlot] at h
  repeat' split at h
  all_goals cases h
  all_goals simp

@[simp] theorem health_fwActivate (mode : Nat) : (fwActivate q slot mode s).state.integ.health = s.integ.health := by
  simp only [fwActivate]
  repeat' split
  · rfl
  · rfl
  all_goals simp [health_activateSlot ‹_›]

@[simp] theorem health_cancelTransfer (t : Transfer) : (cancelTransfer t s).integ.health = s.integ.health := by
  simp [cancelTransfer]

@[simp] theorem health_fwCancel : (fwCancel id s).state.integ.health = s.integ.health := by
  simp only [fwCancel]; split <;> simp

@[simp] theorem health_pldmAnswer : (pldmAnswer ok s).integ.health = s.integ.health := by simp [pldmAnswer]

@[simp] theorem health_pldmUpdate {f : State → Option State}
    (h : ∀ s t, f s = some t → t.integ.health = s.integ.health) :
    (pldmUpdate f s).integ.health = s.integ.health := by
  simp only [pldmUpdate]
  split
  · rfl
  · split
    · simp
    · split
      · simp [h _ _ ‹_›]
      · simp

theorem health_requestUpdate {slot size : Nat} {t : State} (h : requestUpdate slot size s = some t) :
    t.integ.health = s.integ.health := by
  simp only [requestUpdate] at h
  split at h
  · cases h; simp
  · cases h

@[simp] theorem health_pldmVerify : (pldmVerify verdict version svn s).integ.health = s.integ.health := by
  simp only [pldmVerify]; split <;> simp

@[simp] theorem health_firmwareData :
    (firmwareData offset data verdict version svn s).integ.health = s.integ.health := by
  simp only [firmwareData]
  split
  · split
    · rfl
    · split
      · simp [health_takeChunk ‹_›]
      · rfl
  · rfl

theorem health_activateFirmware {selfContained : Bool} {t : State} (h : activateFirmware selfContained s = some t) :
    t.integ.health = s.integ.health := by
  simp only [activateFirmware] at h
  repeat' split at h
  all_goals cases h
  simp

theorem health_cancelUpdate {t : State} (h : cancelUpdate s = some t) : t.integ.health = s.integ.health := by
  obtain ⟨x, -, rfl⟩ := Option.map_eq_some_iff.mp h
  simp

end

/-! ### Loss of the host link -/

section
variable {s : State}

@[simp] theorem health_linkDown : (linkDown s).integ.health = s.integ.health := by simp [linkDown, loseLink]

end

/-! ### MACE -/

section
variable {s : State} {r : Bool × State} {tile uid w a dpa stream first key tag : Nat} {op : OpWord} {p : SlotAt} {x :
  EngineSel}

@[simp] theorem health_maPayload (x : Nat × Nat × Nat) : (maPayload op p x r).2.2.integ.health = r.2.integ.health := by
  simp only [maPayload]; split <;> simp

@[simp] theorem health_maSendOne (a : MaRun) (x : (Nat × Nat × Nat) × Bool) :
    (maSendOne tile uid op tag key w first p a x).2.integ.health = a.2.integ.health := by
  simp only [maSendOne]
  repeat' split
  all_goals simp

@[simp] theorem health_maLocalOne (a : MaRun) (x : ((Nat × Nat × Nat) × Bool) × Nat) :
    (maLocalOne op tag w first stream p a x).2.integ.health = a.2.integ.health := by
  simp only [maLocalOne]
  repeat' split
  all_goals simp

@[simp] theorem health_maMemoryOne (a : MaRun) (x : ((Nat × Nat × Nat) × Bool) × Nat) :
    (maMemoryOne op dpa stream p a x).2.integ.health = a.2.integ.health := by
  simp only [maMemoryOne]
  repeat' split
  all_goals simp

@[simp] theorem health_awaitSent : (awaitSent tile uid s).integ.health = s.integ.health := by
  simp only [awaitSent]; split <;> simp

@[simp] theorem health_maFinish : (maFinish tile uid s).integ.health = s.integ.health := by
  simp only [maFinish]
  repeat' split
  all_goals simp [maHandOver, maSend, maFold, maStore]

end

/-! ### Memory controllers and sensors -/

section
variable {s : State} {cls c t sensor value : Nat}

@[simp] theorem health_takeSlot : (takeSlot t c cls s).integ.health = s.integ.health := by simp [takeSlot]

@[simp] theorem health_serveAccum : (serveAccum t c s).integ.health = s.integ.health := by
  simp only [serveAccum]; split <;> simp

@[simp] theorem health_serveReq : (serveReq t c s).integ.health = s.integ.health := by
  simp only [serveReq]; split <;> simp

@[simp] theorem health_promoteReq : (promoteReq t c s).integ.health = s.integ.health := by
  simp only [promoteReq]; split <;> simp

@[simp] theorem health_refreshChan : (refreshChan t c s).integ.health = s.integ.health := by simp [refreshChan]
@[simp] theorem health_relaxBand : (relaxBand t s).integ.health = s.integ.health := by simp [relaxBand]
@[simp] theorem health_tempEvent : (tempEvent sensor value s).integ.health = s.integ.health := by simp [tempEvent]

@[simp] theorem health_thermalTrip : (thermalTrip s).integ.health = s.integ.health := by simp [thermalTrip]

@[simp] theorem health_sampleDram (old new : Nat) : (sampleDram t old new s).integ.health = s.integ.health := by
  simp [sampleDram]

@[simp] theorem health_sampleJunction (old new : List Nat) :
    (sampleJunction t old new s).integ.health = s.integ.health := by
  simp [sampleJunction, junctionEvent]

@[simp] theorem health_sampleHub (old new : List Nat) : (sampleHub old new s).integ.health = s.integ.health := by
  simp [sampleHub]

@[simp] theorem health_sampleTemps (ts : List TileTemps) (hub : List Nat) :
    (sampleTemps ts hub s).integ.health = s.integ.health := by
  simp [sampleTemps]

@[simp] theorem health_samplePower (mv ma : Nat) : (samplePower mv ma s).integ.health = s.integ.health := by
  simp [samplePower, crossed]

@[simp] theorem health_grantBudgets (asked : Bool) (grants : List Nat) :
    (grantBudgets asked grants s).integ.health = s.integ.health := by
  simp [grantBudgets]

@[simp] theorem health_heartbeat : (heartbeat s).integ.health = s.integ.health := by simp [heartbeat]

end

/-! ### Registers -/

section
variable {s : State} {n index off at0 bank size value : Nat} {mb1 write : Bool} {bs data : List Byte}

@[simp] theorem health_statusW1c (bits : Nat) : (statusW1c mb1 bits s).integ.health = s.integ.health := by
  simp [statusW1c]
@[simp] theorem health_overrunMb : (overrunMb mb1 s).integ.health = s.integ.health := by simp [overrunMb]
@[simp] theorem health_shadowWrite : (shadowWrite mb1 at0 bs s).integ.health = s.integ.health := by simp [shadowWrite]
@[simp] theorem health_doorbell : (doorbell mb1 s).integ.health = s.integ.health := by simp [doorbell]
@[simp] theorem health_esClear (bits : BitVec 64) : (esClear bits s).integ.health = s.integ.health := by simp [esClear]

@[simp] theorem health_ovfClear (bits : BitVec 16) : (ovfClear bank bits s).integ.health = s.integ.health := by
  simp [ovfClear]

@[simp] theorem health_selWrite (v : BitVec 64) : (selWrite bank index v s).integ.health = s.integ.health := by
  simp [selWrite]

@[simp] theorem health_selBusWrite (v : BitVec 64) :
    (selBusWrite bank index size v s).integ.health = s.integ.health := by
  simp [selBusWrite]

@[simp] theorem health_evcZero : (evcZero s).integ.health = s.integ.health := by simp [evcZero]
@[simp] theorem health_evcHold (on : Bool) : (evcHold on s).integ.health = s.integ.health := by simp [evcHold]

@[simp] theorem health_write4 : (write4 off value s).integ.health = s.integ.health := by
  simp [write4, mbWrite, evcWrite, msixWrite]

@[simp] theorem health_bar0Write : (bar0Write off size value s).integ.health = s.integ.health := by
  simp only [bar0Write]
  repeat' split
  all_goals simp

@[simp] theorem health_apertureRead : (apertureRead at0 n s).2.integ.health = s.integ.health := by
  simp only [apertureRead]
  repeat' split
  all_goals simp

@[simp] theorem health_bar2Go : (bar2Go write off size data s).integ.health = s.integ.health := by
  simp [bar2Go, bar2Control, apertureWrite, bar2Closed]

end

/-! ### The recovery dump -/

section
variable {s : State} {n t at0 l page : Nat} {aon : Bool} {p : SlotAt} {x : EngineSel}

@[simp] theorem health_freeWalk {p : PoolParams} : (freeWalk p n page s).2.integ.health = s.integ.health := by
  induction n generalizing page s with
  | zero => rfl
  | succ n ih =>
    simp only [freeWalk]
    repeat' split
    all_goals simp [ih]

@[simp] theorem health_dumpFennelTile (p : PoolParams) : (dumpFennelTile p t s).2.integ.health = s.integ.health := by
  simp [dumpFennelTile]

@[simp] theorem health_dumpFennel : (dumpFennel s).2.integ.health = s.integ.health := by
  simp only [dumpFennel]
  split
  · rfl
  · rw [health_foldl_snd]
    simp

@[simp] theorem health_writeSections {l : List (Nat × Bool × List Byte)} :
    (writeSections l at0 s).2.integ.health = s.integ.health := by
  induction l generalizing at0 s with
  | nil => rfl
  | cons x l ih => simp [writeSections, ih]

@[simp] theorem health_collect : (collect aon s).2.integ.health = s.integ.health := by
  simp [collect, writeDump, dumpEngines]

end

/-! ### Monitoring, tests and the sideband -/

section
variable {s : State} {q : Req} {tile slot index addr first bank count eid log mask pos sensor test tiles : Nat} {board
  : Bool}

@[simp] theorem health_logOf : (logOf log tile s).2.integ.health = s.integ.health := by
  simp only [logOf]
  repeat' split
  all_goals simp

@[simp] theorem health_logRead : (logRead log tile first s).state.integ.health = s.integ.health := by simp [logRead]
@[simp] theorem health_logClear : (logClear log tile s).state.integ.health = s.integ.health := by simp [logClear]

@[simp] theorem health_counterConfig (v : BitVec 64) :
    (counterConfig bank index v s).state.integ.health = s.integ.health := by
  simp [counterConfig]

@[simp] theorem health_counterRead : (counterRead first count s).state.integ.health = s.integ.health := by
  simp [counterRead]

@[simp] theorem health_scrubConfig (hours : Nat) : (scrubConfig hours s).state.integ.health = s.integ.health := by
  simp [scrubConfig]

@[simp] theorem health_recoveryCollect : (recoveryCollect q s).state.integ.health = s.integ.health := by
  simp [recoveryCollect]

@[simp] theorem health_resetCore : (resetCore q s).state.integ.health = s.integ.health := by simp [resetCore]
@[simp] theorem health_resetModule : (resetModule q s).state.integ.health = s.integ.health := by simp [resetModule]

@[simp] theorem health_standbyEnter : (standbyEnter q s).state.integ.health = s.integ.health := by
  simp [standbyEnter, enterStandby]

@[simp] theorem health_standbyExit : (standbyExit q s).state.integ.health = s.integ.health := by
  simp [standbyExit, exitStandby]

@[simp] theorem health_cascadeReset (level : Nat) :
    (cascadeReset q pos level s).state.integ.health = s.integ.health := by
  simp [cascadeReset]

@[simp] theorem health_flipMask (slot : Bool) (unit : Nat) (mask : List Byte) :
    (flipMask slot tile unit mask s).state.integ.health = s.integ.health := by
  simp [flipMask]

@[simp] theorem health_testStarts : (testStarts test s).integ.health = s.integ.health := by simp [testStarts]

@[simp] theorem health_testBist (memory patterns : Nat) :
    (testBist q tiles memory patterns s).state.integ.health = s.integ.health := by
  simp [testBist]

@[simp] theorem health_testLoopback : (testLoopback q board mask s).state.integ.health = s.integ.health := by
  simp [testLoopback, sendBoard, sendTests]

@[simp] theorem health_testResult : (testResult test s).state.integ.health = s.integ.health := by simp [testResult]
@[simp] theorem health_entDaa : (entDaa addr s).integ.health = s.integ.health := by simp [entDaa]
@[simp] theorem health_setDasa (static : Nat) : (setDasa static addr s).integ.health = s.integ.health := by
  simp [setDasa]
@[simp] theorem health_setEid : (setEid eid s).integ.health = s.integ.health := by simp [setEid]
@[simp] theorem health_pldmBase (command : Nat) : (pldmBase command s).integ.health = s.integ.health := by
  simp [pldmBase]
@[simp] theorem health_pldmSensor : (pldmSensor sensor s).integ.health = s.integ.health := by simp [pldmSensor]
@[simp] theorem health_setReceiver : (setReceiver eid s).integ.health = s.integ.health := by simp [setReceiver]

end

/-! ### Bit errors, and what a nanosecond brings -/

section
variable {s : State} {tile t b bank : Nat}

@[simp] theorem health_latchHeld (b : Bool) : (latchHeld tile b s).integ.health = s.integ.health := by simp [latchHeld]

@[simp] theorem health_restoreHeld : (restoreHeld s).integ.health = s.integ.health := by simp [restoreHeld]

@[simp] theorem health_tickCollect : (tickCollect s).integ.health = s.integ.health := by
  simp only [tickCollect]; split <;> simp [finishCollect]

@[simp] theorem health_tickOpen : (tickOpen bank s).integ.health = s.integ.health := by simp [tickOpen]
@[simp] theorem health_tickRefresh : (tickRefresh t s).integ.health = s.integ.health := by simp [tickRefresh]
@[simp] theorem health_tickShare : (tickShare t s).integ.health = s.integ.health := by simp [tickShare]
@[simp] theorem health_tickStalls : (tickStalls t s).integ.health = s.integ.health := by simp [tickStalls]
@[simp] theorem health_tickBusy : (tickBusy t s).integ.health = s.integ.health := by simp [tickBusy]
@[simp] theorem health_tickTile : (tickTile s t).integ.health = s.integ.health := by simp [tickTile]

@[simp] theorem health_tickPepper : (tickPepper s t).integ.health = s.integ.health := by
  simp [tickPepper, tickOverlap, tickReady, tickTags]

@[simp] theorem health_tickHub : (tickHub s).integ.health = s.integ.health := by simp [tickHub]
@[simp] theorem health_tickIdentity : (tickIdentity s).integ.health = s.integ.health := by simp [tickIdentity]

theorem health_dropWaiting : (dropWaiting s).integ.health = s.integ.health := by
  unfold dropWaiting
  split <;> rfl

end

/-! ### Operations that may worsen the health (R520 to R523)

Their rules keep a lower bound `n` of the health's code. -/

section
variable {n : Nat} {s : State}

/-- An operation with an equation keeps the bound. -/
theorem le_health_of_eq {t : State} (h : t.integ.health = s.integ.health) (hs : n ≤ healthCode s.integ.health) :
    n ≤ healthCode t.integ.health := by
  rwa [h]

@[simp] theorem le_health_foldl {α : Type} {xs : List α} {f : State → α → State}
    (h : ∀ s x, n ≤ healthCode s.integ.health → n ≤ healthCode (f s x).integ.health)
    (hs : n ≤ healthCode s.integ.health) : n ≤ healthCode (xs.foldl f s).integ.health :=
  List.foldlRecOn xs f (motive := fun t => n ≤ healthCode t.integ.health) hs fun t ht x _ => h t x ht

/-- A command that a snooped line stalls does nothing but take its place; else it does what its operation does. -/
theorem le_health_withSnoop {i : Instr} {f : State → State}
    (h : ∀ s, n ≤ healthCode s.integ.health → n ≤ healthCode (f s).integ.health)
    (hs : n ≤ healthCode s.integ.health) : n ≤ healthCode (withSnoop i f s).integ.health := by
  unfold withSnoop withSnoopAt
  dsimp only
  split
  · simpa using h (clearTouch s) (by simpa using hs)
  · simpa using hs

/-- An effect that keeps the bound keeps it behind a mailbox. -/
theorem le_health_mailbox {i : Instr} {code via states : Nat} {auth claim : Bool} {q : Req} {f : State → Answer}
    (h : ∀ s, n ≤ healthCode s.integ.health → n ≤ healthCode (f s).state.integ.health)
    (hs : n ≤ healthCode s.integ.health) :
    n ≤ healthCode (mailbox i code via states auth claim q f s).integ.health := by
  rcases health_mailbox_cases i code via states auth claim q f s with hm | ⟨t, ht, hm⟩
  · exact le_health_of_eq hm hs
  · exact le_health_of_eq hm (h t (le_health_of_eq ht hs))

section
variable (hs : n ≤ healthCode s.integ.health)
include hs

/-- `worsen` alone writes the health, and only where its code grows. -/
@[simp] theorem le_health_worsen (h : Health) : n ≤ healthCode (worsen h s).integ.health := by
  unfold worsen
  split
  next hlt => simpa using Nat.le_of_lt (Nat.lt_of_le_of_lt hs hlt)
  · exact hs

@[simp] theorem le_health_enterFailed : n ≤ healthCode (enterFailed s).integ.health := by
  unfold enterFailed
  split
  · exact hs
  · dsimp only
    repeat' split
    all_goals simp [hs]

@[simp] theorem le_health_cannotHold : n ≤ healthCode (cannotHold s).integ.health := by simp [cannotHold, hs]

/-! ### Engine errors (R514) -/

@[simp] theorem le_health_engineError (tile uid : Nat) (e : Entry) :
    n ≤ healthCode (engineError tile uid e s).integ.health := by
  unfold engineError
  dsimp only
  split <;> simp [hs]

theorem le_health_withParity {tile uid cls code : Nat} {parity : Bool} {f : State → State}
    (h : (f s).integ.health = s.integ.health) :
    n ≤ healthCode (withParity tile uid cls code parity f s).integ.health := by
  unfold withParity
  split
  · split <;> simp [hs]
  · exact le_health_of_eq h hs

/-! ### Lasting faults, self-tests, reloads, the pattern BIST (R519 to R528, R531) -/

@[simp] theorem le_health_lastingAdd (loc : Loc) (pattern : Nat) :
    n ≤ healthCode (lastingAdd loc pattern s).integ.health := by
  unfold lastingAdd
  dsimp only
  repeat' split
  all_goals simp [hs]

@[simp] theorem le_health_classEffect (loc : Loc) (pattern cls : Nat) :
    n ≤ healthCode (classEffect loc pattern cls s).integ.health := by
  unfold classEffect
  repeat' split
  all_goals simp [hs]

theorem le_health_selfTest (loc : Loc) (r : TestReads) : n ≤ healthCode (selfTest loc r s).integ.health := by
  unfold selfTest
  dsimp only
  repeat' split
  all_goals simp [hs]

theorem le_health_retest (x : Nat × TestReads) : n ≤ healthCode (retest s x).integ.health := by simp [retest, hs]

@[simp] theorem le_health_reloadGood (w : WeightBlock) (reads : List TestReads) :
    n ≤ healthCode (reloadGood w reads s).integ.health := by
  have hfold (xs : List (Nat × TestReads)) : n ≤ healthCode (xs.foldl retest s).integ.health :=
    le_health_foldl (fun _ x ht => le_health_retest ht x) hs
  simp [reloadGood, reloadsDone, hfold]

theorem le_health_reloadNext (data : List Byte) (sourceOk verified : Bool) (reads : List TestReads) :
    n ≤ healthCode (reloadNext data sourceOk verified reads s).integ.health := by
  unfold reloadNext
  dsimp only
  repeat' split
  all_goals simp [hs]

theorem le_health_bistBad (loc : Loc) : n ≤ healthCode (bistBad s loc).integ.health := by simp [bistBad, hs]

theorem le_health_foldl_bistBad (bad : List Loc) : n ≤ healthCode (bad.foldl bistBad s).integ.health :=
  le_health_foldl (fun _ loc ht => le_health_bistBad ht loc) hs

theorem le_health_bistDone (bad : List Loc) (elapsed : Nat) :
    n ≤ healthCode (bistDone bad elapsed s).integ.health := by
  unfold bistDone
  dsimp only
  repeat' split
  all_goals simp [checkerLogged, le_health_foldl_bistBad, hs]

/-! ### Start-up and the end of a tenancy (R508, R546, R578) -/

theorem le_health_cardamomStarts (m2digest fwVersion : Nat) :
    n ≤ healthCode (cardamomStarts m2digest fwVersion s).integ.health := by
  unfold cardamomStarts
  split
  · simp [cardamomBoot, hs]
  · unfold cardamomRestart
    split <;> simp [hs]
  · exact hs

theorem le_health_memoryTrained (ok : Bool) : n ≤ healthCode (memoryTrained ok s).integ.health := by
  unfold memoryTrained
  repeat' split
  all_goals simp [trainingFailed, hs]

@[simp] theorem le_health_readBack (bad : List Loc) : n ≤ healthCode (readBack bad s).integ.health := by
  unfold readBack
  dsimp only
  split <;> simp [le_health_foldl_bistBad, hs]

theorem le_health_wipeThen {m2digest : Nat} {bad : List Loc} {f : State → Answer}
    (h : ∀ s, (f s).state.integ.health = s.integ.health) :
    n ≤ healthCode (wipeThen m2digest bad f s).state.integ.health := by
  unfold wipeThen
  dsimp only
  split <;> simp [h, restartFails, releaseFill, hs]

theorem le_health_releaseTenant (m2digest : Nat) (bad : List Loc) :
    n ≤ healthCode (releaseTenant m2digest bad s).state.integ.health := by
  unfold releaseTenant
  exact le_health_wipeThen (by simpa [releaseRecords, releaseFabric] using hs) fun _ => by simp

theorem le_health_debugUnlock (q : Req) (scope serial counter digest m2digest : Nat) (bad : List Loc) (sigOk : Bool) :
    n ≤ healthCode (debugUnlock q scope serial counter digest m2digest bad sigOk s).state.integ.health := by
  unfold debugUnlock
  repeat' split
  · simpa using hs
  · simpa using hs
  · exact le_health_wipeThen hs fun _ => by simp

/-! ### Bit errors, and what a nanosecond brings (R512, R513) -/

@[simp] theorem le_health_upsetEffect (u : Upset) : n ≤ healthCode (upsetEffect u s).integ.health := by
  unfold upsetEffect
  split <;> simp [hubLost, channelLost, hs]

theorem le_health_findUpset (u : Upset) : n ≤ healthCode (findUpset s u).integ.health := by
  unfold findUpset
  split
  · unfold rewriteLatch
    dsimp only
    repeat' split
    all_goals simp [hs]
  all_goals simp [upsetLog, hs]

theorem le_health_tickUpsets : n ≤ healthCode (tickUpsets s).integ.health :=
  le_health_foldl (fun _ u ht => le_health_findUpset ht u) hs

theorem le_health_tick : n ≤ healthCode (tick s).integ.health := by
  unfold tick
  dsimp only
  split
  · exact hs
  · split
    · exact hs
    · rw [health_tickCollect]
      exact le_health_tickUpsets (by simpa [allTilesTick] using hs)

end

end

/-! ### The meanings of commands -/

section
variable {n : Nat} {s t : State}

theorem le_health_execBar2Access {write : Bool} {offset size : Nat} {data : List Byte}
    (hs : n ≤ healthCode s.integ.health) (h : execBar2Access write offset size data s = .next t) :
    n ≤ healthCode t.integ.health := by
  unfold execBar2Access at h
  split at h
  · cases h
  · cases h; simpa using hs

theorem le_health_execRegisterWrite {bar2 : Bool} {offset size value : Nat}
    (hs : n ≤ healthCode s.integ.health) (h : execRegisterWrite bar2 offset size value s = .next t) :
    n ≤ healthCode t.integ.health := by
  unfold execRegisterWrite at h
  split at h <;> split at h <;> cases h
  all_goals simpa using hs

/-- The commands that may worsen the health have rules of their own: engine ops, the self-test, the reload of a weight
block, the BIST, two steps of start-up, and the two commands that fill package memory anew. Every other command leaves
it: its meaning is one operation, whose equation says so, or chooses between such operations. -/
theorem le_health_exec (c : Instr) (hs : n ≤ healthCode s.integ.health) (h : exec c s = .next t) :
    n ≤ healthCode t.integ.health := by
  cases c
  case bar2Access => exact le_health_execBar2Access hs h
  case registerWrite => exact le_health_execRegisterWrite hs h
  all_goals refine of_next_eq_next (P := fun t => n ≤ healthCode t.integ.health) ?_ h
  case cmMm | sfAttnFwd | sfAttnBwd | sfMerge | sfRope | smAdd | smMul | smMax | smMin | smCmp | smSelect | smConvert
    | smFunc | smGate | smRowsum | smRowmax | smRowdot | smRmsnorm | smLayernorm | smSoftmax | anSample | anVerify
    | maAccum =>
    exact le_health_withParity hs (by simp)
  case clCopy | clGather | clScatter | clTranspose | clFill | clKvGather | clKvAppend | fnAppend | fnGather =>
    exact le_health_withSnoop (fun _ ha => le_health_withParity ha (by simp)) hs
  case cardamomStart => exact le_health_cardamomStarts hs _ _
  case packageMemoryTrained => exact le_health_memoryTrained hs _
  case targetedSelfTest => exact le_health_selfTest hs _ _
  case weightBlockReload => exact le_health_withSnoop (fun _ ha => le_health_reloadNext ha _ _ _ _) hs
  case bistComplete => exact le_health_bistDone hs _ _
  case tenantRelease => exact le_health_mailbox (fun _ ha => le_health_releaseTenant ha _ _) hs
  case debugUnlock => exact le_health_mailbox (fun _ ha => le_health_debugUnlock ha _ _ _ _ _ _ _ _) hs
  all_goals refine le_health_of_eq ?_ hs
  case noOp | ctlFenceWait | fenceWaitRelease | ctlFenceSignal | ctlFenceSignalRemote | ctlBarrierArrive
    | ctlBarrierWait | ctlStepLoop | ctlStepLoopEnd | busyResendTimer | slotWindowClaim | trainingStepTimeout
    | portRetrainTimer | laneFail | paResp =>
    repeat' split
    all_goals simp
  case msgStepHeader | msgTokenList =>
    split
    · refine health_withSnoop fun a => ?_
      split
      · simp [health_stepRecv ‹_›]
      · simp
    · rfl
  case msgCommit =>
    refine health_withSnoop fun a => ?_
    split
    · rfl
    · split
      · simp [health_stepRecv ‹_›]
      · simp
  case msgAbort =>
    repeat' split
    · rfl
    · simp [health_stepRecv ‹_›]
    · simp
  case msgResult | msgFault | msgAbortDone =>
    split
    · split
      · simp
      · have hrecv := health_stepRecv ‹_›
        repeat' split
        all_goals simp [hrecv]
    · rfl
  case windowNotice | pairRekey | releaseNotice =>
    split
    · simp [health_mgmtRecv ‹_›]
    · simp
  case requestUpdate => exact health_pldmUpdate fun _ _ => health_requestUpdate
  case activateFirmware => exact health_pldmUpdate fun _ _ => health_activateFirmware
  case cancelUpdate => exact health_pldmUpdate fun _ _ => health_cancelUpdate
  all_goals simp

end

/-! ### O37 -/

/-- Settles O37: a step runs the front command, or one that waited, or lets a nanosecond pass, and each keeps every
lower bound of the health's code. -/
theorem healthNeverReturns : Obligations.HealthNeverReturns := by
  unfold Obligations.HealthNeverReturns
  intro s t h
  unfold step at h
  split at h
  next c cs _ => exact le_health_exec (s := { s with pending := cs }) c (Nat.le_refl _) h
  · split at h
    next c _ => exact le_health_exec c (le_health_of_eq health_dropWaiting (Nat.le_refl _)) h
    · obtain rfl := Host.Outcome.next.inj h
      exact le_health_tick (Nat.le_refl _)

end Sys2Proof.Machine
end
